-- ==== Sys2Proof/Word.lean ====
section
/-! DEFINITION. The word types of the KYD-1280 and their plainest arithmetic.
Register words are bit vectors (R538); bytes are bit vectors (R3); identifiers, counts and times are natural numbers. -/

namespace Sys2Proof

/-- A byte of a structure, of a payload or of memory (R3). -/
abbrev Byte := BitVec 8

/-- A 32-bit register word (R538). -/
abbrev Word := BitVec 32

/-- Times and durations, in nanoseconds (R6). -/
abbrev Ns := Nat

/-- A table held as a list of keys and entries, each key at most once. -/
abbrev Table (κ α : Type) := List (κ × α)

end Sys2Proof
end

