-- ==== Sys2Proof/Config.lean ====
section
/-! DEFINITION. What one module is built with (fuses, tables installed at manufacture) and the free values.
Every constant here is opaque: it has no body, so no proof can rest on a particular value. -/

namespace Sys2Proof.Config

/-- The n-th value drawn where the spec leaves a value open (log entry 3). -/
opaque freeValue : Nat → Nat

/-- The hash by which an ordered flow (SRC, DST, FLOW) chooses its port (R110; log entry 3). -/
opaque flowHash : Nat → Nat → Nat → Nat

/-- The spill threshold of the input queue of a beam link, from one quarter to another, in bytes (R21), and the directory controller that serves a home line (R49; log entry 3). -/
opaque beamSpill : Nat → Nat → Nat
opaque dirController : Nat → Nat

/-- What a product of an infinity and a zero gives, by the binary32 patterns of the operands (R352, R357; log entry 3). -/
opaque openProduct : List Nat → Nat

/-- Tuisil's MIPI manufacturer ID (R557). -/
opaque mipiId : Nat

/-- DEVICE_UID: the 16 bytes fused into the module (R541). -/
opaque deviceUid : List (BitVec 8)

/-- Fused values of Table 19-3 and Table 14-3: the vendor number, the stepping, and whether an owner signature is required and debug is enabled. -/
opaque vendor : Nat
opaque stepping : Nat
opaque ownerSigReq : Bool
opaque debugEnabled : Bool

/-- OWNER_KEY_DIGEST (R406), the 96 bytes of identity seeds (R403), the digest of the boot ROM and Tuisil's firmware key in it (R406). -/
opaque ownerKeyDigest : List (BitVec 8)
opaque identitySeeds : List (BitVec 8)
opaque romDigest : List (BitVec 8)
opaque firmwareKey : List (BitVec 8)

/-- The device and manufacturing certificates, and the certificate of an attestation public key (R404, R405). -/
opaque deviceCert : List (BitVec 8)
opaque makerCert : List (BitVec 8)
opaque attestCert : List (BitVec 8) → List (BitVec 8)

/-- The Dvorro image that flash holds when the module is first powered. -/
opaque storedImage : List (BitVec 8)

/-- The addresses of the management ports (R494): of each port in turn its link-local address and the one formed by autoconfiguration. -/
opaque mgmtAddress : Nat → List (BitVec 8)

/-- Regulator phases fitted on a rail (Table 19-5). -/
opaque railPhases : Nat → Nat

/-- SLH-DSA of FIPS 205: the public key of 96 bytes of seeds, and a signature and its check with an empty context; the flag chooses SHAKE-256f, else SHAKE-256s. -/
opaque slhPublic : Bool → List (BitVec 8) → List (BitVec 8)
opaque slhSign : Bool → List (BitVec 8) → List (BitVec 8) → List (BitVec 8)
opaque slhVerify : Bool → List (BitVec 8) → List (BitVec 8) → List (BitVec 8) → Bool

/-- ML-KEM-1024 of FIPS 203 with the key pair generated from a draw: the encapsulation key, and the secret of a ciphertext. -/
opaque kemPublic : Nat → List (BitVec 8)
opaque kemOpen : Nat → List (BitVec 8) → List (BitVec 8)

end Sys2Proof.Config
end

