-- ==== Sys2Proof/Syntax.lean ====
section
/-! DEFINITION. The commands of the module: the structures that reach it from outside, and Instr, one constructor per row of the opcode table. -/

namespace Sys2Proof

/-- A KFP packet (R83): the header of Table 4-1, the 16-byte extension when FLAGS.EXT is 1, the payload and the CRC-32C trailer.
`rsv` holds the header's reserved bits in offset order: 0x00 [7], 0x08 [31:24], 0x10 [31:24], 0x14 [31:24], 0x18 [15:13]. -/
structure Packet where
  ver : Nat := 1
  tc : Nat := 0
  op : Nat := 0
  flags : Nat := 0
  dst : Nat := 0
  src : Nat := 0
  job : Nat := 0
  epoch : Nat := 0
  flow : Nat := 0
  fseq : Nat := 0
  msg : Nat := 0
  pidx : Nat := 0
  pcnt : Nat := 0
  status : Nat := 0
  oparg : Nat := 0
  addr : Nat := 0
  cap : Nat := 0
  rsv : Nat := 0
  ext : List Byte := []
  payload : List Byte := []
  crc : Nat := 0
  deriving DecidableEq, Repr

/-- The HELLO message (Table 3-11), with the reserved bytes it arrived with. -/
structure Hello where
  helloVer : Nat := 1
  node : Nat
  lport : Nat
  width : Nat
  lane : Nat
  credTc0 : Nat
  credTc1 : Nat
  credTc2 : Nat
  credTc5 : Nat
  replayDepth : Nat
  ready : Bool
  rsv : Nat := 0
  deriving DecidableEq, Repr

/-- A flit (Table 3-4). `damaged` says that the flit overlaps an uncorrectable codeword (R61). -/
structure Flit where
  fkind : Nat := 0
  flossy : Bool := false
  lnak : Bool := false
  lseq : Nat := 0
  lack : Nat := 0
  fpo : Nat := 255
  pend : Nat := 0
  cselA : Nat := 0
  ccumA : Nat := 0
  cselB : Nat := 0
  ccumB : Nat := 0
  txlane : Nat := 0
  rsv : Nat := 0
  payload : List Byte := []
  lcrc : Nat := 0
  damaged : Bool := false
  deriving DecidableEq, Repr

/-- The self-timed units of Table 1-2 that have canaries and spares. -/
inductive UnitKind where
  | rod | carry | sieve | mover
  deriving DecidableEq, Repr

/-- What fails or is found DEGRADED (R451): a self-timed unit by its index, or a bead by its channel and bank pair. -/
inductive FailedUnit where
  | unit (kind : UnitKind) (index : Nat)
  | bead (channel pair : Nat)
  deriving DecidableEq, Repr

/-- Why it fails: the cause code of UNIT_DEGRADED (Table 16-5), and, of a residue mismatch, whether it came again when the element was computed once more (R268, R366; log entry 41). -/
structure FailureCause where
  code : Nat
  again : Bool
  deriving DecidableEq, Repr

/-- The mailboxes of Table 17-2: two sessions' mailboxes, sixteen host mailboxes, the baseboard's, and the clear mailbox of each management port (R497). -/
inductive MboxId where
  | fm (i : Nat)
  | host (i : Nat)
  | baseboard
  | clear (port : Nat)
  deriving DecidableEq, Repr

/-- Who sent a mailbox command: the mailbox, the slot's CSEQ, the TENANT flag with TSLOT (R482, R483), and where it came from: the SESSION_ID of a manager, the sender (address, port) on a clear mailbox, the endpoint on I3C. -/
structure Caller where
  mbox : MboxId
  cseq : Nat := 0
  tenant : Bool := false
  tslot : Nat := 0
  src : Nat := 0
  deriving DecidableEq, Repr

/-- A mailbox command slot: the header of Table 17-3 and its arguments; `src` is the sender (address, port) on a clear mailbox, the endpoint on I3C. -/
structure MboxSlot where
  opcode : Nat
  more : Bool := false
  tenant : Bool := false
  cseq : Nat
  len : Nat := 0
  part : Nat := 0
  total : Nat := 0
  session : Nat := 0
  tslot : Nat := 0
  rsv : Nat := 0
  args : List Byte := []
  src : Nat := 0
  deriving DecidableEq, Repr

/-- A mailbox datagram (Table 17-6) as it arrives on a management port: `slots` are its slots in the clear or as sealed bytes that decrypt to them, `tagOk` says what the GCM tag check finds. -/
structure Datagram where
  port : Nat
  src : Nat
  dkind : Nat
  rsv : Nat := 0
  sessionId : Nat := 0
  dseq : Nat := 0
  rpos : Nat := 0
  slots : List MboxSlot := []
  tagOk : Bool := true
  deriving DecidableEq, Repr

/-- OPEN_WINDOW arguments (Table 17-8). -/
structure OpenWindowArgs where
  job : Nat
  rights : Nat
  evtLog2 : Nat
  evtNode : Nat
  base : Nat
  length : Nat
  evtCap : Nat
  deriving DecidableEq, Repr

/-- CREATE_PUBLISH_REGION arguments. -/
structure PublishArgs where
  job : Nat
  span : Nat
  pubs : List Nat
  view : Nat
  vword : Nat
  version : Nat
  deriving DecidableEq, Repr

/-- One input of a reduction group: KIND 0 a contributor, 1 a child switch. -/
structure RedInput where
  kind : Nat
  node : Nat
  rank : Nat
  deriving DecidableEq, Repr

/-- OPEN_REDUCTION arguments. -/
structure OpenReductionArgs where
  rid : Nat
  job : Nat
  cop : Nat
  fmt : Nat
  rfmt : Nat
  rmode : Nat
  sat : Nat
  ranked : Nat
  qn : Nat
  dmode : Nat
  dtc : Nat
  parent : Nat
  round0 : Nat
  dnode : Nat
  dgroup : Nat
  length : Nat
  ntotal : Nat
  roundTimeout : Nat
  dcap : Nat
  resBase : Nat
  cplOffset : Nat
  inputs : List RedInput
  deriving DecidableEq, Repr

/-- INSTALL_JOB arguments; `rankedSet` lists the nodes set in the 2,048-byte map. -/
structure InstallJobArgs where
  job : Nat
  ranked : Nat
  pagerNode : Nat
  faultSlots : Nat
  parkTimeout : Nat
  ttRoot : Nat
  pagerCap : Nat
  rankedSet : List Nat
  deriving DecidableEq, Repr

/-- WRITE_TT_ENTRIES arguments. -/
structure WriteTtArgs where
  job : Nat
  level : Nat
  first : Nat
  table : Nat
  entries : List Nat
  deriving DecidableEq, Repr

/-- RESOLVE_FAULT arguments. -/
structure ResolveFaultArgs where
  job : Nat
  outcome : Nat
  hasLeaf : Nat
  fid : Nat
  leaf : Nat
  deriving DecidableEq, Repr

/-- SET_TALLY_SESSION arguments. -/
structure TallySessionArgs where
  session : Nat
  enable : Nat
  shift : Nat
  tcMask : Nat
  events : Nat
  anyMask : Nat
  op : Nat
  lport : Nat
  job : Nat
  src : Nat
  dst : Nat
  deriving DecidableEq, Repr

/-- INSTALL_TENANT_KEY arguments (Table 14-5). -/
structure InstallKeyArgs where
  bytes : List Byte
  deriving DecidableEq, Repr

/-- PROPOSE_MAP arguments; each record is the 32 bytes of Table 15-5. -/
structure ProposeMapArgs where
  base : Nat
  maxTransit : Nat
  records : List (List Byte)
  deriving DecidableEq, Repr

/-- RUN_DRILL arguments. -/
structure DrillArgs where
  dkind : Nat
  id : Nat
  target : Nat
  p0 : Nat
  p1 : Nat
  deriving DecidableEq, Repr

/-- OPEN_SESSION arguments. -/
structure OpenSessionArgs where
  keyIdx : Nat
  nonce : List Byte
  kemCt : List Byte
  mgrSig : List Byte
  deriving DecidableEq, Repr

/-- What the correctable-error monitor of R451 watches. -/
inductive ErrorUnit where
  | bankPair (channel : Nat)
  | sramMacro (die : Nat)
  deriving DecidableEq, Repr

/-- Where an uncorrectable memory error falls (R470): the head packet of an output queue; a directory entry; a cached translation; a window; an accumulator of a slice, or its receipts; a line of DRAM. -/
inductive ErrorPlace where
  | packetBuffer (lport queue : Nat)
  | directory (quarter set way : Nat)
  | translation (quarter job level page : Nat)
  | window (index : Nat)
  | staging (rid slice : Nat) (elem : Option Nat)
  | dramLine (line : Nat)
  deriving DecidableEq, Repr

/-- A sample of the supply monitor (R544): bus voltage in mV, input current in mA, power in W, store voltage in 10 mV, and the rails' voltages in mV. -/
structure SupplySample where
  vin : Nat
  iin : Nat
  pin : Nat
  vstore : Nat
  rails : List (Nat × Bool)
  deriving DecidableEq, Repr

/-- The contacts of the blade that have made (R550, R554). -/
structure InsertContacts where
  main : Bool
  senseVin : Bool
  senseRtn : Bool
  deriving DecidableEq, Repr

/-- An IEEE 1588 message as R389 uses it. -/
structure PtpMessage where
  offset : Int
  valid : Bool
  deriving DecidableEq, Repr

/-- The commands of the block: one constructor per row of the opcode table, with the operands the row's sender names; the rows without operands stand last. -/
inductive Instr where
  /-- WRITE_REGISTER (R506). -/
  | writeRegister (c : Caller) (addr mask value : Nat)
  /-- READ_REGISTER (R539). -/
  | readRegister (c : Caller) (addr count pend : Nat)
  /-- COUNTER_LOW_WORD_READ (R540). -/
  | counterLowWordRead (c : Caller) (addr : Nat)
  /-- COMMIT_GROUP (R508). -/
  | commitGroup (c : Caller) (group : Nat)
  /-- DISCARD_GROUP (R508). -/
  | discardGroup (c : Caller) (group : Nat)
  /-- GOVERNOR_EVALUATION (R42). -/
  | governorEvaluation (die : Nat)
  /-- SETPOINT_STEP (R42). -/
  | setpointStep (die : Nat)
  /-- ADMISSION_RAISE_RELEASE (R44). -/
  | admissionRaiseRelease (die : Nat)
  /-- CANARY_MEASURE (R46). -/
  | canaryMeasure (kind : UnitKind) (index margin : Nat)
  /-- CANARY_HOLD_EXPIRY (R46). -/
  | canaryHoldExpiry (die : Nat)
  /-- PORT_ENABLE (R56). -/
  | portEnable (lport : Nat)
  /-- PORT_DISABLE (R79). -/
  | portDisable (lport : Nat)
  /-- DISABLE_DRAIN_END (R79). -/
  | disableDrainEnd (lport : Nat)
  /-- LANE_RECEIVER_READY (R56). -/
  | laneReceiverReady (lane : Nat) (precode : Bool)
  /-- TRAINING_TIMEOUT (R56). -/
  | trainingTimeout (lport : Nat)
  /-- FLIT_LOCK_ACHIEVED (R56). -/
  | flitLockAchieved (lane : Nat)
  /-- HELLO_SEND (R58). -/
  | helloSend (lane : Nat)
  /-- HELLO_RECEIVE (R58). -/
  | helloReceive (lane : Nat) (h : Hello)
  /-- HELLO_TIMEOUT (R58). -/
  | helloTimeout (lport : Nat)
  /-- FLIT_TRANSMIT (R62). -/
  | flitTransmit (lane : Nat)
  /-- FLIT_RECEIVE (R69). -/
  | flitReceive (lane : Nat) (f : Flit) (drained : Nat)
  /-- MISSING_LSEQ_TIMEOUT (R69). -/
  | missingLseqTimeout (lport : Nat)
  /-- REPLAY_TIMEOUT (R70). -/
  | replayTimeout (lport : Nat)
  /-- LANE_LOCK_LOSS (R72). -/
  | laneLockLoss (lane : Nat)
  /-- LANE_UNCORRECTABLE_LIMIT (R72). -/
  | laneUncorrectableLimit (lane : Nat)
  /-- SYMBOL_ERROR_WINDOW (R72). -/
  | symbolErrorWindow (lane corrected symbols : Nat)
  /-- LANE_RETIRE (R73). -/
  | laneRetire (lport mask : Nat)
  /-- LANE_ADD (R75). -/
  | laneAdd (lport mask : Nat)
  /-- LINK_DOWN (R76). -/
  | linkDownCtl (lport reason : Nat)
  /-- DEPARTING (R448). -/
  | departing (lport : Nat)
  /-- DOWN_BACKOFF_EXPIRY (R78). -/
  | downBackoffExpiry (lport : Nat)
  /-- BACKOFF_RESET (R78). -/
  | backoffReset (lport : Nat)
  /-- PACKET_FORWARD (R115). -/
  | packetForward (lport : Nat) (p : Packet)
  /-- RESEQ_CONTEXT_IDLE (R112). -/
  | reseqContextIdle (quarter src dst flow : Nat)
  /-- RESIDENCE_LIMIT (R99). -/
  | residenceLimit (lport queue : Nat)
  /-- PACKET_TRANSMIT_SELECT (R379). -/
  | packetTransmitSelect (lport : Nat)
  /-- GATE_ENTRY_CHANGE (R384). -/
  | gateEntryChange (lport : Nat)
  /-- ACK_GATHER_FLUSH (R95). -/
  | ackGatherFlush (quarter src : Nat)
  /-- ACK_RECEIVE (R97). -/
  | ackReceive (lport : Nat) (p : Packet)
  /-- NAK_RECEIVE (R98). -/
  | nakReceive (lport : Nat) (p : Packet)
  /-- RSP_RECEIVE (R108). -/
  | rspReceive (lport : Nat) (p : Packet)
  /-- RSP_DATA_RECEIVE (R108). -/
  | rspDataReceive (lport : Nat) (p : Packet)
  /-- RETX_TIMER_EXPIRY (R97). -/
  | retxTimerExpiry (dst msg pidx : Nat) (rsp : Bool)
  /-- PACKET_ABANDON (R97). -/
  | packetAbandon (dst msg pidx : Nat) (rsp : Bool)
  /-- ASSEMBLY_TIMEOUT (R92). -/
  | assemblyTimeout (quarter src msg : Nat)
  /-- DEDUP_EXPIRY (R102). -/
  | dedupExpiry (src msg : Nat)
  /-- WRITE_COMPLETION_DELAY (R100). -/
  | writeCompletionDelay (dst msg : Nat)
  /-- LOAD (R129). -/
  | load (lport : Nat) (p : Packet)
  /-- STORE (R129). -/
  | store (lport : Nat) (p : Packet)
  /-- ATOMIC (R124). -/
  | atomic (lport : Nat) (p : Packet)
  /-- FENCE (R130). -/
  | fence (lport : Nat) (p : Packet)
  /-- COMMAND_SPACE_STORE (R89). -/
  | commandSpaceStore (lport : Nat) (p : Packet)
  /-- FAULT_TIMEOUT (R142). -/
  | faultTimeout (job fid : Nat)
  /-- FLOW_PENDING_EXPIRY (R139). -/
  | flowPendingExpiry (src dst flow fseq : Nat)
  /-- PARKED_BEHIND_TIMEOUT (R139). -/
  | parkedBehindTimeout (quarter src msg : Nat)
  /-- RANKED_EPOCH_APPLY (R151). -/
  | rankedEpochApply (job repoch : Nat)
  /-- RANKED_EPOCH_TIMEOUT (R153). -/
  | rankedEpochTimeout (job repoch : Nat)
  /-- COMBINED_ATOMIC_SEND (R147). -/
  | combinedAtomicSend (dst : Nat) (entry : Nat)
  /-- LINE_RELEASE (R198). -/
  | lineRelease (line : Nat)
  /-- TRANSLATION_FENCE_DONE (R135). -/
  | translationFenceDone (fence : Nat)
  /-- WOPEN (R172). -/
  | wopen (lport : Nat) (p : Packet)
  /-- WREVOKE (R174). -/
  | wrevoke (lport : Nat) (p : Packet)
  /-- WINDOW_DRAINED (R178). -/
  | windowDrained (index : Nat)
  /-- OPEN_WINDOW (R182). -/
  | openWindow (c : Caller) (a : OpenWindowArgs)
  /-- REVOKE_WINDOW (R180). -/
  | revokeWindow (c : Caller) (force cap : Nat)
  /-- QUERY_WINDOW (R182). -/
  | queryWindow (c : Caller) (index : Nat)
  /-- SET_WINDOW_QUOTA (R173). -/
  | setWindowQuota (c : Caller) (job quota : Nat)
  /-- CREQ_RD_SHARED (R199). -/
  | creqRdShared (lport : Nat) (p : Packet)
  /-- CREQ_RD_OWN (R199). -/
  | creqRdOwn (lport : Nat) (p : Packet)
  /-- CREQ_UPGRADE (R199). -/
  | creqUpgrade (lport : Nat) (p : Packet)
  /-- CREQ_WB_DIRTY (R199). -/
  | creqWbDirty (lport : Nat) (p : Packet)
  /-- CREQ_EVICT_CLEAN (R199). -/
  | creqEvictClean (lport : Nat) (p : Packet)
  /-- CRSP_RECEIVE (R202). -/
  | crspReceive (lport : Nat) (p : Packet)
  /-- CDAT_RECEIVE (R211). -/
  | cdatReceive (lport : Nat) (p : Packet)
  /-- SNOOP_TIMEOUT (R190). -/
  | snoopTimeout (agent line : Nat)
  /-- RECLAIM_SCAN_END (R209). -/
  | reclaimScanEnd (agent : Nat)
  /-- ATTACH_AGENT (R188). -/
  | attachAgent (c : Caller) (port snpCap creqCredits : Nat)
  /-- DETACH_AGENT (R208). -/
  | detachAgent (c : Caller) (port force : Nat)
  /-- DETACH_COMPLETE (R208). -/
  | detachComplete (agent : Nat)
  /-- DIRTY_MARK_SEND (R220). -/
  | dirtyMarkSend (page : Nat)
  /-- WRITEBACK_THRESHOLD (R222). -/
  | writebackThreshold (quarter : Nat)
  /-- BUDGET_WAIT_RELEASE (R222). -/
  | budgetWaitRelease (quarter : Nat)
  /-- FLUSH_NEAR_TIER (R223). -/
  | flushNearTier (c : Caller)
  /-- STACK_FAILURE (R232). -/
  | stackFailure (stack : Nat)
  /-- TRAY_REACHABLE (R233). -/
  | trayReachable (tray : Nat)
  /-- DECLARE_TRAY_LOST (R234). -/
  | declareTrayLost (c : Caller) (tray : Nat)
  /-- POOL_FATAL_REPORT (R235). -/
  | poolFatalReport (job : Nat)
  /-- PUBLISH (R230). -/
  | publish (lport : Nat) (p : Packet)
  /-- CREATE_PUBLISH_REGION (R229). -/
  | createPublishRegion (c : Caller) (a : PublishArgs)
  /-- DELETE_PUBLISH_REGION (R229). -/
  | deletePublishRegion (c : Caller) (job view : Nat)
  /-- RESTORE_PAGES (R228). -/
  | restorePages (c : Caller) (job va : Nat) (images : List (List Byte))
  /-- REDUCE (R250). -/
  | reduce (lport : Nat) (p : Packet)
  /-- PARTIAL_DATA (R260). -/
  | partialData (lport : Nat) (p : Packet)
  /-- ABT_UP (R578). -/
  | abtUp (lport : Nat) (p : Packet)
  /-- ABT_DOWN (R266). -/
  | abtDown (lport : Nat) (p : Packet)
  /-- ABT_DONE (R266). -/
  | abtDone (lport : Nat) (p : Packet)
  /-- BEAD_PARTIAL (R360). -/
  | beadPartial (lport : Nat) (p : Packet)
  /-- REDUCE_WRITE (R263). -/
  | reduceWrite (lport : Nat) (p : Packet)
  /-- ROUND_COMPLETION_RECORD (R264). -/
  | roundCompletionRecord (rid : Nat)
  /-- ROUND_TIMEOUT (R265). -/
  | roundTimeout (rid : Nat)
  /-- OPEN_REDUCTION (R240). -/
  | openReduction (c : Caller) (a : OpenReductionArgs)
  /-- CLOSE_REDUCTION (R244). -/
  | closeReduction (c : Caller) (rid : Nat)
  /-- ABORT_REDUCTION (R244). -/
  | abortReduction (c : Caller) (rid : Nat)
  /-- QUERY_REDUCTION (R244). -/
  | queryReduction (c : Caller) (rid : Nat)
  /-- GATHER (R276). -/
  | gather (lport : Nat) (p : Packet)
  /-- SIEVE_GATHER_MEM (R284). -/
  | sieveGatherMem (lport : Nat) (p : Packet)
  /-- SIEVE_SCATTER (R285). -/
  | sieveScatter (lport : Nat) (p : Packet)
  /-- SIEVE_SETOP (R286). -/
  | sieveSetop (lport : Nat) (p : Packet)
  /-- SIEVE_FILTER (R296). -/
  | sieveFilter (lport : Nat) (p : Packet)
  /-- SIEVE_DISPATCH (R300). -/
  | sieveDispatch (lport : Nat) (p : Packet)
  /-- SIEVE_COMBINE (R301). -/
  | sieveCombine (lport : Nat) (p : Packet)
  /-- SIEVE_CHUNK_START (R272). -/
  | sieveChunkStart (src msg : Nat)
  /-- SIEVE_REQUEST_END (R281). -/
  | sieveRequestEnd (src msg : Nat)
  /-- LOAD_SIEVE_PROGRAM (R294). -/
  | loadSieveProgram (c : Caller) (slot last owner partno : Nat) (instrs : List Nat)
  /-- UNLOAD_SIEVE_PROGRAM (R295). -/
  | unloadSieveProgram (c : Caller) (slot : Nat)
  /-- QUERY_SIEVE_PROGRAM (R295). -/
  | querySieveProgram (c : Caller) (slot : Nat)
  /-- SLOT_LOAD_TIMEOUT (R293). -/
  | slotLoadTimeout (slot : Nat)
  /-- DOORBELL_RING (R311). -/
  | doorbellRing (lport : Nat) (p : Packet)
  /-- DOORBELL_RESUME (R327). -/
  | doorbellResume (lport : Nat) (p : Packet)
  /-- DOORBELL_ABORT (R311). -/
  | doorbellAbort (lport : Nat) (p : Packet)
  /-- DESCRIPTOR_START (R313). -/
  | descriptorStart (engine : Nat)
  /-- MOVER_UNIT (R314). -/
  | moverUnit (ch : Nat)
  /-- MOVER_STEP_BOUNDARY (R315). -/
  | moverStepBoundary (ch : Nat)
  /-- DESCRIPTOR_END (R331). -/
  | descriptorEnd (ch : Nat)
  /-- OPEN_MOVER_CHANNEL (R307). -/
  | openMoverChannel (c : Caller) (ch ringLog2 prio job ringBase : Nat)
  /-- CLOSE_MOVER_CHANNEL (R307). -/
  | closeMoverChannel (c : Caller) (ch : Nat)
  /-- SET_MOVER_PRIORITY (R307). -/
  | setMoverPriority (c : Caller) (ch prio : Nat)
  /-- QUERY_MOVER_CHANNEL (R307). -/
  | queryMoverChannel (c : Caller) (ch : Nat)
  /-- BEAD_MODE (R343). -/
  | beadMode (lport : Nat) (p : Packet)
  /-- BEAD_ATTN (R355). -/
  | beadAttn (lport : Nat) (p : Packet)
  /-- BEAD_DOT (R357). -/
  | beadDot (lport : Nat) (p : Packet)
  /-- BEAD_AXPY (R357). -/
  | beadAxpy (lport : Nat) (p : Packet)
  /-- BEAD_SCAN (R357). -/
  | beadScan (lport : Nat) (p : Packet)
  /-- BEAD_COMMIT_POINT (R342). -/
  | beadCommitPoint (ch pair : Nat)
  /-- BEAD_COMMAND_END (R350). -/
  | beadCommandEnd (ch : Nat)
  /-- MODE_CHANGE_EFFECT (R343). -/
  | modeChangeEffect (ch : Nat)
  /-- BEAD_POWER_WINDOW (R339). -/
  | beadPowerWindow (stack : Nat)
  /-- ASSIGN_BEAD_CHANNEL (R340). -/
  | assignBeadChannel (c : Caller) (ch job : Nat)
  /-- RELEASE_BEAD_CHANNEL (R340). -/
  | releaseBeadChannel (c : Caller) (ch : Nat)
  /-- QUERY_BEAD_CHANNEL (R340). -/
  | queryBeadChannel (c : Caller) (ch : Nat)
  /-- RATE_ENTRY_RECOVERY (R383). -/
  | rateEntryRecovery (quarter dst : Nat)
  /-- TALLY_EXPORT (R394). -/
  | tallyExport (quarter : Nat)
  /-- MIRROR (R394). -/
  | mirror (lport : Nat) (p : Packet)
  /-- PTP_MESSAGE (R389). -/
  | ptpMessage (m : PtpMessage)
  /-- SET_GATE_SCHEDULE (R387). -/
  | setGateSchedule (c : Caller) (lport : Nat) (sched : List Byte)
  /-- SET_TALLY_SESSION (R391). -/
  | setTallySession (c : Caller) (a : TallySessionArgs)
  /-- READ_TALLY (R394). -/
  | readTally (c : Caller) (quarter max : Nat)
  /-- GET_ATTESTATION (R414). -/
  | getAttestation (c : Caller) (nonce : List Byte)
  /-- GET_IDENTITY_CHAIN (R426). -/
  | getIdentityChain (c : Caller)
  /-- ALLOCATE_KEY_SLOT (R417). -/
  | allocateKeySlot (c : Caller) (slot tenant : Nat)
  /-- INSTALL_TENANT_KEY (R417). -/
  | installTenantKey (c : Caller) (a : InstallKeyArgs)
  /-- SET_KEY_GRANT (R419). -/
  | setKeyGrant (c : Caller) (body sig : List Byte)
  /-- GRANT_IN_FORCE (R420). -/
  | grantInForce (slot : Nat)
  /-- REMOVE_TENANT (R422). -/
  | removeTenant (c : Caller) (tenant : Nat)
  /-- QUERY_KEY_SLOT (R426). -/
  | queryKeySlot (c : Caller) (slot : Nat) (ttag : List Byte)
  /-- KEY_ZEROISE (R423). -/
  | keyZeroise (slot : Nat)
  /-- ZEROISE_TIMEOUT (R423). -/
  | zeroiseTimeout (slot : Nat)
  /-- TRAY_SCRUB_START (R424). -/
  | trayScrubStart (slot : Nat)
  /-- TRAY_SCRUB_END (R424). -/
  | trayScrubEnd (slot : Nat)
  /-- SCRUB_RETRY (R424). -/
  | scrubRetry (slot : Nat)
  /-- MAP_LSR (R430). -/
  | mapLsr (lport : Nat) (p : Packet)
  /-- LSR_AGE_OUT (R430). -/
  | lsrAgeOut (origin : Nat)
  /-- MAP_ACK (R434). -/
  | mapAck (lport : Nat) (p : Packet)
  /-- MAP_PREPARE (R437). -/
  | mapPrepare (lport : Nat) (p : Packet)
  /-- MAP_SNAPSHOT (R446). -/
  | mapSnapshot (lport : Nat) (p : Packet)
  /-- MAP_VOTE (R438). -/
  | mapVote (lport : Nat) (p : Packet)
  /-- MAP_COMMIT (R438). -/
  | mapCommit (lport : Nat) (p : Packet)
  /-- MAP_PULL (R433). -/
  | mapPull (lport : Nat) (p : Packet)
  /-- MAP_RESEND (R434). -/
  | mapResend (lport : Nat) (key : Nat)
  /-- HANDOFF_OFFER (R443). -/
  | handoffOffer (lport : Nat) (p : Packet)
  /-- HANDOFF_ACCEPT (R442). -/
  | handoffAccept (lport : Nat) (p : Packet)
  /-- HANDOFF_PROBE (R445). -/
  | handoffProbe (lport : Nat) (p : Packet)
  /-- HANDOFF_CLAIM (R445). -/
  | handoffClaim (lport : Nat) (p : Packet)
  /-- HANDOFF_PROBE_TIMER (R444). -/
  | handoffProbeTimer (tray : Nat)
  /-- HANDOFF_SETTLE_TIMEOUT (R445). -/
  | handoffSettleTimeout (tray : Nat)
  /-- PROPOSE_MAP (R436). -/
  | proposeMap (c : Caller) (a : ProposeMapArgs)
  /-- QUERY_MAP (R449). -/
  | queryMap (c : Caller) (what id : Nat)
  /-- SET_PORT_ROLE (R428). -/
  | setPortRole (c : Caller) (lport role : Nat)
  /-- DRAIN_MODULE (R448). -/
  | drainModule (c : Caller)
  /-- UNIT_FAILURE (R451). -/
  | unitFailure (u : FailedUnit) (cause : FailureCause)
  /-- ROD_SPARE_LOADED (R454). -/
  | rodSpareLoaded (index : Nat)
  /-- SWITCH_IN_COMPLETE (R452). -/
  | switchInComplete (die : Nat)
  /-- ERROR_RATE_WINDOW (R451). -/
  | errorRateWindow (k : ErrorUnit) (index corrected : Nat)
  /-- BANK_PAIR_COPY_END (R456). -/
  | bankPairCopyEnd (channel : Nat)
  /-- MACRO_COPY_END (R457). -/
  | macroCopyEnd (die macroIdx : Nat)
  /-- MEMORY_UNCORRECTABLE (R470). -/
  | memoryUncorrectable (w : ErrorPlace)
  /-- REGULATOR_PHASE_LOST (R458). -/
  | regulatorPhaseLost (rail phase : Nat)
  /-- RETIRE_UNIT (R462). -/
  | retireUnit (c : Caller) (uclass unit : Nat)
  /-- RUN_DRILL (R471). -/
  | runDrill (c : Caller) (a : DrillArgs)
  /-- ABORT_DRILL (R474). -/
  | abortDrill (c : Caller)
  /-- READ_EVENT_LOG (R462). -/
  | readEventLog (c : Caller) (fromSeq max : Nat)
  /-- READ_DRILL_LOG (R475). -/
  | readDrillLog (c : Caller) (fromIdx max : Nat)
  /-- SELF_TEST_END (R473). -/
  | selfTestEnd (kind : UnitKind) (index : Nat) (passed : Bool)
  /-- CORE_FAILURE (R26). -/
  | coreFailure (core : Nat)
  /-- UCIE_LINK_LOSS (R481). -/
  | ucieLinkLoss (module : Nat)
  /-- UCIE_RETRAIN_TIMEOUT (R481). -/
  | ucieRetrainTimeout (module : Nat)
  /-- UCIE_RETURN (R481). -/
  | ucieReturn (module : Nat)
  /-- MAILBOX_SLOT (R488). -/
  | mailboxSlot (m : MboxId) (sl : MboxSlot)
  /-- HOST_SLOT_STORE (R493). -/
  | hostSlotStore (lport : Nat) (p : Packet)
  /-- HOST_MAILBOX_DOORBELL (R493). -/
  | hostMailboxDoorbell (lport : Nat) (p : Packet)
  /-- MGMT_DATAGRAM (R496). -/
  | mgmtDatagram (d : Datagram)
  /-- RESPONSE_RESEND (R501). -/
  | responseResend (session : Nat)
  /-- SESSION_IDLE_TIMEOUT (R500). -/
  | sessionIdleTimeout (session : Nat)
  /-- MCTP_MESSAGE (R502). -/
  | mctpMessage (vendor endpoint : Nat) (sl : MboxSlot)
  /-- PLDM_REQUEST (R503). -/
  | pldmRequest (ptype cmd sensor : Nat)
  /-- GET_IDENTITY (R542). -/
  | getIdentity (c : Caller) (ttag : List Byte)
  /-- GET_STATUS (R542). -/
  | getStatus (c : Caller) (ttag : List Byte)
  /-- OPEN_SESSION (R498). -/
  | openSession (c : Caller) (a : OpenSessionArgs)
  /-- CLOSE_SESSION (R500). -/
  | closeSession (c : Caller)
  /-- SET_MANAGER_KEYS (R499). -/
  | setManagerKeys (c : Caller) (keys : List (List Byte))
  /-- BIND_HOST_MAILBOX (R484). -/
  | bindHostMailbox (c : Caller) (mbox lport : Nat)
  /-- STAGE_FIRMWARE (R509). -/
  | stageFirmware (c : Caller) (offset : Nat) (data : List Byte)
  /-- VERIFY_FIRMWARE (R509). -/
  | verifyFirmware (c : Caller) (length : Nat)
  /-- ACTIVATE_FIRMWARE (R510). -/
  | activateFirmware (c : Caller) (digest : List Byte)
  /-- QUERY_FIRMWARE (R505). -/
  | queryFirmware (c : Caller)
  /-- RETIRE_LANE (R72). -/
  | retireLane (c : Caller) (lane : Nat)
  /-- RETRAIN_LANE (R75). -/
  | retrainLane (c : Caller) (lane : Nat)
  /-- RELEASE_FLAP_HOLD (R78). -/
  | releaseFlapHold (c : Caller) (lport : Nat)
  /-- SET_PORT_JOBS (R121). -/
  | setPortJobs (c : Caller) (lport : Nat) (jobs : List Nat)
  /-- INSTALL_JOB (R136). -/
  | installJob (c : Caller) (a : InstallJobArgs)
  /-- REMOVE_JOB (R143). -/
  | removeJob (c : Caller) (job : Nat)
  /-- WRITE_TT_ENTRIES (R132). -/
  | writeTtEntries (c : Caller) (a : WriteTtArgs)
  /-- RESOLVE_FAULT (R141). -/
  | resolveFault (c : Caller) (a : ResolveFaultArgs)
  /-- IDENTITY (R533). -/
  | identity (lport : Nat) (p : Packet)
  /-- STATUS_QUERY (R533). -/
  | statusQuery (lport : Nat) (p : Packet)
  /-- SUPPLY_SAMPLE (R544). -/
  | supplySample (m : SupplySample)
  /-- SHED_LEVEL_ENTER (R519). -/
  | shedLevelEnter (level : Nat)
  /-- SHED_LEVEL_LEAVE (R526). -/
  | shedLevelLeave (level : Nat)
  /-- INPUT_OVERVOLTAGE (R515). -/
  | inputOvervoltage (vin : Nat)
  /-- INSERTION (R535). -/
  | insertion (contacts : InsertContacts)
  /-- MEMORY_DONE (R527). -/
  | memoryDone (failed : List (UnitKind × Nat))
  /-- HOLDUP_CHARGED (R517). -/
  | holdupCharged (capUf : Nat)
  /-- THERMAL_SAMPLE (R560). -/
  | thermalSample (temps : List (Nat × Int))
  /-- THERMAL_ACTION_RELEASE (R560). -/
  | thermalActionRelease (sensor : Nat)
  /-- THERMAL_TRIP (R561). -/
  | thermalTrip (sensor : Nat)
  /-- SENSOR_STALE (R544). -/
  | sensorStale (sensor : Nat)
  /-- UNREACHABLE_TRAY_PARK_TIMEOUT (R233). -/
  | unreachableTrayParkTimeout (quarter src msg : Nat)
  /-- WINDOW_LOST_REVOKE_HOLD (R470). -/
  | windowLostRevokeHold (index : Nat)
  /-- ENTDAA (R502). -/
  | entdaa (address : Nat)
  /-- TRAINING_START_GRANT (R57). -/
  | trainingStartGrant
  /-- DRBG_RESEED (R158). -/
  | drbgReseed
  /-- FLUSH_END (R223). -/
  | flushEnd
  /-- ATTESTATION_SIGNED (R414). -/
  | attestationSigned
  /-- AK_CERTIFIED (R405). -/
  | akCertified
  /-- LSR_ORIGINATE (R430). -/
  | lsrOriginate
  /-- LSR_REFRESH (R430). -/
  | lsrRefresh
  /-- VOTE_TIMEOUT (R438). -/
  | voteTimeout
  /-- STAGED_VERDICT_TIMEOUT (R439). -/
  | stagedVerdictTimeout
  /-- GRACE_END (R438). -/
  | graceEnd
  /-- DRAIN_FINAL_WAIT (R448). -/
  | drainFinalWait
  /-- DRILL_INJECT_END (R471). -/
  | drillInjectEnd
  /-- DRILL_LANE_RESTORE (R471). -/
  | drillLaneRestore
  /-- WATCHDOG_RESTART (R460). -/
  | watchdogRestart
  /-- DVORRO_RESTART_END (R512). -/
  | dvorroRestartEnd
  /-- ACTIVATION_WINDOW_END (R510). -/
  | activationWindowEnd
  /-- FLASH_WRITE_START (R511). -/
  | flashWriteStart
  /-- FLASH_WRITE_END (R511). -/
  | flashWriteEnd
  /-- FIRMWARE_FALLBACK (R511). -/
  | firmwareFallback
  /-- HOLDUP_TIMER_EXPIRY (R523). -/
  | holdupTimerExpiry
  /-- LOG_SAVE_END (R524). -/
  | logSaveEnd
  /-- L4_RECOVERY (R524). -/
  | l4Recovery
  /-- RESET_ASSERT (R534). -/
  | resetAssert
  /-- RESET_RELEASE (R534). -/
  | resetRelease
  /-- SENSE_LOSS (R536). -/
  | senseLoss
  /-- BRINGUP_START (R527). -/
  | bringupStart
  /-- RAILS_DONE (R516). -/
  | railsDone
  /-- PORT_PLAN_RESTORE (R528). -/
  | portPlanRestore
  /-- ROM_DONE (R527). -/
  | romDone
  /-- IMAGE_VERIFIED (R513). -/
  | imageVerified
  /-- LINKS_PHASE_START (R527). -/
  | linksPhaseStart
  /-- LINKS_DONE (R527). -/
  | linksDone
  /-- MAP_PHASE_START (R529). -/
  | mapPhaseStart
  /-- MAP_PHASE_TIMEOUT (R529). -/
  | mapPhaseTimeout
  /-- MODULE_READY (R530). -/
  | moduleReady
  /-- PORT_PLAN_SAVE (R528). -/
  | portPlanSave
  deriving DecidableEq, Repr

end Sys2Proof
end

