-- ==== Sys2Proof/Machine/Bytes.lean ====
section
/-! DEFINITION. Bit fields, byte order, tables, the two CRCs and the serial form of packets and flits.
Everything here is plain computation on data: no state of the module. -/

namespace Sys2Proof.Machine

/-- The field [hi:lo] of a value (R4). -/
def bits (v hi lo : Nat) : Nat := (v >>> lo) % 2 ^ (hi + 1 - lo)

/-- Bit `i` of a value. -/
def bit (v i : Nat) : Bool := v.testBit i

/-- 1 for true, 0 for false: a flag as the bit it is stored in. -/
def flag (b : Bool) : Nat := if b then 1 else 0

/-- The value with its field [lo + width - 1 : lo] replaced. -/
def setBits (v lo width x : Nat) : Nat :=
  v - ((v >>> lo) % 2 ^ width) <<< lo + (x % 2 ^ width) <<< lo

/-- The `n` little-endian bytes of a value (R3). -/
def le : Nat → Nat → List Byte
  | 0, _ => []
  | n + 1, v => BitVec.ofNat 8 v :: le n (v / 256)

/-- The value of little-endian bytes (R3). -/
def unle : List Byte → Nat
  | [] => 0
  | b :: bs => b.toNat + 256 * unle bs

/-- The little-endian field of `n` bytes at a byte offset of a structure; bytes beyond its end read as zero. -/
def field (bs : List Byte) (off n : Nat) : Nat := unle ((bs.drop off).take n)

/-- `n` zero bytes. -/
def zeros (n : Nat) : List Byte := List.replicate n 0

/-- Bytes cut or filled with zeros to exactly `n`. -/
def padTo (n : Nat) (bs : List Byte) : List Byte := bs.take n ++ zeros (n - bs.length)

/-- `bs` with the bytes from `off` replaced by `new`, the length unchanged. -/
def splice (bs : List Byte) (off : Nat) (new : List Byte) : List Byte :=
  (bs.take off ++ new ++ bs.drop (off + new.length)).take bs.length

/-- A value read as a signed number of `w` bits. -/
def toSigned (w v : Nat) : Int :=
  if v % 2 ^ w < 2 ^ (w - 1) then (v % 2 ^ w : Nat) else (v % 2 ^ w : Nat) - (2 ^ w : Nat)

/-- A signed number as the `w` bits that hold it, wrapping modulo 2^w (R15). -/
def ofSigned (w : Nat) (x : Int) : Nat := (x % (2 ^ w : Nat)).toNat

/-- The quotient rounded up. -/
def ceilDiv (a b : Nat) : Nat := (a + b - 1) / b

/-- `v` held between `lo` and `hi`. -/
def clamp (lo hi v : Nat) : Nat := max lo (min hi v)

/-- The distance from `b` to `a` around a circle of `2^w` values. -/
def gap (w a b : Nat) : Nat := (a % 2 ^ w + 2 ^ w - b % 2 ^ w) % 2 ^ w

/-! ### Tables -/

section Tables
variable {κ α : Type} [DecidableEq κ]

/-- The entry of a key. -/
def tget (t : Table κ α) (k : κ) : Option α :=
  match t with
  | [] => none
  | (k', a) :: r => if k' = k then some a else tget r k

/-- The entry of a key, or the value an unlisted key has. -/
def tgetD (t : Table κ α) (k : κ) (d : α) : α := (tget t k).getD d

/-- Whether the key is listed. -/
def thas (t : Table κ α) (k : κ) : Bool := (tget t k).isSome

/-- The table with the entry of a key written. -/
def tset (t : Table κ α) (k : κ) (a : α) : Table κ α :=
  match t with
  | [] => [(k, a)]
  | (k', b) :: r => if k' = k then (k, a) :: r else (k', b) :: tset r k a

/-- The table without the entry of a key. -/
def tdel (t : Table κ α) (k : κ) : Table κ α := t.filter fun e => e.1 ≠ k

/-- The table with the entry of a key changed where it is listed. -/
def tmod (t : Table κ α) (k : κ) (f : α → α) : Table κ α :=
  t.map fun e => if e.1 = k then (e.1, f e.2) else e

/-- The table with the entry of a key changed, an unlisted entry starting from `d`. -/
def tupd (t : Table κ α) (k : κ) (d : α) (f : α → α) : Table κ α := tset t k (f (tgetD t k d))

end Tables

/-- The list with `a` inserted in ascending order, without a repeat. -/
def insertAsc (a : Nat) : List Nat → List Nat
  | [] => [a]
  | b :: r => if a < b then a :: b :: r else if a = b then b :: r else b :: insertAsc a r

/-- The list sorted in ascending order, repeats dropped. -/
def sortAsc (l : List Nat) : List Nat := l.foldr insertAsc []

/-- Stable insertion by a key, in ascending order of the key. -/
def insertBy {α : Type} (key : α → Nat) (a : α) : List α → List α
  | [] => [a]
  | b :: r => if key a < key b then a :: b :: r else b :: insertBy key a r

/-- A list sorted by a key, ascending and stable. -/
def sortBy {α : Type} (key : α → Nat) (l : List α) : List α := l.foldl (fun acc a => insertBy key a acc) []

/-- The list cut into pieces of `n`; `fuel` bounds the number of pieces. -/
def chunks {α : Type} (n : Nat) : Nat → List α → List (List α)
  | 0, _ => []
  | _, [] => []
  | fuel + 1, l => l.take n :: chunks n fuel (l.drop n)

/-! ### CRCs -/

/-- One bit of a reflected 32-bit CRC. -/
def crcBit (poly c : Nat) : Nat := if c % 2 = 1 then (c >>> 1) ^^^ poly else c >>> 1

/-- One byte of a reflected 32-bit CRC. -/
def crcByte (poly c : Nat) (b : Byte) : Nat :=
  let f := crcBit poly
  f (f (f (f (f (f (f (f (c ^^^ b.toNat))))))))

/-- A reflected CRC with initial value and final XOR of all ones. -/
def crcOf (poly : Nat) (bs : List Byte) : Nat := bs.foldl (crcByte poly) 0xFFFFFFFF ^^^ 0xFFFFFFFF

/-- CRC-32C (R86): polynomial 0x1EDC_6F41, reflected 0x82F6_3B78. -/
def crc32c (bs : List Byte) : Nat := crcOf 0x82F63B78 bs

/-- The link CRC (R61): CRC-32 of IEEE 802.3, polynomial 0x04C1_1DB7, reflected 0xEDB8_8320. -/
def crc32 (bs : List Byte) : Nat := crcOf 0xEDB88320 bs

/-! ### Packets -/

/-- FLAGS bits of Table 4-2. -/
def fEXT : Nat := 0
def fORDERED : Nat := 1
def fFHEAD : Nat := 2
def fCOMBINABLE : Nat := 3
def fPOSTED : Nat := 4
def fRACK : Nat := 5
def fRETX : Nat := 6
def fCE : Nat := 7
def fCLRPSN : Nat := 8
def fLAST : Nat := 9

/-- Whether a packet has a flag of Table 4-2 set. -/
def hasFlag (p : Packet) (i : Nat) : Bool := p.flags.testBit i

/-- A packet with a flag set. -/
def withFlag (p : Packet) (i : Nat) : Packet := { p with flags := p.flags ||| 2 ^ i }

/-- LEN: the payload bytes of a packet. -/
def lenOf (p : Packet) : Nat := p.payload.length

/-- The 48 header bytes of Table 4-1. -/
def headerBytes (p : Packet) : List Byte :=
  le 1 (p.ver % 16 + p.tc % 8 * 16 + p.rsv % 2 * 128) ++ le 1 p.op ++ le 2 p.flags ++ le 2 p.dst ++ le 2 p.src
    ++ le 2 p.job ++ le 1 p.epoch ++ le 1 (p.rsv >>> 1) ++ le 2 p.flow ++ le 2 p.fseq
    ++ le 3 p.msg ++ le 1 (p.rsv >>> 9) ++ le 3 (p.pidx % 4096 + p.pcnt % 4096 * 4096) ++ le 1 (p.rsv >>> 17)
    ++ le 2 (lenOf p % 8192 + (p.rsv >>> 25) % 8 * 8192) ++ le 2 p.status ++ le 4 p.oparg ++ le 8 p.addr ++ le 8 p.cap

/-- The bytes of a packet that the trailer covers (R83). -/
def bodyBytes (p : Packet) : List Byte := headerBytes p ++ p.ext ++ p.payload

/-- The trailer a source computes: CRC-32C of header, extension and payload, with CE taken as 0 (R86). -/
def packetCrc (p : Packet) : Nat :=
  crc32c (bodyBytes { p with flags := p.flags - (p.flags &&& 128) })

/-- The packet with the trailer its source computes. -/
def sealPacket (p : Packet) : Packet := { p with crc := packetCrc p }

/-- The bytes of a packet on the wire (R83). -/
def packetBytes (p : Packet) : List Byte := bodyBytes p ++ le 4 p.crc

/-- The wire length of a packet: header, extension, payload and trailer. -/
def packetSize (p : Packet) : Nat := 52 + p.ext.length + p.payload.length

/-- The packet that wire bytes hold. -/
def parsePacket (bs : List Byte) : Packet :=
  let w0 := field bs 0 2
  let fl := field bs 2 2
  let x := if fl.testBit 0 then 16 else 0
  let len := field bs 0x18 2 % 8192
  { ver := w0 % 16, tc := bits w0 6 4, op := bits w0 15 8, flags := fl, dst := field bs 4 2, src := field bs 6 2,
    job := field bs 8 2, epoch := field bs 0xA 1, flow := field bs 0xC 2, fseq := field bs 0xE 2, msg := field bs 0x10 3,
    pidx := field bs 0x14 3 % 4096, pcnt := field bs 0x14 3 / 4096, status := field bs 0x1A 2, oparg := field bs 0x1C 4,
    addr := field bs 0x20 8, cap := field bs 0x28 8,
    rsv := bits w0 7 7 + field bs 0xB 1 * 2 + field bs 0x13 1 * 2 ^ 9 + field bs 0x17 1 * 2 ^ 17 + field bs 0x18 2 / 8192 * 2 ^ 25,
    ext := (bs.drop 48).take x, payload := (bs.drop (48 + x)).take len, crc := field bs (48 + x + len) 4 }

/-- The wire length that a packet's first 48 bytes announce. -/
def announcedSize (bs : List Byte) : Nat :=
  52 + (if (field bs 2 2).testBit 0 then 16 else 0) + field bs 0x18 2 % 8192

/-! ### Flits -/

/-- The 252 bytes of a flit that its link CRC covers (Table 3-4). -/
def flitBody (f : Flit) : List Byte :=
  le 4 (f.fkind % 4 + flag f.flossy * 4 + flag f.lnak * 8 + f.lseq % 4096 * 16 + f.lack % 4096 * 2 ^ 16)
    ++ le 4 (f.fpo % 256 + f.pend % 256 * 256)
    ++ le 4 (f.cselA % 4 + f.ccumA % 4096 * 4 + f.cselB % 4 * 2 ^ 14 + f.ccumB % 4096 * 2 ^ 16 + f.txlane % 8 * 2 ^ 28)
    ++ padTo 240 f.payload

/-- The flit with the link CRC its sender computes (R61). -/
def sealFlit (f : Flit) : Flit := { f with payload := padTo 240 f.payload, lcrc := crc32 (flitBody f) }

/-- The 32 bytes of a HELLO message (Table 3-11). -/
def helloBytes (h : Hello) : List Byte :=
  le 1 1 ++ le 1 h.helloVer ++ le 2 h.node ++ le 2 h.lport ++ le 1 h.width ++ le 1 h.lane ++ le 2 h.credTc0 ++ le 2 h.credTc1
    ++ le 2 h.credTc2 ++ le 2 h.credTc5 ++ le 2 h.replayDepth ++ le 1 (flag h.ready) ++ zeros 13

/-- The HELLO message that bytes hold (Table 3-11); `rsv` gathers what is reserved, and a CTYPE other than 1 or a length other than 32. -/
def readHello (d : List Byte) : Hello :=
  { helloVer := field d 1 1, node := field d 2 2, lport := field d 4 2, width := field d 6 1, lane := field d 7 1
    credTc0 := field d 8 2, credTc1 := field d 10 2, credTc2 := field d 12 2, credTc5 := field d 14 2, replayDepth := field d 16 2
    ready := bit (field d 18 1) 0
    rsv := field d 18 1 / 2 + field d 19 13 + (if field d 0 1 = 1 ∧ d.length = 32 then 0 else 1) }

end Sys2Proof.Machine
end

