-- ==== Sys2Proof/Machine/Arith.lean ====
section
/-! DEFINITION. Arithmetic on numbers: the formats of Tables 9-4 and 9-7, their exact values, rounding (R257), IEEE addition (R124, R259), comparison (R258), expansion of MX blocks (R247), and the atomic operations of Table 5-3. -/

namespace Sys2Proof.Machine

/-! ### Formats -/

/-- A binary floating-point format: exponent bits, fraction bits, bias, whether the all-ones exponent holds infinities and NaNs as IEEE 754 has them, and whether the all-ones code alone is NaN (E4M3). -/
structure FloatFmt where
  ebits : Nat
  mbits : Nat
  bias : Nat
  ieee : Bool := true
  onesNan : Bool := false
  deriving DecidableEq, Repr

def fFP16 : FloatFmt := { ebits := 5, mbits := 10, bias := 15 }
def fBF16 : FloatFmt := { ebits := 8, mbits := 7, bias := 127 }
def fFP32 : FloatFmt := { ebits := 8, mbits := 23, bias := 127 }
def fFP64 : FloatFmt := { ebits := 11, mbits := 52, bias := 1023 }
def fE4M3 : FloatFmt := { ebits := 4, mbits := 3, bias := 7, ieee := false, onesNan := true }
def fE5M2 : FloatFmt := { ebits := 5, mbits := 2, bias := 15 }
def fE3M2 : FloatFmt := { ebits := 3, mbits := 2, bias := 3, ieee := false }
def fE2M3 : FloatFmt := { ebits := 2, mbits := 3, bias := 1, ieee := false }
def fE2M1 : FloatFmt := { ebits := 2, mbits := 1, bias := 1, ieee := false }

/-- The width of a format. -/
def fmtWidth (f : FloatFmt) : Nat := 1 + f.ebits + f.mbits

/-- An exact value: NaN, an infinity, or the signed number ±m × 2^e; `neg` is the sign, of a zero too. -/
inductive Num where
  | nan
  | inf (neg : Bool)
  | fin (neg : Bool) (m : Nat) (e : Int)
  deriving DecidableEq, Repr

/-- The exact value of a bit pattern. -/
def decodeFloat (f : FloatFmt) (v : Nat) : Num :=
  let frac := v % 2 ^ f.mbits
  let ex := v / 2 ^ f.mbits % 2 ^ f.ebits
  let neg := bit v (f.ebits + f.mbits)
  if f.ieee ∧ ex = 2 ^ f.ebits - 1 then (if frac = 0 then .inf neg else .nan)
  else if f.onesNan ∧ ex = 2 ^ f.ebits - 1 ∧ frac = 2 ^ f.mbits - 1 then .nan
  else if ex = 0 then .fin neg frac (1 - (f.bias : Int) - (f.mbits : Int))
  else .fin neg (frac + 2 ^ f.mbits) ((ex : Int) - (f.bias : Int) - (f.mbits : Int))

/-- The canonical quiet NaN of a format (Table 9-7). -/
def canonNan (f : FloatFmt) : Nat :=
  if f.onesNan then 2 ^ (f.ebits + f.mbits) - 1
  else (2 ^ f.ebits - 1) * 2 ^ f.mbits + 2 ^ (f.mbits - 1)

/-- The sign bit in place. -/
def signBit (f : FloatFmt) (neg : Bool) : Nat := flag neg * 2 ^ (f.ebits + f.mbits)

/-- Zero and infinity of a sign. -/
def encodeZero (f : FloatFmt) (neg : Bool) : Nat := signBit f neg
def encodeInf (f : FloatFmt) (neg : Bool) : Nat := signBit f neg + (2 ^ f.ebits - 1) * 2 ^ f.mbits

/-- The pattern of the greatest finite value, without its sign. -/
def maxPattern (f : FloatFmt) : Nat :=
  if f.onesNan then 2 ^ (f.ebits + f.mbits) - 2
  else if f.ieee then (2 ^ f.ebits - 1) * 2 ^ f.mbits - 1
  else 2 ^ (f.ebits + f.mbits) - 1

/-- The least normal exponent. -/
def emin (f : FloatFmt) : Int := 1 - (f.bias : Int)

/-- What an overflow gives (R257): the greatest value toward zero or saturated, NaN in E4M3, else an infinity. -/
def overflowTo (f : FloatFmt) (rz sat neg : Bool) : Nat :=
  if rz || (f.onesNan && sat) then signBit f neg + maxPattern f
  else if f.onesNan then canonNan f else encodeInf f neg

/-- ±(m + a fraction below 1 when `sticky`) × 2^e rounded into a format, to nearest even or toward zero (R257). -/
def roundFloat (f : FloatFmt) (rz sat neg : Bool) (m : Nat) (e : Int) (sticky : Bool) : Nat :=
  if m = 0 && !sticky then encodeZero f neg
  else
    let m2 := 4 * m + flag sticky
    let e2 := e - 2
    let h : Int := (Nat.log2 m2 : Int) + e2
    let q : Int := max h (emin f) - (f.mbits : Int)
    let k := (q - e2).toNat
    let n0 := if e2 ≤ q then m2 >>> k else m2 <<< (e2 - q).toNat
    let r := if e2 ≤ q then m2 % 2 ^ k else 0
    let up := !rz && (decide (2 ^ k < 2 * r) || (decide (2 * r = 2 ^ k) && decide (n0 % 2 = 1)))
    let n := if up then n0 + 1 else n0
    -- the pattern of n × 2^q: a carry into the next binade follows from the layout
    let ex := (q + (f.mbits : Int) - emin f).toNat
    let pat := ex * 2 ^ f.mbits + n
    if maxPattern f < pat then overflowTo f rz sat neg else signBit f neg + pat

/-- A value rounded into a format. -/
def encodeNum (f : FloatFmt) (rz sat : Bool) (x : Num) : Nat :=
  match x with
  | .nan => canonNan f
  | .inf neg => if f.onesNan then canonNan f else encodeInf f neg
  | .fin neg m e => roundFloat f rz sat neg m e false

/-- The signed integer that ±m × 2^e is, in units of 2^u, for e ≥ u. -/
def scaled (neg : Bool) (m : Nat) (e u : Int) : Int :=
  let v : Int := (m <<< (e - u).toNat : Nat)
  if neg then -v else v

/-- The exact sum of two values, with the IEEE signs of zero. -/
def addNum (a b : Num) : Num :=
  match a, b with
  | .nan, _ | _, .nan => .nan
  | .inf x, .inf y => if x = y then .inf x else .nan
  | .inf x, _ => .inf x
  | _, .inf y => .inf y
  | .fin n1 m1 e1, .fin n2 m2 e2 =>
    let u := min e1 e2
    let t := scaled n1 m1 e1 u + scaled n2 m2 e2 u
    if t = 0 then .fin (n1 && n2) 0 u
    else .fin (decide (t < 0)) t.natAbs u

/-- The exact product of two values. -/
def mulNum (a b : Num) : Num :=
  match a, b with
  | .nan, _ | _, .nan => .nan
  | .inf x, .inf y => .inf (x != y)
  | .inf x, .fin y m _ => if m = 0 then .nan else .inf (x != y)
  | .fin x m _, .inf y => if m = 0 then .nan else .inf (x != y)
  | .fin x m1 e1, .fin y m2 e2 => .fin (x != y) (m1 * m2) (e1 + e2)

/-- IEEE addition in a format. -/
def addFloat (f : FloatFmt) (rz : Bool) (a b : Nat) : Nat := encodeNum f rz false (addNum (decodeFloat f a) (decodeFloat f b))

/-- A key that orders the values of a format, −0 below +0 (R258): the pattern with its sign turned into an order. -/
def orderKey (f : FloatFmt) (v : Nat) : Int :=
  let m := v % 2 ^ (f.ebits + f.mbits)
  if bit v (f.ebits + f.mbits) then -(m : Int) - 1 else m

/-- Whether a pattern is a NaN. -/
def isNanIn (f : FloatFmt) (v : Nat) : Bool := decodeFloat f v = .nan

/-! ### The input formats of Table 9-4 -/

/-- The element width in bits; 0 for a code that is not listed. -/
def inWidth (fmt : Nat) : Nat :=
  [8, 16, 32, 64, 8, 16, 32, 64, 16, 16, 32, 64, 8, 8, 8, 8, 6, 6, 4, 8].getD fmt 0

/-- An integer format, and its signedness. -/
def isIntFmt (fmt : Nat) : Bool := fmt < 8
def isSignedFmt (fmt : Nat) : Bool := 4 ≤ fmt && fmt < 8
def isMxFmt (fmt : Nat) : Bool := 14 ≤ fmt && fmt ≤ 19

/-- The float format of an element. -/
def floatFmt (fmt : Nat) : FloatFmt :=
  match fmt with
  | 8 => fFP16
  | 9 => fBF16
  | 10 => fFP32
  | 11 => fFP64
  | 12 | 14 => fE4M3
  | 13 | 15 => fE5M2
  | 16 => fE3M2
  | 17 => fE2M3
  | _ => fE2M1

/-- The element bytes of a format that is not MX. -/
def inBytes (fmt : Nat) : Nat := inWidth fmt / 8

/-- The slice bytes of a full slice (Table 9-4). -/
def sliceBytes (fmt : Nat) : Nat := if isMxFmt fmt then 1 + 4 * inWidth fmt else 32 * inBytes fmt

/-- An infinity where a finite magnitude reaches 2^128 (R247). -/
def capInf (x : Num) : Num :=
  match x with
  | .fin neg m e => if m ≠ 0 ∧ 128 ≤ (Nat.log2 m : Int) + e then .inf neg else x
  | y => y

/-- Element `i` of an MX block (R247). -/
def mxElem (fmt : Nat) (blk : List Byte) (i : Nat) : Num :=
  let x := field blk 0 1
  let w := inWidth fmt
  let v := unle (blk.drop 1) / 2 ^ (w * i) % 2 ^ w
  if x = 255 then .nan
  else
    let raw : Num :=
      if fmt = 19 then (let t := toSigned 8 v; .fin (decide (t < 0)) t.natAbs (-6)) else decodeFloat (floatFmt fmt) v
    match raw with
    | .fin neg m e => capInf (.fin neg m (e + (x : Int) - 127))
    | y => y

/-- The exact values of the elements of a slice of `n` elements. -/
def sliceNums (fmt n : Nat) (d : List Byte) : List Num :=
  (List.range n).map fun i =>
    if isMxFmt fmt then mxElem fmt d i else decodeFloat (floatFmt fmt) (field d (inBytes fmt * i) (inBytes fmt))

/-! ### Atomic operations (Table 5-3) -/

/-- The new value of a word of `w` bits; none for an AOP that is refused. -/
def atomicResult (aop w old a swap : Nat) : Option Nat :=
  let x := old % 2 ^ w
  let y := a % 2 ^ w
  match aop with
  | 0 => some ((x + y) % 2 ^ w)
  | 1 => some y
  | 2 => some (if x = y then swap % 2 ^ w else x)
  | 3 => some (min x y)
  | 4 => some (max x y)
  | 5 => some (if toSigned w y < toSigned w x then y else x)
  | 6 => some (if toSigned w x < toSigned w y then y else x)
  | 7 => some (x &&& y)
  | 8 => some (x ||| y)
  | 9 => some (x ^^^ y)
  | 10 => some (addFloat (if w = 32 then fFP32 else fFP64) false x y)
  | _ => none

end Sys2Proof.Machine
end

