-- ==== Sys2Proof/Machine/State.lean ====
section
/-! DEFINITION. The state of the module, as plain data, one structure per block of the spec, and the state right after reset.
A table field lists only the entries that differ from the value its docstring gives an unlisted key. -/

namespace Sys2Proof.Machine

/-- Why the machine stops with a fault.
No rule of the spec stops the module: every refusal is an answer it sends.
The one stop is the model's own. -/
inductive Fault where
  /-- Raised by no meaning: the spec gives every command of the table an effect.
  It exists so that a repair may name a stop; safe. -/
  | unreachable
  deriving DecidableEq, Repr

/-- Why the model answers a command with no meaning. -/
inductive Refusal where
  /-- Raised by the dispatch for a command the model gives no meaning yet; safe. -/
  | notModelled (mnemonic : String)
  deriving DecidableEq, Repr

/-- What a command answers. -/
abbrev Out := Host.Outcome

/-! ### Counters (Table 19-8, Table 19-9) -/

/-- The 64-bit counters and gauges of the TEL block, each with its index within its scope. -/
inductive Ctr where
  /-- A per-quarter value: the offset of Table 19-8 within the quarter's group. -/
  | quarter (n off : Nat)
  /-- A per-module value: the offset within 0x0030_4000. -/
  | module (off : Nat)
  /-- A per-rod value. -/
  | rod (n j : Nat)
  /-- A per-logical-port value. -/
  | lport (q j : Nat)
  /-- A per-lane value. -/
  | lane (n j : Nat)
  deriving DecidableEq, Repr

/-! ### Event records (R463) -/

/-- A 64-byte event record (Table 16-4); `tail` is bytes 0x28 to 0x3F. -/
structure EventRec where
  etype : Nat
  sev : Nat
  drill : Bool := false
  uclass : Nat := 0
  rep : Nat := 0
  node : Nat := 0xFFFF
  unit : Nat := 0
  time : Nat := 0
  seq : Nat := 0
  status : Nat := 0
  drillId : Nat := 0
  arg0 : Nat := 0
  arg1 : Nat := 0
  tail : List Byte := []
  deriving DecidableEq, Repr

/-- The event log (R467, R468): the ring, its sequence, the last record's time and the suppressed count of each (type, class, unit),
the records waiting while Dvorro is absent, and the FAILED and FATAL records not yet read that assert ALERT_N. -/
structure EventLog where
  ring : List EventRec := []
  seq : Nat := 0
  last : Table (Nat × Nat × Nat) (Ns × Nat) := []
  waiting : List EventRec := []
  lost : Nat := 0
  firstLost : Nat := 0
  alert : List Nat := []
  /-- PLDM platform event messages sent to the baseboard (R467), oldest first. -/
  pldm : List EventRec := []
  deriving DecidableEq, Repr

/-! ### The self-timed core (chapter 02) -/

/-- One die's governor: the regulator's setpoint, the target, the last step, the canary raise and its end, and the admitted rate in force of each of the die's ports (R42 to R46). -/
structure Die where
  voltSet : Nat := 750
  target : Nat := 750
  lastStep : Ns := 0
  lastEval : Ns := 0
  canaryRaise : Nat := 0
  canaryUntil : Ns := 0
  canaryHold : Bool := false
  deriving DecidableEq, Repr

/-- The input queue of one direction of a beam link (R21): the bytes in it at a time; it drains at the link's 1.2 TB/s. -/
structure Beam where
  bytes : Nat := 0
  at_ : Ns := 0
  deriving DecidableEq, Repr

/-- The kinds of dock of Table 2-4. -/
inductive DockKind where
  | pcsIn | pcsOut | phyRead | phyWrite | bead | ucieDown | ucieUp
  deriving DecidableEq, Repr

/-- The groups of units that count handshakes, in the order of Table 19-9. -/
inductive HsGroup where
  | rod | carry | sieve | mover | dir
  deriving DecidableEq, Repr

/-- The handshakes of one unit (R49): its 64-bit count, and those of the last 1,000 µs, newest first: when, how many, and whether on the egress side of a rod. -/
structure Handshakes where
  count : Nat := 0
  recent : List (Ns × Nat × Bool) := []
  deriving DecidableEq, Repr

/-- The parts between the quarters and the clocked domains: the input queues of the directed beam links, by the quarters they join; the words each dock holds, by its kind and number; and the handshakes of each unit. -/
structure Deck where
  beams : Table (Nat × Nat) Beam := []
  docks : Table (DockKind × Nat) Nat := []
  hs : Table (HsGroup × Nat) Handshakes := []
  deriving DecidableEq, Repr

/-! ### Lanes and links (chapter 03) -/

/-- The states of a logical port (Table 3-3). -/
inductive PortState where
  | disabled | waitAdmit | training | lock | hello | up | down | held
  deriving DecidableEq, Repr

/-- What a lane of the module has reached: training, lock and HELLO of its port or of its own retrain (R56, R75). -/
inductive LanePhase where
  | idle | waiting | training | locking | hello
  deriving DecidableEq, Repr

/-- One lane: its HELLO, its error windows and, while retired, its way back. -/
structure Lane where
  active : Bool := false
  retired : Bool := false
  reason : Nat := 0
  ready : Bool := false
  locked : Bool := false
  precode : Bool := false
  hello : Option Hello := none
  /-- Times of the uncorrectable codewords of the last second (R72). -/
  uncorr : List Ns := []
  /-- The place of the next flit within two codewords, 0 to 4, and which of the two are known to be uncorrectable (R53). -/
  place : Nat := 0
  badFirst : Bool := false
  badSecond : Bool := false
  retrain : LanePhase := .idle
  /-- When it last sent a HELLO flit (R58). -/
  lastHello : Ns := 0
  /-- When its own retrain entered its present phase (R75). -/
  since : Ns := 0
  deriving DecidableEq, Repr

/-- One packet stream of a link on its way in (R63): the bytes gathered of the packet arriving, and the packets that have arrived whole, each with the time its first byte entered the ingress dock (R99). -/
structure Stream where
  part : List Byte := []
  partAt : Ns := 0
  packets : List (Ns × List Byte) := []
  deriving DecidableEq, Repr

/-- The colour of a packet inside the module (R381). -/
inductive Colour where
  | green | yellow | red
  deriving DecidableEq, Repr

/-- A packet in an output queue: the packet, when it entered the switch, its colour and its ingress logical port (`none` for the module's own). -/
structure QPkt where
  pkt : Packet
  at_ : Ns
  colour : Colour := .green
  ingress : Option Nat := none
  /-- The credits of its reception have been returned (R66, R77). -/
  freed : Bool := false
  /-- This module set CE on it (R382). -/
  marked : Bool := false
  deriving DecidableEq, Repr

/-- One packet stream of a link on its way out: what is left of the packet being sent, and the packets chosen to follow, each with its output queue. -/
structure TxStream where
  part : List Byte := []
  queued : List (Nat × QPkt) := []
  deriving DecidableEq, Repr

/-- One logical port (R56 to R79). -/
structure LPort where
  state : PortState := .disabled
  since : Ns := 0
  precodeOn : Bool := false
  reason : Nat := 0
  partnerNode : Nat := 0xFFFF
  partnerLport : Nat := 0
  partnerWidth : Nat := 0
  partnerReady : Bool := false
  /-- Back-off in ms and the DOWN times of the last 60 s (R78). -/
  backoff : Nat := 1
  downTimes : List Ns := []
  departed : Bool := false
  /-- The LINK_DOWN of an orderly disable was sent then (R79). -/
  draining : Option Ns := none
  /-- PORT_CFG and PORT_ADMIT_RATE as they stood when the packet now being sent began, where a LIVE field was written since (R9, R13). -/
  oldCfg : Option Word := none
  oldRate : Option Word := none
  /-- Sender: next LSEQ, unacknowledged flits, flits to send again, control messages waiting, last LACK, its time, replays without progress, last LNAK answered. -/
  txSeq : Nat := 0
  replay : List Flit := []
  resend : List Flit := []
  ctl : List (List Byte) := []
  lackIn : Nat := 4095
  lackAt : Ns := 0
  replays : Nat := 0
  nakDone : Option Nat := none
  /-- Receiver: next LSEQ, LNAK set, flits held ahead of a missing one, with whether the ingress dock was full as each arrived, and since when the missing one is awaited. -/
  rxSeq : Nat := 0
  lnak : Bool := false
  ahead : List (Flit × Bool) := []
  aheadAt : Ns := 0
  /-- Credits of TC0, TC1, TC2, TC5 the module holds, the partner's last cumulative counts, and the module's own counts returned. -/
  credits : List Nat := [0, 0, 0, 0]
  ccumIn : List Nat := [0, 0, 0, 0]
  ccumOut : List Nat := [0, 0, 0, 0]
  txLossless : TxStream := {}
  txLossy : TxStream := {}
  rxLossless : Stream := {}
  rxLossy : Stream := {}
  /-- After a discarded lossy flit, the stream waits for an FPO (R64). -/
  lossySkip : Bool := false
  /-- The lanes that the module's own LANE_RETIRE flits have named (R73). -/
  retireSent : Nat := 0
  /-- Retirements, by mask and reason, that wait for the end of a rod pause (R455). -/
  retireLater : List (Nat × Nat) := []
  deriving DecidableEq, Repr

/-- Training starts waiting (R57): a whole port, or one lane's retrain. `late` marks a port that rejoined at the end. -/
structure StartReq where
  lport : Nat
  lane : Option Nat := none
  late : Bool := false
  deriving DecidableEq, Repr

/-- The lanes and links block; an unlisted port is as LPort's defaults and an unlisted lane as Lane's. -/
structure Links where
  ports : Table Nat LPort := []
  lanes : Table Nat Lane := []
  /-- The flit each lane sent last (log entry 4). -/
  lastTx : Table Nat Flit := []
  starts : List StartReq := []
  lastStart : Option Ns := none
  /-- Phase LINKS has begun (R527). -/
  open_ : Bool := false
  deriving DecidableEq, Repr

/-- Why the module itself sent a message, and so what its completion does. -/
inductive Purpose where
  /-- A tray fill of `n` lines from a pool line (R217, R218): the data, and the metadata words of protected lines (R409). -/
  | fill (line n : Nat)
  | fillTag (line n : Nat)
  /-- A DIRTY_MARK of lines of one 64 KiB tray page (R220). -/
  | mark (page : Nat) (lines : List Nat)
  /-- A write-back of a line, its data or its tag (R221). -/
  | writeBack (line : Nat)
  | writeBackTag (line : Nat)
  /-- POISON_LINES for a poisoned line given up (R236). -/
  | poisonLines (line : Nat)
  /-- The fault record of R137. -/
  | faultRecord (job fid : Nat)
  /-- An event record of a window (R169). -/
  | windowEvent (index : Nat)
  /-- The POOL_FATAL record of R235. -/
  | poolFatal (job : Nat)
  /-- A combined LOAD of R145, by its combining entry. -/
  | combinedLoad (entry : Nat)
  /-- A combined ATOMIC of R147. -/
  | combinedAtomic (entry : Nat)
  /-- A PARTIAL or REDUCE result on its way (chapter 09): a partial of a group, a result line, the completion record. -/
  | partialUp (rid : Nat)
  | abortUp (c : Caller)
  | resultWrite (rid round abseq : Nat)
  | completionRecord (rid round : Nat) (abort : Bool)
  /-- A bead's partial (chapter 12), by its channel and command. -/
  | beadPartial (ch order : Nat)
  /-- A write of the tray scrub (R424). -/
  | scrub (slot : Nat)
  /-- An access of a slot that was zeroised while it was under way (R423). -/
  | late
  /-- A message whose completion nothing waits for. -/
  | plain
  deriving DecidableEq, Repr

/-! ### KFP transport (chapter 04) -/

/-- A request as it stands at this module: its packet, the logical port it arrived on and when. -/
structure Req where
  pkt : Packet
  lport : Nat
  at_ : Ns := 0
  /-- The order of its acceptance at this home; 0 before it. -/
  order : Nat := 0
  /-- A CREQ whose agent began to be reclaimed while it waited (R208). -/
  gone : Bool := false
  deriving DecidableEq, Repr

/-- A message being assembled (R90 to R92): the fields its packets share, from the first accepted one, the PIDX accepted, the last acceptance, and the PIDX that came without RETX. -/
structure Assembly where
  first : Packet
  got : List Nat
  lastAt : Ns
  orig : List Nat := []
  deriving DecidableEq, Repr

/-- A message that is over (R93): since when, and the PIDX of it that came without RETX (log entry 16). -/
structure Closed where
  at_ : Ns
  orig : List Nat := []
  deriving DecidableEq, Repr

/-- An ACK or NAK entry (Table 4-6). -/
structure AckEntry where
  emsg : Nat
  ersp : Bool := false
  epidx : Nat := 0
  erun : Nat := 0
  estatus : Nat := 0
  ehint : Nat := 0
  ece : Bool := false
  edetail : Nat := 0
  deriving DecidableEq, Repr

/-- A gathering context (R95): entries of one source, and when the first was due. -/
structure Gather where
  entries : List AckEntry
  since : Ns
  deriving DecidableEq, Repr

/-- A packet the module keeps until it is answered (R97): its first transmission, none before it, and its last; its timer; and whether a copy waits in its queue. -/
structure Sent where
  pkt : Packet
  first : Option Ns := none
  last : Ns := 0
  timer : Nat := 20000
  count : Nat := 1
  queued : Bool := true
  /-- An R-class NAK asks for a re-issue no earlier than this (R98). -/
  reissueAt : Option Ns := none
  /-- The value the last NAK entry carried. -/
  nak : Nat := 0
  deriving DecidableEq, Repr

/-- A dedup entry (R101, R102): in progress or done, the stored answer, its creation, and when the entry's time starts to run. -/
structure Dedup where
  done : Bool := false
  posted : Bool := false
  /-- The stored response packet of a request that is not POSTED. -/
  rsp : Option Packet := none
  /-- The stored ACK or NAK entry of a POSTED request. -/
  ack : Option AckEntry := none
  created : Ns
  /-- A joiner's entry: the combined packet's own key (R571). -/
  combined : Option (Nat × Nat) := none
  sentAt : Ns := 0
  ackedAt : Option Ns := none
  /-- The epoch under which this module became its owner, its job, and the tray that backs the request's page (R442). -/
  epoch : Nat := 0
  job : Nat := 0
  tray : Option Nat := none
  deriving DecidableEq, Repr

/-- A resequencer context (R111): NEXT, the held packets with their arrival, and the last traffic. -/
structure Reseq where
  next : Nat
  held : List Req := []
  lastAt : Ns := 0
  deriving DecidableEq, Repr

/-- A message of the module that waits for its completion. -/
structure OwnMsg where
  purpose : Purpose
  dst : Nat
  tc : Nat := 0
  job : Nat := 0
  opened : Ns := 0
  /-- Its last transmission (R94). -/
  lastTx : Ns := 0
  /-- A packet of it was transmitted more than once, last then (R100). -/
  again : Option Ns := none
  /-- It has completed with this code and waits for the 4 ms of R100. -/
  waiting : Option Nat := none
  /-- The packet, for a re-issue of a request that was never answered (R105). -/
  pkt : Packet := {}
  /-- The response packets received, by PIDX (R108). -/
  got : Table Nat Packet := []
  /-- The key slot under removal that it counts for (R422). -/
  slot : Option Nat := none
  deriving DecidableEq, Repr

/-- The transport block. -/
structure Transport where
  assembly : Table (Nat × Nat × Nat) Assembly := []
  /-- Messages completed by an F-class NAK or freed, whose later packets are acknowledged and discarded (R93). -/
  closed : Table (Nat × Nat) Closed := []
  acks : Table (Nat × Nat) Gather := []
  naks : Table (Nat × Nat) Gather := []
  sent : Table (Nat × Nat × Nat × Bool) Sent := []
  own : Table (Nat × Nat) OwnMsg := []
  nextMsg : Nat := 0
  /-- When each MSG value lately used is free again (R94). -/
  msgFree : Table Nat Ns := []
  /-- Messages of the module held back until an MSG value is free (R94). -/
  heldOwn : List (Purpose × Packet) := []
  dedup : Table (Nat × Nat) Dedup := []
  reseq : Table (Nat × Nat × Nat × Nat) Reseq := []
  deriving DecidableEq, Repr

/-! ### Memory, translation and waiting requests (chapters 05 and 08) -/

/-- Memory bytes in canonical form: addresses strictly rising, no entry equal to zero, which is what an unlisted address reads as (log entry 5).
An address is a pool physical address of R119: the node in [63:50], the offset in [49:0]. -/
abbrev Memory := List Host.Cell

/-- What the near tier knows of a 128-byte line, by its pool address / 128; an unlisted line of this module's own node is resident and good, an unlisted tray line is not cached. -/
structure LineInfo where
  cached : Bool := true
  dirty : Bool := false
  /-- When it was dirtied first, for the order of R222. -/
  dirtyAt : Ns := 0
  /-- A P-class code when the line is poison (R126, R469), 0 when it is good. -/
  poison : Nat := 0
  /-- A fill is outstanding. -/
  filling : Bool := false
  /-- A write-back is outstanding (R221): how many answers it waits for, plus 4 once one of them failed. -/
  writing : Nat := 0
  /-- The key slot of a protected tray line (R408). -/
  slot : Option Nat := none
  deriving DecidableEq, Repr

/-- Why a request waits at this home. -/
inductive Why where
  /-- Parked on an open fault of the job (R137). -/
  | fault (job fid : Nat)
  /-- Parked behind an earlier packet of its ordered flow (R139). -/
  | behind
  /-- Held in a ranked epoch (R151). -/
  | ranked (job repoch : Nat)
  /-- Parked for an unreachable tray (R233). -/
  | tray (node : Nat)
  /-- Parked at a taker until the hand-off gives it a leaf to run under (R444). -/
  | handoff (tray : Nat)
  /-- Waiting for a busy line (R198). -/
  | line (hln : Nat)
  /-- Waiting for a tray fill of a line (R217). -/
  | fill (line : Nat)
  /-- Waiting for the dirty mark of a page (R220). -/
  | mark (page : Nat)
  /-- Waiting for the dirty budget of a quarter (R222). -/
  | budget (quarter : Nat)
  /-- A FENCE waiting for earlier requests of its (SRC, JOB) (R130). -/
  | fence
  /-- A combined list waiting for a joiner's own copy (R148). -/
  | copy (src msg : Nat)
  /-- Waiting for a channel in COMPUTE mode to serve it at a commit point (R344). -/
  | bank (ch : Nat)
  /-- Held bead command parked on a fault or held by a mode change (R348). -/
  | bead (ch : Nat)
  deriving DecidableEq, Repr

/-- A request accepted and not yet done: the request, its window when it came through one, the quarter it entered by, why it waits and since when. -/
structure Waiter where
  req : Req
  why : Why
  win : Option Nat := none
  quarter : Nat := 0
  since : Ns := 0
  /-- Of a combined list: the joiners applied so far, with status and value, and those whose dedup entry it made (R148). -/
  done : List (Nat × Nat) := []
  mine : List Nat := []
  /-- It has been through its ranked epoch, or, a FENCE, has closed it (R151). -/
  held : Bool := false
  /-- Of a GATHER: the list position of the record in hand (R276). -/
  pos : Nat := 0
  /-- Its lookups below this address have been counted (R134). -/
  looked : Nat := 0
  /-- Its bytes below this address have been admitted under the grant then in force (R420). -/
  admitted : Nat := 0
  /-- The cells of its packet are not given back to its port's partner while it waits for the dirty budget (R222). -/
  credit : Bool := false
  /-- The home line whose transaction it is, while it waits for a mark or for the dirty budget (R198). -/
  holds : Option Nat := none
  /-- A CREQ whose snoop asked the holder to share (Table 7-6). -/
  share : Bool := false
  deriving DecidableEq, Repr

/-- An open fault (R137): the page, its size code, when it opened. -/
structure PageFault where
  page : Nat
  psize : Nat
  opened : Ns
  write : Bool
  src : Nat
  deriving DecidableEq, Repr

/-- A job installed at this home (Table 5-6), its window quota aside. -/
structure Job where
  ttRoot : Nat
  pagerCap : Nat
  pagerNode : Nat
  faultSlots : Nat := 1024
  parkTimeout : Nat := 100
  ranked : Bool := false
  rankedSet : List Nat := []
  nextFid : Nat := 1
  faults : Table Nat PageFault := []
  lastApplied : Nat := 0
  /-- Open epochs: REPOCH, time of its first atomic, the sources that closed it (R151, R153). -/
  epochs : Table Nat (Option Ns × List Nat) := []
  /-- The job's pool range at this home was lost then (R235). -/
  lostAt : Option Ns := none
  lostStack : Bool := false
  fatalSent : Bool := false
  fatalSeq : Nat := 0
  deriving DecidableEq, Repr

/-- A combining entry at a switch that is not the home (R144): the request that stands for all, its joiners in join order, and whether it was sent. -/
structure Combine where
  head : Packet
  joiners : List Req
  sent : Bool := false
  msg : Nat := 0
  lport : Nat := 0
  deriving DecidableEq, Repr

/-- A change of translation entries that waits for R135: a mailbox command with its opcode, or a PUBLISH. -/
structure Fence where
  caller : Option (Caller × Nat) := none
  /-- The home line numbers of the old pages, back-invalidated before the end (R206). -/
  probe : List Nat := []
  /-- RESOLVE_FAULT: the fault whose requests walk again. -/
  fault : Option (Nat × Nat) := none
  /-- PUBLISH: the request and the version it is answered with (R231). -/
  publish : Option (Waiter × Nat) := none
  /-- The job-virtual ranges whose leaves changed, by job, address and length: bead commands that use them come first (R349). -/
  spans : List (Nat × Nat × Nat) := []
  since : Ns := 0
  deriving DecidableEq, Repr

/-- A publish region (R229). -/
structure Region where
  job : Nat
  span : Nat
  view : Nat
  vword : Nat
  version : Nat
  pubs : List Nat
  deriving DecidableEq, Repr

/-- A flush (R223): the lines it still covers, how many it covered, and the command that asked. -/
structure Flush where
  lines : List Nat
  count : Nat := 0
  caller : Option Caller := none
  deriving DecidableEq, Repr

/-- An access of an engine's unit in hand: the engine (its kind, its channel or request, its unit), the job or, through a window, the capability, the address and the length. -/
structure Look where
  who : Nat × Nat × Nat
  job : Nat
  cap : Nat
  addr : Nat
  len : Nat
  deriving DecidableEq, Repr

/-- The memory block: pool bytes, line states, the translation region by 8-byte entry, the translation caches, jobs, waiting requests, faults, combining entries, fences, and the near tier. -/
structure Pool where
  mem : Memory := []
  lines : Table Nat LineInfo := []
  /-- Slots of cached tray lines in the near tier: line to HLN (R191). -/
  slots : Table Nat Nat := []
  /-- Translation region, by entry number (byte offset / 8); an unlisted entry is INVALID, zero (log entry 6). -/
  tt : Table Nat Nat := []
  /-- Translation caches: quarter, job, level, page number, to the leaf (R134). -/
  xlate : Table (Nat × Nat × Nat × Nat) Nat := []
  jobs : Table Nat Job := []
  portJobs : Table Nat (List Nat) := []
  waiters : List Waiter := []
  accepted : Nat := 0
  /-- Ordered-flow packets refused with an R-class code and still pending (R139): source, flow, FSEQ, to the refusal's time and the job. -/
  pendingFlow : Table (Nat × Nat × Nat) (Ns × Nat) := []
  combine : Table Nat Combine := []
  nextCombine : Nat := 0
  fences : Table Nat Fence := []
  nextFence : Nat := 0
  /-- Lines to be marked: tray page to the waiting lines and the time the first began to wait (R220). -/
  toMark : Table Nat (List Nat × Ns) := []
  /-- Lines whose mark was answered and which the next write may dirty (R220). -/
  marked : List Nat := []
  /-- Home line numbers of removed tenants' lines that agents still hold: what the agents return is discarded (R422). -/
  discard : List Nat := []
  /-- A quarter's write-back runs (R222). -/
  cleaning : List Nat := []
  /-- A quarter's write-back runs that a commit of a smaller budget began (R238). -/
  trimming : List Nat := []
  flushes : List Flush := []
  /-- The halves of a protected fill that have arrived, data and metadata, by first line (R409). -/
  fillHalf : Table Nat (Option (List Byte) × Option (List Byte)) := []
  /-- Compressed images by 4 KiB block of the resident space (R216). -/
  images : Table Nat (List Byte) := []
  regions : List Region := []
  stacksLost : List Nat := []
  traysLost : List Nat := []
  /-- Pages of lost trays that a leaf installed since names: pool address and size (R234). -/
  revived : List (Nat × Nat) := []
  unreachable : List Nat := []
  /-- Home quarter of each tray's pages (R216). -/
  trayHome : Table Nat Nat := []
  /-- What engines hold of the units in hand: lookups made, and accesses checked through a window (R134, R333). -/
  looks : List Look := []
  deriving DecidableEq, Repr

/-! ### Windows (chapter 06) -/

/-- Descriptor states (Table 6-3). -/
inductive WinState where
  | free | open_ | revoking | revoked
  deriving DecidableEq, Repr

/-- A window: the descriptor of Table 6-2 and its working record. -/
structure Window where
  state : WinState := .free
  rights : Nat := 0
  viaMailbox : Bool := false
  gen : Nat := 0
  tag : Nat := 0
  ownerJob : Nat := 0
  ownerTenant : Nat := 0
  base : Nat := 0
  length : Nat := 0
  evtCap : Nat := 0
  evtNode : Nat := 0
  evtLog2 : Nat := 0
  openTime : Nat := 0
  inflight : Nat := 0
  violations : Nat := 0
  evSeq : Nat := 0
  suppressed : Nat := 0
  lastEvt : Option Ns := none
  /-- Its tenant is being removed or has been removed (R163). -/
  tenantGone : Bool := false
  /-- WREVOKE requests and mailbox revokes that complete with the drain. -/
  waitReq : List Req := []
  waitCmd : List Caller := []
  revokedAt : Ns := 0
  /-- The revoke completes no sooner than this (R470). -/
  holdUntil : Ns := 0
  deriving DecidableEq, Repr

/-- The window tables; an unlisted index is FREE. -/
structure Windows where
  table : Table Nat Window := []
  quota : Table Nat Nat := []
  /-- How often each quarter's tag generator was reseeded (R158). -/
  reseeds : Nat := 0
  deriving DecidableEq, Repr

/-! ### The coherence domain (chapter 07) -/

/-- Directory states of a line (Table 7-5); Uncached is an unlisted line. -/
inductive DirState where
  | shared (v : List Nat)
  | owned (o : Nat)
  | lost (node : Nat)
  deriving DecidableEq, Repr

/-- A directory entry with the time of its last grant (R204). -/
structure DirEntry where
  st : DirState
  grantAt : Ns := 0
  deriving DecidableEq, Repr

/-- What a busy line's transaction does once its snoops are answered. -/
inductive Then where
  /-- Serve an agent's CREQ. -/
  | creq (r : Req)
  /-- Run an ordinary access again. -/
  | access (w : Waiter)
  /-- A back-invalidation (R204, R206, R208, R232): nothing more on this line; the busy line whose CREQ waits for the way is served. -/
  | backInval (next : Option Nat)
  deriving DecidableEq, Repr

/-- A home tracker (R198): the agents still to answer, whether they were asked to share, and what follows. -/
structure Tracker where
  /-- The agents still to answer, with the time their snoop was sent. -/
  awaiting : Table Nat Ns
  /-- The agents snooped, and those that kept the line. -/
  tgt : List Nat := []
  kept : List Nat := []
  share : Bool := false
  cont : Then
  deriving DecidableEq, Repr

/-- Agent states (Table 7-12). -/
inductive AgentState where
  | none | attached | detaching | reclaiming
  deriving DecidableEq, Repr

/-- An agent (R188). -/
structure Agent where
  state : AgentState := .none
  node : Nat := 0
  snpCap : Nat := 64
  creqCredits : Nat := 256
  /-- Snoops unanswered. -/
  snoops : Nat := 0
  /-- The DETACH_AGENT commands that wait for the agent to be gone. -/
  detach : List Caller := []
  /-- Lines made Lost by its reclamation so far. -/
  lostLines : Nat := 0
  deriving DecidableEq, Repr

/-- The coherence block: directory by HLN, busy lines, agents, and snoops that wait for one of the agent's SNP_CAP. -/
structure Coherence where
  dir : Table Nat DirEntry := []
  busy : Table Nat Tracker := []
  agents : Table Nat Agent := []
  /-- Snoops that wait for one of the agent's SNP_CAP (R196): agent, HLN, SKIND, BI. -/
  snoopQueue : List (Nat × Nat × Nat × Bool) := []
  /-- Snoops unanswered, by agent and MSG, with their HLN. -/
  snoopMsg : Table (Nat × Nat) Nat := []
  nextSnoop : Nat := 0
  /-- DIR_CFG as it stood when the transaction in progress on a home line began, where a LIVE field was written since (R9, R13). -/
  oldCfg : Table Nat Word := []
  deriving DecidableEq, Repr

/-! ### Carry engines (chapter 09) -/

/-- The record of one element (Table 9-6): the long accumulator as a signed integer in units of 2^-298 for class L, the running value and rank for classes V and A, and the EFL bits. -/
structure Elem where
  acc : Int := 0
  val : Nat := 0
  rank : Nat := 0
  nan : Bool := false
  pinf : Bool := false
  ninf : Bool := false
  allnz : Bool := true
  psn : Bool := false
  empty : Bool := true
  deriving DecidableEq, Repr

/-- A slice of the current round (R251): its elements, the input indexes received, and, in an FP64 group at the root, each rank's values (`none` where the rank skipped). -/
structure Slice where
  elems : List Elem := []
  got : List Nat := []
  ranks : Table Nat (Option (List Nat)) := []
  /-- A receipt record was lost, and the slice counts as complete (R269). -/
  lostReceipt : Bool := false
  /-- Its partial or result has left. -/
  left : Bool := false
  deriving DecidableEq, Repr

/-- An open reduction group (Table 9-1) with its round in progress. -/
structure Group where
  a : OpenReductionArgs
  round : Nat
  abseq : Nat := 0
  slices : Table Nat Slice := []
  first : Option Ns := none
  aborts : Nat := 0
  /-- The aborts that run, by round and sequence: the children that have not sent ABT_DONE (R266). -/
  abtWait : Table (Nat × Nat) (List Nat) := []
  /-- Result packets not yet complete, and how many elements went out as poison (R264). -/
  outstanding : Nat := 0
  sentAll : Bool := false
  psnElems : Nat := 0
  cplSent : Bool := false
  /-- ABT_DOWN and ABT_UP handled, by round and sequence (R266). -/
  handled : List (Nat × Nat) := []
  upSeen : List (Nat × Nat) := []
  /-- ATTN_MERGE: the partials of each (block, query), in arrival order (R361). -/
  attn : Table (Nat × Nat) (List Byte) := []
  deriving DecidableEq, Repr

/-- The carry block: open groups by RID, and when each RID was closed here (R244). -/
structure Carry where
  groups : Table Nat Group := []
  closed : Table Nat Ns := []
  /-- The rounds of each RID whose failed delivery has been reported (R264). -/
  failed : Table Nat (List Nat) := []
  /-- The inputs held back while a spare takes up their engine, in order of arrival (R268). -/
  held : List Req := []
  deriving DecidableEq, Repr


/-! ### Sieve engines (chapter 10) -/

/-- States of a program slot (R293). -/
inductive SlotState where
  | free | loading | loaded | unloading
  deriving DecidableEq, Repr

/-- A program slot (R293, R294). -/
structure ProgSlot where
  state : SlotState := .free
  owner : Nat := 0
  nextPart : Nat := 0
  lastPart : Ns := 0
  code : List Nat := []
  requests : Nat := 0
  digest : List Byte := []
  deriving DecidableEq, Repr

/-- What a unit of a chunk that runs before the chunks below it have ended has made ready: an index, or a record with its emits and its program fault (R272). -/
structure Ahead where
  index : Nat := 0
  d : List Byte := []
  bad : List (Nat × Nat × Nat) := []
  emits : List Nat := []
  fault : Option Nat := none
  deriving DecidableEq, Repr

/-- A chunk of a SIEVE request that has started: its next unit, its end and its first unit, whether it waits for a line or for the request's parking entry, and whether it holds that entry (R272, R283). -/
structure SieveChunk where
  pos : Nat
  last : Nat
  first : Nat := 0
  /-- FILTER: its engine's line buffers of bitmap B (R292). -/
  bufs : List (Nat × List Byte) := []
  /-- GATHER_MEM: the records it has read, each distinct index once (R284). -/
  rows : Table Nat Ahead := []
  waits : Bool := false
  parked : Bool := false
  deriving DecidableEq, Repr

/-- An accepted GATHER_MEM, SCATTER, SETOP, FILTER, DISPATCH or COMBINE (R272): its request, the results so far (Table 10-5), and the progress of its chunks, taken in index order. -/
structure SieveReq where
  req : Req
  quarter : Nat
  sfn : Nat
  done : Nat := 0
  out : Nat := 0
  excess : Nat := 0
  stop : Option Nat := none
  /-- A program fault: instruction index (R298). -/
  fault : Option Nat := none
  finished : Bool := false
  paused : Bool := false
  /-- S_DONE where it is not the count of units done: the offending element of a SETOP, the offending token of a DISPATCH (R282, R300). -/
  stopDone : Option Nat := none
  /-- SETOP: next element of A and of B, the last elements read, and the value being decided with the lists it was seen in. -/
  ia : Nat := 0
  ib : Nat := 0
  lastA : Nat := 0
  lastB : Nat := 0
  cur : Option (Nat × Bool × Bool) := none
  /-- UNIQ: the distinct indices already put out. -/
  seen : List Nat := []
  /-- DISPATCH: the map words decided from the routes (R300), once read and written. -/
  plan : Option (List Nat) := none
  /-- Output lines written as poison, by their number in the output operand (R281). -/
  badLines : List Nat := []
  /-- FILTER: the line buffers of bitmap B, the one filled first first (R292). -/
  bufs : List (Nat × List Byte) := []
  /-- GATHER_MEM: the records that the chunk in hand has read (R284). -/
  rows : Table Nat Ahead := []
  /-- Staging records held (R280). -/
  staging : Nat := 0
  /-- Of a request whose chunks run at once: the chunks that have started and not ended, lowest first; the first unit of the next chunk; and the code and unit of an early stop that lower chunks still run up to (R272, R282, R283). -/
  chunks : List SieveChunk := []
  nextUnit : Nat := 0
  cut : Option (Nat × Nat) := none
  /-- FILTER, and GATHER_MEM with UNIQ: what units above `done` have ready (R272). -/
  ready : Table Nat Ahead := []
  /-- SCATTER: the highest list position placed so far for an index while a lower chunk was open (R285). -/
  placed : Table Nat Nat := []
  deriving DecidableEq, Repr

/-- The sieve block. -/
structure Sieve where
  slots : Table Nat ProgSlot := []
  reqs : Table (Nat × Nat) SieveReq := []
  deriving DecidableEq, Repr

/-! ### Movers (chapter 11) -/

/-- Channel states (Table 11-2). -/
inductive ChState where
  | closed | idle | running | preempted | stopped | halted
  deriving DecidableEq, Repr

/-- How a descriptor ends or stops (Table 11-9). -/
structure Ending where
  kind : Nat
  status : Nat := 0
  addr : Nat := 0
  /-- A stop writes its checkpoint before its record (R326). -/
  ckpt : Bool := false
  deriving DecidableEq, Repr

/-- A mover channel (R305 to R331): state, owner, ring, the descriptor and layout block read, the position and counts, the last recorded step, and what it was asked. -/
structure Channel where
  state : ChState := .closed
  prio : Nat := 0
  newPrio : Option Nat := none
  job : Nat := 0
  ringBase : Nat := 0
  ringLog2 : Nat := 4
  head : Nat := 0
  tail : Nat := 0
  desc : List Byte := []
  layout : List Byte := []
  pos : Nat := 0
  first : Nat := 2 ^ 64 - 1
  count : Nat := 0
  psn : Nat := 0
  stepPos : Nat := 0
  stepCount : Nat := 0
  stepFirst : Nat := 2 ^ 64 - 1
  stepPsn : Nat := 0
  /-- ABORT, a close, or a removal of the job or of its tenant was asked: the status it ends with. -/
  abort : Option Nat := none
  /-- The channel closes once its descriptor has ended, for that command. -/
  closing : Bool := false
  closeBy : Option Caller := none
  ending : Option Ending := none
  /-- A RESUME waits for the engine: the checkpoint is that of a stop (R327). -/
  resumed : Bool := false
  /-- HALTED while its descriptor could not be read, or while it was being preempted. -/
  unread : Bool := false
  preempting : Bool := false
  /-- RESUME asked a HALTED channel to retry its failed write (R329). -/
  retry : Bool := false
  record : List Byte := []
  deriving DecidableEq, Repr

/-- The mover block: channels, the channel each engine runs and served last, and the applied marks by quarter and channel (R330). -/
structure Mover where
  channels : Table Nat Channel := []
  served : Table Nat Nat := []
  marks : Table (Nat × Nat) Nat := []
  deriving DecidableEq, Repr

/-! ### Beads (chapter 12) -/

/-- Channel modes (Table 12-2). -/
inductive BeadMode where
  | memory | compute | shared
  deriving DecidableEq, Repr

/-- A queued bead command (R345, R350): its request, the pool address and leaf of each operand a bead touches, what is done (list entries for ATTN, else a count of rows or elements),
the running sum of SCAN, the output lines written as poison, the outcome so far, the partials the group has not yet accepted, and the last commit point. -/
structure BeadCmd where
  req : Req
  ops : List (Nat × Nat) := []
  dones : List Nat := []
  done : Nat := 0
  acc : Elem := {}
  badLines : List Nat := []
  psn : Nat := 0
  status : Nat := 0
  first : Nat := 0xFFFF
  outstanding : Nat := 0
  ended : Bool := false
  commit : Nat := 0
  deriving DecidableEq, Repr

/-- An ATTN list entry as its bead reads it: the command, the entry, and the bytes of keys and then values read so far, with the code of the first poison among them. -/
structure BeadRun where
  order : Nat
  entry : Nat
  buf : List Byte := []
  bad : Option Nat := none
  deriving DecidableEq, Repr

/-- A bead channel. -/
structure BeadCh where
  mode : BeadMode := .memory
  saved : BeadMode := .memory
  shedHeld : Bool := false
  owner : Option Nat := none
  queue : List BeadCmd := []
  cmds : Nat := 0
  /-- Bank pairs whose bead has a unit in progress (R342). -/
  active : List Nat := []
  /-- The list entry each bead is reading. -/
  runs : Table Nat BeadRun := []
  /-- BEAD_CFG as it stood at the last commit point, where a LIVE field was written since with units in progress (R9, R13). -/
  oldCfg : Option Word := none
  /-- The commands end with this code at the next commit point, and the channel is released then (R340, R368). -/
  stop : Option (Nat × Bool) := none
  deriving DecidableEq, Repr

/-- The bead block. -/
structure Beads where
  channels : Table Nat BeadCh := []
  deriving DecidableEq, Repr

/-! ### Queues, gates, time and the tally ring (chapter 13) -/

/-- One of the sixteen output queues of a logical port: its packets, oldest first; the average of R382 in 1/65,536 cells; the finish tag of its head; the shaper's tokens in tenths of a byte and when they were counted;
the lossless packets that wait for it in the ingress reserve (R373); and since when its head packet has been waiting for a gate (R386). -/
structure OutQueue where
  packets : List QPkt := []
  avg : Nat := 0
  fin : Nat := 0
  tokens : Nat := 0
  tokensAt : Ns := 0
  reserve : List QPkt := []
  headSince : Ns := 0
  deriving DecidableEq, Repr

/-- The scheduler of one logical port: the virtual time of R379, the LFSR of R382. -/
structure Sched where
  v : Nat := 0
  lfsr : Nat := 1
  /-- Policer buckets, committed and peak, by lossy class, and when they were filled (R381). -/
  police : Table Nat (Nat × Nat × Ns) := []
  deriving DecidableEq, Repr

/-- A gate schedule (Table 13-3): BASE_TIME and entries of duration and mask. -/
structure Gate where
  base : Nat := 0
  entries : List (Nat × Nat) := []
  deriving DecidableEq, Repr

/-- A port's gate state: the schedule in force, the entry in progress, and a committed schedule not yet taken (R387). -/
structure PortGate where
  cur : Gate := {}
  idx : Nat := 0
  next : Option Gate := none
  /-- When the port takes it, on the time counter. -/
  takeAt : Nat := 0
  deriving DecidableEq, Repr

/-- A congestion rate entry (R383): rate in MB/s, last halving, last mark. -/
structure RateEntry where
  rate : Nat
  halvedAt : Ns
  markAt : Ns
  /-- When the next paced request to the destination may leave. -/
  nextAt : Ns := 0
  deriving DecidableEq, Repr

/-- A quarter's tally ring: the records not yet consumed with their T_SEQ, HEAD, the T_SEQ generated, the sessions' counters, the MIRROR MSG counter (R391 to R394). -/
structure Tally where
  ring : List (List Byte) := []
  head : Nat := 0
  tseq : Nat := 0
  sessions : Table Nat Nat := []
  mirrorMsg : Nat := 0
  deriving DecidableEq, Repr

/-- The queues block. Output queues are keyed by 16 × logical port + queue. -/
structure Queues where
  out : Table Nat OutQueue := []
  sched : Table Nat Sched := []
  /-- Internal queues by 8 × quarter + class (R376). -/
  intern : Table Nat (List QPkt) := []
  gates : Table Nat PortGate := []
  gatePending : Table Nat Gate := []
  /-- The COMMIT_GROUP of group GATE whose schedules some port has not taken yet (R508). -/
  gateCommit : Option Caller := none
  rates : Table (Nat × Nat) RateEntry := []
  sessions : Table Nat TallySessionArgs := []
  tally : Table Nat Tally := []
  /-- Packets of the module that found no route to their destination (R115). -/
  noRoute : List Packet := []
  /-- The port that carries each ordered flow (R110), by (SRC, DST, FLOW). -/
  flowPort : Table (Nat × Nat × Nat) Nat := []
  deriving DecidableEq, Repr

/-! ### The fabric map (chapter 15) -/

/-- A node entry (R429): its kind, a switch's DEVICE_UID, and its attachments by index. -/
structure NodeEntry where
  kind : Nat
  uid : List Byte := []
  att : Table Nat (Nat × Nat) := []
  deriving DecidableEq, Repr

/-- A composition: nodes and multicast groups (root and members). -/
structure Composition where
  nodes : Table Nat NodeEntry := []
  groups : Table Nat (Nat × List Nat) := []
  deriving DecidableEq, Repr

/-- One entry of a link-state record. -/
structure LsrEntry where
  lport : Nat
  role : Nat
  up : Bool
  lanes : Nat
  peer : Nat
  peerLport : Nat
  deriving DecidableEq, Repr

/-- The link-state record kept for an origin (R430), with the fragments received of it. -/
structure Lsr where
  seq : Nat
  epoch : Nat := 0
  staged : Bool := false
  departing : Bool := false
  frags : Table Nat (List LsrEntry) := []
  nfrag : Nat := 1
  keptAt : Ns := 0
  deriving DecidableEq, Repr

/-- A proposal or a snapshot (R436, R437, R446): its fragments as lists of 32-byte records, and, once complete, what became of it. -/
structure Proposal where
  coord : Nat
  epoch : Nat
  maxTransit : Nat
  propId : Nat
  nfrag : Nat
  frags : Table Nat (List (List Byte)) := []
  /-- The composition it produces, once checked. -/
  comp : Composition := {}
  votedAt : Option Ns := none
  /-- Its verdict has been seen and passed on. -/
  decided : Bool := false
  /-- The neighbours were asked for their state (R439). -/
  pulled : Bool := false
  deriving DecidableEq, Repr

/-- The coordinator's own record of its proposal (R438): the command, the switches that must vote and those that said YES, and the verdict. -/
structure Coordination where
  caller : Caller
  propId : Nat
  epoch : Nat
  startedAt : Ns
  voters : List Nat
  yes : List Nat := []
  verdict : Option (Nat × Nat) := none
  deriving DecidableEq, Repr

/-- A map message that waits for its answer (R434). -/
structure MapSend where
  pkt : Packet
  lport : Nat
  key : Nat
  op : Nat
  sends : Nat := 1
  lastAt : Ns := 0
  deriving DecidableEq, Repr

/-- A hand-off of a tray's request records (R442 to R445), as giver or taker.
As giver, the keys offered and not yet accepted by HSEQ; as taker, the last HSEQ used for a PROBE and the last PROBE; it ends as taker with the ACCEPT of the LAST offer. -/
structure Handoff where
  giver : Bool
  peer : Nat
  epoch : Nat
  commitAt : Ns
  hseq : Nat := 0
  offers : Table Nat (List (Nat × Nat)) := []
  lastProbe : Ns := 0
  deriving DecidableEq, Repr

/-- The map block. -/
structure MapState where
  node : Nat := 0xFFFF
  epoch : Nat := 0
  comp : Composition := {}
  prev : Option Composition := none
  graceEnd : Ns := 0
  graceUs : Nat := 0
  member : Bool := false
  departing : Bool := false
  departed : Bool := false
  drainCaller : Option Caller := none
  drainStep : Nat := 0
  drainReady : Option Ns := none
  lsrs : Table Nat Lsr := []
  lsrSeq : Nat := 0
  lsrDue : Option Ns := none
  lsrAt : Ns := 0
  /-- The latest proposal heard of from each coordinator, and the one staged. -/
  gather : List Proposal := []
  proposal : Option Proposal := none
  nextProp : Nat := 0
  coord : Option Coordination := none
  snapshot : Option Proposal := none
  /-- A snapshot was asked for and its answer is awaited (R446). -/
  pulling : Bool := false
  sends : List MapSend := []
  handoffs : Table Nat Handoff := []
  /-- When each node ID was removed by a commit (R436). -/
  removed : Table Nat Ns := []
  deriving DecidableEq, Repr


/-! ### Tenants, keys and attestation (chapter 14) -/

/-- Key slot states (Table 14-2). -/
inductive KeyState where
  | free | allocated | active | draining
  deriving DecidableEq, Repr

/-- A key slot (R408 to R425). -/
structure KeySlot where
  state : KeyState := .free
  tenant : Nat := 0
  /-- Digest of the image the slot is pinned to (R418). -/
  pin : Option (List Byte) := none
  /-- K1, K2 and KM, and the session key TSK (R483); empty when zeroised. -/
  keys : List Byte := []
  tsk : List Byte := []
  gkey : List Byte := []
  gseq : Nat := 0
  jobs : List Nat := []
  grantBody : List Byte := []
  /-- A verified grant on its way to the quarters: its body and the commands that wait for it (R420). -/
  newGrant : Option (List Byte × List Caller) := none
  jobsetEpoch : Nat := 0
  leafRefs : Nat := 0
  /-- SHAKE256 of the grant public key (Table 14-4). -/
  gkeyDigest : List Byte := []
  drainAt : Ns := 0
  zeroisedAt : Option Ns := none
  /-- Tray pages to scrub, with their size and LINE_CRC flag, and whether the scrub runs (R424). -/
  scrub : List (Nat × Nat × Bool) := []
  scrubbing : Bool := false
  scrubbed : Nat := 0
  retryAt : Ns := 0
  deriving DecidableEq, Repr

/-- The tenants block: slots; the report queue, the digests of the last reports (R414, R416); the attestation key. -/
structure Tenants where
  slots : Table Nat KeySlot := []
  reports : List (Caller × List Byte) := []
  reportAt : Ns := 0
  reportSeq : Nat := 0
  digests : List (List Byte) := []
  akReady : Bool := false
  akStart : Option Ns := none
  /-- The seeds of the attestation key in force (R405), BOOT_ID (Table 14-3), and the draw behind this boot's ML-KEM key pair (R416). -/
  akSeeds : List Byte := []
  bootId : List Byte := []
  kemKey : Nat := 0
  integrityAt : Table Nat Ns := []
  deriving DecidableEq, Repr

/-! ### Spares, drills and recovery (chapter 16) -/

/-- Why a switch-in runs: the cause code of UNIT_DEGRADED, and whether a drill ordered it. -/
structure SwitchIn where
  kind : UnitKind
  index : Nat
  cause : Nat := 0
  drill : Bool := false
  startedAt : Ns := 0
  /-- A rod's spare has loaded the shadowed state (R454). -/
  loaded : Bool := false
  deriving DecidableEq, Repr

/-- The drill in progress (R471). -/
structure Drill where
  args : DrillArgs
  startedAt : Ns
  /-- A real trigger arrived meanwhile (R474). -/
  interrupted : Bool := false
  aborted : Bool := false
  /-- Its injection or switch-in is over, with the effect measured. -/
  effect : Nat := 0
  acted : Bool := false
  testing : Bool := false
  /-- The physical slot it displaced. -/
  oldSlot : Nat := 0
  deriving DecidableEq, Repr

/-- The spares block. Physical slots: a unit's slot where it differs from its index within its die; the units out of service; free spare slots by kind and die, an unlisted key holding the complement of Table 1-2. -/
structure Spares where
  slot : Table (UnitKind × Nat) Nat := []
  degraded : List (UnitKind × Nat) := []
  retired : List (UnitKind × Nat) := []
  spare : Table (UnitKind × Nat) (List Nat) := []
  switching : Table Nat (List SwitchIn) := []
  switchins : Table (UnitKind × Nat) Nat := []
  /-- Canary margin last measured, in percent (Table 19-7). -/
  margin : Table (UnitKind × Nat) Nat := []
  /-- Bank pairs whose copy runs (channel to pair and start), pairs spared and retired, beads DEGRADED. -/
  bankCopy : Table Nat (Nat × Ns) := []
  bankSpared : List Nat := []
  bankRetired : List Nat := []
  beadsDegraded : List Nat := []
  /-- Macros: copies by die (macro, start), spare macros in use, by die and spare, with the macro each serves. -/
  macroCopy : Table Nat (List (Nat × Ns)) := []
  macroMap : Table (Nat × Nat) Nat := []
  drill : Option Drill := none
  lastDrill : Nat × Nat × Nat := (0, 0, 0)
  lastEnd : Option Ns := none
  /-- Drill log in flash: the DRILL_END records, oldest first (R475). -/
  log : List EventRec := []
  deriving DecidableEq, Repr
/-! ### The Reckoner and its mailboxes (chapter 17) -/

/-- A mailbox response: Table 17-4 without its parts; `result` is the whole result. -/
structure Response where
  opcode : Nat
  cseq : Nat
  completion : Nat
  detail : Nat := 0
  result : List Byte := []
  unsolicited : Bool := false
  deriving DecidableEq, Repr

/-- The assembly of a command in parts (R489). -/
structure Assembling where
  opcode : Nat
  total : Nat
  nextPart : Nat
  nextCseq : Nat
  args : List Byte
  tenant : Bool := false
  tslot : Nat := 0
  src : Nat := 0
  lastAt : Ns := 0
  deriving DecidableEq, Repr

/-- A command taken whole from its slots: what Dvorro starts in turn (R490). -/
structure Taken where
  caller : Caller
  opcode : Nat
  args : List Byte
  deriving DecidableEq, Repr

/-- One mailbox: sequence, held slots, stored responses of the last 64 slots taken, the assembly in progress, the commands started and not yet answered, the counter latch (R540).
A host mailbox also has its binding and its rings (R492); a session's mailbox its response stream. -/
structure Mbox where
  nextCseq : Nat := 1
  held : List MboxSlot := []
  /-- CSEQ of the last 64 slots taken, newest first, with their response once there is one. -/
  stored : List (Nat × Option Response) := []
  asm : Option Assembling := none
  started : List Caller := []
  takenCmds : List Taken := []
  /-- The 64-bit value whose low word was read last, and the high word of that instant (R540). -/
  latch : Option (Nat × Nat) := none
  bound : Option Nat := none
  cmdHead : Nat := 0
  cmdTail : Nat := 0
  rspHead : Nat := 0
  rspTail : Nat := 0
  slots : Table Nat (List Byte) := []
  rspRing : Table Nat (List Byte) := []
  rspWait : List (List Byte) := []
  /-- Clear mailbox: the stored responses by source and CSEQ, newest first (R497). -/
  clearStored : List (Nat × Nat × Response) := []
  deriving DecidableEq, Repr

/-- A manager session (R498 to R501): identity, keys, sequence windows, last valid datagram, and the response slots the manager has not acknowledged. -/
structure Session where
  id : Nat
  keyIn : List Byte := []
  keyOut : List Byte := []
  high : Nat := 0
  seen : List Nat := []
  dseqOut : Nat := 1
  lastValid : Ns := 0
  rack : Nat := 0
  unacked : List (List Byte) := []
  resendAt : Ns := 0
  resendWait : Ns := 20000000
  /-- Where its last datagram came from (R494). -/
  port : Nat := 0
  deriving DecidableEq, Repr

/-- A firmware image as the module knows it: bytes, version, digest, and whether its signatures pass R406. -/
structure Image where
  bytes : List Byte := []
  version : Nat := 0
  digest : List Byte := []
  deriving DecidableEq, Repr

/-- Dvorro's states (Table 17-10). -/
inductive Dvorro where
  | rom | running | restarting | activating | fetch
  deriving DecidableEq, Repr

/-- A UCIe module (R481): lost its link since then; counted as failed. -/
structure Ucie where
  lostAt : Option Ns := none
  failed : Bool := false
  deriving DecidableEq, Repr

/-- A datagram or a message the module sends on its management interfaces. -/
inductive MgmtOut where
  | datagram (port dst session dseq rpos : Nat) (slots : List (List Byte)) (sealed_ : Bool)
  | i3c (endpoint : Nat) (r : Response)
  | entdaa (provisionedId address : Nat)
  | pldm (ptype cmd completion : Nat) (data : List Byte)
  deriving DecidableEq, Repr

/-- The Reckoner block. -/
structure Reckoner where
  mboxes : Table MboxId Mbox := []
  sessions : Table Nat Session := []
  managerKeys : List (List Byte) := []
  dvorro : Dvorro := .rom
  /-- Cores that have failed, of eight (R26). -/
  coresLost : List Nat := []
  ucie : Table Nat Ucie := []
  /-- The sequence number of the last control write to each quarter (R481). -/
  controlSeq : Table Nat Nat := []
  running : Image := {}
  /-- The stored image in flash. -/
  flash : Image := { bytes := Config.storedImage }
  staging : Table Nat Byte := []
  staged : Image := {}
  stagedValid : Bool := false
  flashWrite : Bool := false
  activation : Option (Caller × Ns) := none
  activatedAt : Option Ns := none
  /-- Callers of commands that a restart or an activation interrupts: started before a change of state, or after (R512). -/
  journal : List (Caller × Bool) := []
  /-- Answers that came while Dvorro was absent, oldest first: it gives them when it returns (R510, R512). -/
  carried : List (Caller × Response) := []
  i3cAddr : Nat := 0
  mgmt : List MgmtOut := []
  /-- What the module has answered on any mailbox, newest first: mailbox and response. -/
  answers : List (MboxId × Response) := []
  deriving DecidableEq, Repr

/-! ### Supply, shedding, bring-up, thermal (chapters 18 to 20) -/

/-- The time counter (R389): its value, whether it is locked, the last offset and the correction still to be slewed, in ns. -/
structure Clock where
  counter : Nat := 0
  locked : Bool := false
  offset : Int := 0
  slew : Int := 0
  /-- Nanoseconds since the last nanosecond of slewing. -/
  slewTick : Nat := 0
  deriving DecidableEq, Repr

/-- One thermal sensor (Table 19-6): temperature in 0.1 °C, validity, staleness, last sample, over-warning, the action in force and since when it has read 5 °C below, and since when it has read 115 °C or more. -/
structure Sensor where
  temp : Int := 0
  valid : Bool := false
  stale : Bool := false
  at_ : Ns := 0
  overWarn : Bool := false
  action : Bool := false
  coolSince : Option Ns := none
  hotSince : Option Ns := none
  deriving DecidableEq, Repr

/-- One rail (Table 18-2), with the regulator phases it has lost. -/
structure Rail where
  on : Bool := false
  vout : Nat := 0
  inReg : Bool := false
  lost : List Nat := []
  deriving DecidableEq, Repr

/-- What the ROM saved to flash at L4 (R524). -/
structure SavedLogs where
  events : List EventRec := []
  drills : List EventRec := []
  marked : Nat := 0
  complete : Bool := false
  deriving DecidableEq, Repr

/-- The supply block: the bus and its samples, the shed-level machine, the hold-up store, the rails, bring-up, pins, sensors. -/
structure Supply where
  vin : Nat := 0
  vinMin : Nat := 0xFFFF
  iin : Nat := 0
  pin : Nat := 0
  pinMax : Nat := 0
  pinHist : List Nat := []
  vstore : Nat := 0
  capUf : Nat := 0
  holdupReady : Bool := false
  level : Nat := 0
  levelMax : Nat := 0
  /-- Since when the bus has been below, and at or above plus 0.8 V, each level's threshold (R519). -/
  belowSince : Table Nat Ns := []
  aboveSince : Table Nat Ns := []
  holdupTimer : Option Ns := none
  /-- The bus has held at or above 46.8 V since then, after L4 (R524), or 46.0 V, before bring-up (R527). -/
  highSince : Option Ns := none
  /-- RESET_N is low, a trip or a sense break acts as the bus below 42.5 V (R534, R536, R561). -/
  resetLow : Bool := false
  resetPulse : Bool := false
  senseBroken : Bool := false
  tripped : Bool := false
  /-- The input switch is closed. -/
  switchClosed : Bool := false
  rails : Table Nat Rail := []
  phase : Nat := 0
  ready : Bool := false
  unjoined : Bool := false
  time0 : Ns := 0
  readyMs : Nat := 0
  memoryDone : Bool := false
  linksDone : Bool := false
  mapSince : Option Ns := none
  planSettled : Bool := false
  imageDone : Bool := false
  /-- The port plan in flash, and when the plan last changed without being saved (R528). -/
  plan : Option (List (Nat × Word)) := none
  planDue : Option Ns := none
  pwrGood : Bool := false
  /-- Token bucket of R532, in thousandths of a token, and when it was filled. -/
  tokens : Nat := 1000000
  tokensAt : Ns := 0
  /-- Last TC6 answer per port (R533). -/
  tc6At : Table Nat Ns := []
  sensors : Table Nat Sensor := []
  saved : Option SavedLogs := none
  saving : Bool := false
  deriving DecidableEq, Repr

/-! ### The whole state -/

/-- The state of the module. -/
structure State where
  /-- Commands that wait, first in first out: the model's interface. -/
  pending : List Instr := []
  /-- Nanoseconds since power-up: the model's measure of elapsed time (log entry 2). -/
  now : Ns := 0
  /-- Index of the next free value (log entry 3). -/
  free : Nat := 0
  /-- Register words in force that differ from their reset value, by address (R538). -/
  regs : Table Nat Word := []
  /-- Pending copies of the STAGED fields of the agreement groups, by address (R507). -/
  regsPending : Table Nat Word := []
  /-- Words last accepted for registers with a LIVE field, where the block's unit boundary has not come yet (R8, R13). -/
  regsLive : Table Nat Word := []
  ctrs : Table Ctr Nat := []
  events : EventLog := {}
  dies : Table Nat Die := []
  admitted : Table Nat Nat := []
  deck : Deck := {}
  links : Links := {}
  net : Transport := {}
  pool : Pool := {}
  win : Windows := {}
  coh : Coherence := {}
  carry : Carry := {}
  sieve : Sieve := {}
  mover : Mover := {}
  bead : Beads := {}
  queues : Queues := {}
  ten : Tenants := {}
  map : MapState := {}
  spares : Spares := {}
  rkn : Reckoner := {}
  clock : Clock := {}
  supply : Supply := {}
  deriving DecidableEq, Repr

/-- The module right after reset: every field at the value its block gives. -/
def State.reset : State := {}

end Sys2Proof.Machine
end

