-- ==== Sys2Proof/Machine/CarryMath.lean ====
section
/-! DEFINITION. The arithmetic of the carry engines and of the beads: terms and accumulation (R255), rounding (R257), running values (R258, R577), the fixed tree of FP64 (R259, R576), partial records (R260 to R262, R577), EXP2 (R353) and the merge of attention partials (R362). -/

namespace Sys2Proof.Machine

/-! ### Class L (R253 to R257) -/

/-- What an element of a class-L input adds (R255): a finite term is an integer in units of 2^-298. -/
inductive Term where
  | nan
  | inf (neg : Bool)
  | zero (neg : Bool)
  | fin (a : Int)
  deriving DecidableEq, Repr

/-- The term of an exact value. -/
def termOf (x : Num) : Term :=
  match x with
  | .nan => .nan
  | .inf neg => .inf neg
  | .fin neg m e => if m = 0 then .zero neg else .fin (scaled neg m e (-298))

/-- The 640-bit two's-complement integer that an accumulator holds after a sum (R253, R255, R256). -/
def wrapAcc (v : Int) : Int := v.bmod (2 ^ 640)

/-- A term added to an element's record (R255). -/
def accumulate (r : Elem) (t : Term) : Elem :=
  let r := { r with empty := false, allnz := r.allnz && decide (t = .zero true) }
  match t with
  | .nan => { r with nan := true }
  | .inf false => { r with pinf := true }
  | .inf true => { r with ninf := true }
  | .zero _ => r
  | .fin a => { r with acc := wrapAcc (r.acc + a) }

/-- An element rounded into a format (R257); none when it is poison. -/
def roundElem (f : FloatFmt) (rz sat : Bool) (r : Elem) : Option Nat :=
  if r.psn then none
  else if r.nan || (r.pinf && r.ninf) then some (canonNan f)
  else if r.pinf || r.ninf then some (encodeNum f rz sat (.inf r.ninf))
  else if r.acc = 0 then some (encodeZero f (r.allnz && !r.empty))
  else some (roundFloat f rz sat (decide (r.acc < 0)) r.acc.natAbs (-298) false)

/-! ### Classes V and A (R258, R577) -/

/-- The order of a format's values as R258 compares them. -/
def valueKey (fmt v : Nat) : Int :=
  if isIntFmt fmt then (if isSignedFmt fmt then toSigned (inWidth fmt) v else v) else orderKey (floatFmt fmt) v

/-- One value, with its rank, joined to an element by the operation of its group. -/
def joinValue (cop fmt : Nat) (r : Elem) (v rank : Nat) : Elem :=
  if r.nan then r
  else if r.empty then { r with val := v, rank := rank, empty := false }
  else
    match cop with
    | 0 => { r with val := (r.val + v) % 2 ^ 64 }
    | 9 => { r with val := r.val * v % 2 ^ 64 }
    | 6 => { r with val := r.val &&& v }
    | 7 => { r with val := r.val ||| v }
    | 8 => { r with val := r.val ^^^ v }
    | _ =>
      let k := valueKey fmt v
      let k0 := valueKey fmt r.val
      let better := if cop = 2 ∨ cop = 4 then decide (k < k0) else decide (k0 < k)
      if better || (decide (k = k0) && decide (rank < r.rank)) then { r with val := v, rank := rank } else r

/-- A NaN joined to an element: the lowest rank that sent one is kept. -/
def joinNan (fmt : Nat) (r : Elem) (rank : Nat) : Elem :=
  { r with val := canonNan (floatFmt fmt), rank := if r.nan then min r.rank rank else rank, nan := true, empty := false }

/-! ### Groups' classes and formats (Table 9-3) -/

/-- The class of a group's partials. -/
inductive CarryClass where
  | l | v | a | fp64 | attn
  deriving DecidableEq, Repr

/-- The class of an operation on a format. -/
def carryClass (cop fmt : Nat) : CarryClass :=
  if cop = 10 then .attn
  else if cop = 4 ∨ cop = 5 then .a
  else if cop ≤ 1 ∧ !isIntFmt fmt then (if fmt = 11 then .fp64 else .l)
  else .v

/-- A combination of operation, format, result format and RANKED that Table 9-3 allows. -/
def comboOk (cop fmt rfmt ranked : Nat) : Bool :=
  let int := isIntFmt fmt
  if 19 < fmt then false
  else if cop = 0 ∧ int then decide (rfmt = fmt)
  else if cop ≤ 1 then
    if int then false
    else if fmt = 11 then decide (cop = 0 ∧ ranked = 1 ∧ rfmt = 11)
    else decide (rfmt ∈ [8, 9, 10]) || (decide (rfmt ∈ [12, 13]) && !isMxFmt fmt)
  else if cop ≤ 5 then !isMxFmt fmt && decide (fmt ≠ 11 ∧ rfmt = fmt)
  else if cop ≤ 9 then int && decide (rfmt = fmt)
  else false

/-- The bytes of a result element (R263). -/
def resultBytes (cop rfmt : Nat) : Nat := if cop = 4 ∨ cop = 5 then 16 else inBytes rfmt

/-- The bytes of a slice of `n` elements in a contribution, with its weight in WSUM (R249). -/
def contribBytes (cop fmt n : Nat) : Nat :=
  (if isMxFmt fmt then sliceBytes fmt else n * inBytes fmt) + (if cop = 1 then 4 else 0)

/-- A fresh slice of `n` elements (R253); ALLNZ is of class L alone (R577). -/
def freshElems (cls : CarryClass) (n : Nat) : List Elem := List.replicate n { allnz := decide (cls = .l) }

/-- One covered slice of a contribution accumulated (R249, R255, R258). -/
def addContribution (cop fmt rank : Nat) (es : List Elem) (d : List Byte) : List Elem :=
  if carryClass cop fmt = .l then
    let w : Num := if cop = 1 then decodeFloat fFP32 (field d 0 4) else .fin false 1 0
    List.zipWith (fun r x => accumulate r (termOf (mulNum x w))) es (sliceNums fmt es.length (if cop = 1 then d.drop 4 else d))
  else
    (List.zip es (List.range es.length)).map fun (r, i) =>
      let v := field d (inBytes fmt * i) (inBytes fmt)
      if !isIntFmt fmt && isNanIn (floatFmt fmt) v then joinNan fmt r rank else joinValue cop fmt r v rank

/-! ### Partial records (Table 9-9, R262, R577) -/

/-- The EFL byte of an element. -/
def eflOf (cls : CarryClass) (r : Elem) : Nat :=
  if cls = .l then
    flag r.nan + 2 * flag r.pinf + 4 * flag r.ninf + 8 * flag r.allnz + 16 * flag r.psn + 32 * flag r.empty
  else flag r.nan + 16 * flag r.psn + 32 * flag r.empty

/-! ### Staging records (Table 9-6, R254, R268) -/

/-- A 64-bit limb of an accumulator, limb 0 the lowest. -/
def limb (acc : Int) (i : Nat) : Nat := (acc / ((2 ^ (64 * i) : Nat) : Int) % ((2 ^ 64 : Nat) : Int)).toNat

/-- RES: the residue mod 7 of each limb (R268). -/
def resField (acc : Int) : Nat := (List.range 10).foldl (fun t i => t + limb acc i % 7 * 2 ^ (3 * i)) 0

/-- The adder limb: sum and carry out (R268). -/
def limbAdd (a b c : Nat) : Nat × Nat := ((a + b + c) % 2 ^ 64, (a + b + c) / 2 ^ 64)

/-- The residue check of an adder limb (R268). -/
def adderCheck (a b c : Nat) (r : Nat × Nat) : Bool := decide ((a % 7 + b % 7 + c) % 7 = (r.1 % 7 + 2 * r.2) % 7)

/-- The residue check of a multiplier (R268). -/
def multiplierCheck (x y r : Nat) : Bool := decide (x % 7 * (y % 7) % 7 = r % 7)

/-- The 96 bytes of an element's accumulator record in carry staging (Table 9-6). -/
def stagingRecord (cls : CarryClass) (rid : Nat) (r : Elem) : List Byte :=
  let acc := match cls with
    | .l => (List.range 10).flatMap fun i => le 8 (limb r.acc i)
    | .a => le 8 r.val ++ le 2 r.rank ++ zeros 70
    | _ => le 8 r.val ++ zeros 72
  acc ++ le 4 (if cls = .l then resField r.acc else resField r.val) ++ le 4 (rid % 2 ^ 20) ++ le 1 (eflOf cls r) ++ zeros 7

/-- The least count of bytes whose sign extension is `v`, up to `fuel`. -/
def signedBytes (v : Int) : Nat → Nat → Nat
  | 0, n => n
  | fuel + 1, n => if -(2 ^ (8 * n) : Nat) ≤ 2 * v ∧ 2 * v < (2 ^ (8 * n) : Nat) then n else signedBytes v fuel (n + 1)

/-- The index of the lowest non-zero byte of `m`, up to `fuel`. -/
def lowByte (m : Nat) : Nat → Nat → Nat
  | 0, i => i
  | fuel + 1, i => if m / 256 ^ i % 256 ≠ 0 then i else lowByte m fuel (i + 1)

/-- The record of an element in its canonical form. -/
def elemRecord (cls : CarryClass) (r : Elem) : List Byte :=
  match cls with
  | .l =>
    if r.acc = 0 then le 1 (eflOf cls r) ++ le 2 0
    else
      let lo := lowByte r.acc.natAbs 80 0
      let v := r.acc / ((256 ^ lo : Nat) : Int)
      let nb := signedBytes v 80 1
      le 1 (eflOf cls r) ++ le 1 lo ++ le 1 nb ++ le nb (ofSigned (8 * nb) v)
  | .a => le 1 (eflOf cls r) ++ le 8 r.val ++ le 2 r.rank
  | _ => le 1 (eflOf cls r) ++ le 8 r.val

/-- A record read from the front of bytes, with the bytes that follow; none where it breaks Table 9-9 or R577. -/
def readRecord (cls : CarryClass) (d : List Byte) : Option (Elem × List Byte) :=
  match d with
  | [] => none
  | b :: rest =>
    let efl := b.toNat
    let base : Elem := { nan := bit efl 0, psn := bit efl 4, empty := bit efl 5, allnz := false }
    if 64 ≤ efl then none
    else match cls with
      | .l =>
        if rest.length < 2 then none
        else
          let lo := field rest 0 1
          let nb := field rest 1 1
          if 80 ≤ lo ∨ 80 < lo + nb ∨ rest.length < 2 + nb then none
          else
            let v := toSigned (8 * nb) (field rest 2 nb)
            some ({ base with pinf := bit efl 1, ninf := bit efl 2, allnz := bit efl 3
                              acc := if nb = 0 then 0 else v * ((256 ^ lo : Nat) : Int) }, rest.drop (2 + nb))
      | c =>
        let n := if c = .a then 10 else 8
        if bit efl 1 || bit efl 2 || bit efl 3 || decide (rest.length < n) then none
        else some ({ base with val := field rest 0 8, rank := if c = .a then field rest 8 2 else 0 }, rest.drop n)

/-- `n` records read from the front of bytes. -/
def readRecords (cls : CarryClass) : Nat → List Byte → Option (List Elem × List Byte)
  | 0, d => some ([], d)
  | n + 1, d =>
    match readRecord cls d with
    | some (r, rest) => (readRecords cls n rest).map fun (rs, t) => (r :: rs, t)
    | none => none

/-- A child's record merged into an element (R262, R577). -/
def mergeElem (cop fmt : Nat) (r x : Elem) : Elem :=
  if carryClass cop fmt = .l then
    { r with acc := wrapAcc (r.acc + x.acc), nan := r.nan || x.nan, pinf := r.pinf || x.pinf, ninf := r.ninf || x.ninf
             psn := r.psn || x.psn, allnz := r.allnz && x.allnz, empty := r.empty && x.empty }
  else
    let r := { r with psn := r.psn || x.psn }
    if x.empty then r
    else if x.nan then joinNan fmt r x.rank
    else joinValue cop fmt r x.val x.rank

/-- A result element's bytes (R257, R258, R263); none when it is poison. -/
def resultElem (cop fmt rfmt : Nat) (rz sat : Bool) (r : Elem) : Option (List Byte) :=
  if carryClass cop fmt = .l then (roundElem (floatFmt rfmt) rz sat r).map fun v => le (inBytes rfmt) v
  else if r.psn then none
  else if cop = 4 ∨ cop = 5 then some (le 8 (r.val % 2 ^ inWidth fmt) ++ le 2 r.rank ++ zeros 6)
  else some (le (inBytes fmt) (r.val % 2 ^ inWidth fmt))

/-! ### FP64 (R259, R576) -/

/-- One level of the tree over ranks. -/
def treeLevel (rz : Bool) : List Nat → List Nat
  | a :: b :: r => addFloat fFP64 rz a b :: treeLevel rz r
  | l => l

/-- The root of the tree, within `fuel` levels. -/
def treeRoot (rz : Bool) : Nat → List Nat → Nat
  | 0, l => l.headD 0
  | fuel + 1, l => if l.length ≤ 1 then l.headD 0 else treeRoot rz fuel (treeLevel rz l)

/-- The result of one element from its ranks' values, `none` for a rank that skipped. -/
def fp64Result (rz : Bool) (vs : List (Option Nat)) : Nat :=
  if vs.all (·.isNone) then 0
  else
    let r := treeRoot rz 17 (vs.map fun v => v.getD (2 ^ 63))
    if isNanIn fFP64 r then canonNan fFP64 else r

/-! ### EXP2 and the merge of attention partials (R352, R353, R362) -/

/-- T[j] of the bead parameter table. -/
def exp2Table : List Nat :=
  [1073741824, 1085434106, 1097253708, 1109202018, 1121280436, 1133490379, 1145833280, 1158310587]
    ++ [1170923762, 1183674286, 1196563654, 1209593378, 1222764986, 1236080024, 1249540052, 1263146652]
    ++ [1276901417, 1290805962, 1304861917, 1319070932, 1333434672, 1347954824, 1362633090, 1377471191]
    ++ [1392470869, 1407633882, 1422962010, 1438457051, 1454120821, 1469955159, 1485961921, 1502142985]
    ++ [1518500250, 1535035634, 1551751076, 1568648537, 1585730000, 1602997467, 1620452965, 1638098541]
    ++ [1655936265, 1673968228, 1692196547, 1710623359, 1729250827, 1748081133, 1767116489, 1786359126]
    ++ [1805811301, 1825475297, 1845353420, 1865448001, 1885761398, 1906295993, 1927054196, 1948038440]
    ++ [1969251188, 1990694927, 2012372174, 2034285470, 2056437387, 2078830522, 2101467502, 2124350982]

/-- C1, C2 and C3. -/
def exp2C : List Nat := [744261118, 257941248, 59597083]

/-- floor(2^30 × m × 2^e) for a number below 1. -/
def fixed30 (m : Nat) (e : Int) : Nat := if 0 ≤ e + 30 then m <<< (e + 30).toNat else m >>> (-(e + 30)).toNat

/-- EXP2 of a binary32 t ≤ 0 (R353). -/
def exp2 (t : Nat) : Nat :=
  match decodeFloat fFP32 t with
  | .fin neg m e =>
    -- |t| = m × 2^e; t below −126 gives +0
    let big := if 0 ≤ e then decide (126 < m <<< e.toNat) else decide (126 <<< (-e).toNat < m)
    if big && neg then 0
    else
      let fl := if 0 ≤ e then m <<< e.toNat else m >>> (-e).toNat
      let rest := if 0 ≤ e then 0 else m % 2 ^ (-e).toNat
      -- t = −(fl + rest × 2^e): n = −fl when rest is 0, else −fl − 1, and f = t − n
      let n : Int := if rest = 0 then -(fl : Int) else -(fl : Int) - 1
      let fm := if rest = 0 then 0 else 2 ^ (-e).toNat - rest
      let j := fm <<< 6 >>> (-e).toNat
      let r := fixed30 fm e - 2 ^ 24 * j
      let a := exp2C.getD 2 0
      let a := exp2C.getD 1 0 + a * r / 2 ^ 30
      let a := exp2C.getD 0 0 + a * r / 2 ^ 30
      let p := 2 ^ 30 + a * r / 2 ^ 30
      let mm := (exp2Table.getD j 0 * p + 2 ^ 29) / 2 ^ 30
      roundFloat fFP32 false false false mm (n - 30) false
  | _ => 0

/-- Sum, difference and product of binary32 patterns, rounded by RNE32 (R352). -/
def add32 (a b : Nat) : Nat := addFloat fFP32 false a b
def neg32 (a : Nat) : Nat := a ^^^ 0x80000000
def mul32 (a b : Nat) : Nat := encodeNum fFP32 false false (mulNum (decodeFloat fFP32 a) (decodeFloat fFP32 b))

/-- Whether one binary32 value is greater than another, neither NaN. -/
def gt32 (a b : Nat) : Bool :=
  let za := a % 2 ^ 31 = 0
  let zb := b % 2 ^ 31 = 0
  if za && zb then false else decide (orderKey fFP32 b < orderKey fFP32 a)

/-- The state of a query's merge. -/
structure Merge where
  m : Nat := 0xFF800000
  s : Nat := 0
  o : List Nat := []
  nan : Bool := false
  psn : Bool := false
  deriving DecidableEq, Repr

/-- A block's partial of one query: poison, or m, s and o. -/
def mergeBlock (st : Merge) (part : List Byte) (poison : Bool) : Merge :=
  let m := field part 0 4
  let s := field part 4 4
  if poison then { st with psn := true }
  else if isNanIn fFP32 m then { st with nan := true }
  else if s % 2 ^ 31 = 0 then st
  else
    let o := (List.range st.o.length).map fun e => field part (8 + 4 * e) 4
    if gt32 m st.m then
      let a := exp2 (add32 st.m (neg32 m))
      { st with s := add32 (mul32 st.s a) s, o := List.zipWith (fun x y => add32 (mul32 x a) y) st.o o, m := m }
    else
      let c := exp2 (add32 m (neg32 st.m))
      { st with s := add32 st.s (mul32 s c), o := List.zipWith (fun x y => add32 x (mul32 y c)) st.o o }

/-- The exact quotient of two binary32 values rounded once into a format (R362). -/
def divRound (f : FloatFmt) (rz : Bool) (a b : Nat) : Nat :=
  match decodeFloat fFP32 a, decodeFloat fFP32 b with
  | .fin n1 m1 e1, .fin n2 m2 e2 =>
    if m2 = 0 then canonNan f
    else
      let sh := 300
      let q := (m1 <<< sh) / m2
      roundFloat f rz false (n1 != n2) q (e1 - e2 - (sh : Int)) (decide (m1 <<< sh % m2 ≠ 0))
  | .nan, _ | _, .nan => canonNan f
  | .inf n1, .fin n2 _ _ => encodeInf f (n1 != n2)
  | .fin n1 _ _, .inf n2 => encodeZero f (n1 != n2)
  | .inf _, .inf _ => canonNan f

/-- A query's result after its merge: o in the result format, then M and S; none when it is poison. -/
def mergeResult (rfmt : Nat) (rz : Bool) (st : Merge) : Option (List Byte) :=
  let f := floatFmt rfmt
  let w := inBytes rfmt
  if st.psn then none
  else if st.nan then some (st.o.flatMap (fun _ => le w (canonNan f)) ++ le 4 (canonNan fFP32) ++ le 4 (canonNan fFP32))
  else if st.s % 2 ^ 31 = 0 then some (st.o.flatMap (fun _ => le w 0) ++ le 4 0xFF800000 ++ le 4 0)
  else some (st.o.flatMap (fun x => le w (divRound f rz x st.s)) ++ le 4 st.m ++ le 4 st.s)

end Sys2Proof.Machine
end

