-- ==== Sys2Proof/Machine/Crypto.lean ====
section
/-! DEFINITION. The named cryptographic functions the module computes (R406, R408, R483): AES-256, its XTS and GCM modes, and the Keccak functions SHAKE256 and KMAC256.
They are written from the standards the spec names (log entry 10); signatures and key encapsulation are constants of Config. -/

namespace Sys2Proof.Machine

/-! ### AES-256 (FIPS 197) -/

/-- Multiplication by x in GF(2^8). -/
def gfDouble (a : Nat) : Nat := if a < 128 then 2 * a else (2 * a - 256) ^^^ 0x1B

/-- Multiplication in GF(2^8), by the bits of `b` from `n` down. -/
def gfMulBits (a b : Nat) : Nat → Nat
  | 0 => 0
  | n + 1 => gfDouble (gfMulBits a b n) ^^^ (if b.testBit (7 - n) then a else 0)

/-- Multiplication in GF(2^8). -/
def gfMul (a b : Nat) : Nat := gfMulBits a b 8

/-- The inverse in GF(2^8), a^254, with 0 for 0. -/
def gfInv (a : Nat) : Nat :=
  let a2 := gfMul a a
  let a4 := gfMul a2 a2
  let a8 := gfMul a4 a4
  let a16 := gfMul a8 a8
  let a32 := gfMul a16 a16
  let a64 := gfMul a32 a32
  let a128 := gfMul a64 a64
  gfMul a128 (gfMul a64 (gfMul a32 (gfMul a16 (gfMul a8 (gfMul a4 a2)))))

/-- A byte rotated left. -/
def rotByte (a n : Nat) : Nat := (a <<< n ||| a >>> (8 - n)) % 256

/-- The S-box. -/
def subByte (a : Nat) : Nat :=
  let b := gfInv a
  b ^^^ rotByte b 1 ^^^ rotByte b 2 ^^^ rotByte b 3 ^^^ rotByte b 4 ^^^ 0x63

/-- The inverse S-box. -/
def invSubByte (a : Nat) : Nat := gfInv (rotByte a 1 ^^^ rotByte a 3 ^^^ rotByte a 6 ^^^ 0x05)

/-- The 60 words of the AES-256 key schedule, newest first. -/
def keyWords (key : List Nat) : Nat → List (List Nat)
  | 0 => (List.range 8).reverse.map fun i => (key.drop (4 * i)).take 4
  | n + 1 =>
    let ws := keyWords key n
    let i := n + 8
    let prev := ws.headD []
    let t :=
      if i % 8 = 0 then
        let r := (prev.drop 1 ++ prev.take 1).map subByte
        (r.headD 0 ^^^ 2 ^ (i / 8 - 1)) :: r.drop 1
      else if i % 8 = 4 then prev.map subByte
      else prev
    List.zipWith (· ^^^ ·) (ws.getD 7 []) t :: ws

/-- The fifteen round keys of 16 bytes. -/
def roundKeys (key : List Nat) : List (List Nat) :=
  let w := (keyWords key 52).reverse
  (List.range 15).map fun r => ((w.drop (4 * r)).take 4).flatten

/-- Exclusive or of two byte lists. -/
def xorList (a b : List Nat) : List Nat := List.zipWith (· ^^^ ·) a b

/-- ShiftRows, and its inverse with `n` = 3. -/
def shiftRows (n : Nat) (st : List Nat) : List Nat :=
  (List.range 16).map fun i => st.getD ((i / 4 + n * (i % 4)) % 4 * 4 + i % 4) 0

/-- MixColumns with the given first row. -/
def mixColumns (row : List Nat) (st : List Nat) : List Nat :=
  (List.range 16).map fun i =>
    (List.range 4).foldl (fun a j => a ^^^ gfMul (row.getD ((j + 4 - i % 4) % 4) 0) (st.getD (i / 4 * 4 + j) 0)) 0

/-- AES-256 encryption of a 16-byte block. -/
def aesEncrypt (key blk : List Nat) : List Nat :=
  let ks := roundKeys key
  let st := xorList blk (ks.getD 0 [])
  let st := (List.range 13).foldl (fun st r => xorList (mixColumns [2, 3, 1, 1] (shiftRows 1 (st.map subByte))) (ks.getD (r + 1) [])) st
  xorList (shiftRows 1 (st.map subByte)) (ks.getD 14 [])

/-- AES-256 decryption of a 16-byte block. -/
def aesDecrypt (key blk : List Nat) : List Nat :=
  let ks := roundKeys key
  let st := xorList blk (ks.getD 14 [])
  let st := (List.range 13).foldl
    (fun st r => mixColumns [14, 11, 13, 9] (xorList ((shiftRows 3 st).map invSubByte) (ks.getD (13 - r) []))) st
  xorList ((shiftRows 3 st).map invSubByte) (ks.getD 0 [])

/-! ### XTS (IEEE Std 1619) -/

/-- The value of a little-endian byte list. -/
def leValue (l : List Nat) : Nat := l.foldr (fun b a => b + 256 * a) 0

/-- The `n` little-endian bytes of a value. -/
def leList (n v : Nat) : List Nat := (List.range n).map fun i => v / 256 ^ i % 256

/-- The tweak of the next block. -/
def xtsNext (t : List Nat) : List Nat :=
  let v := 2 * leValue t
  leList 16 (if v < 2 ^ 128 then v else (v - 2 ^ 128) ^^^ 0x87)

/-- A data unit of whole blocks run through XTS with a block function. -/
def xtsBlocks (f : List Nat → List Nat) : Nat → List Nat → List Nat → List Nat
  | 0, _, _ => []
  | n + 1, t, d => xorList (f (xorList (d.take 16) t)) t ++ xtsBlocks f n (xtsNext t) (d.drop 16)

/-- Bytes as numbers, and back. -/
def nats (l : List Byte) : List Nat := l.map (·.toNat)
def bytesOf (l : List Nat) : List Byte := l.map fun n => BitVec.ofNat 8 n

/-- AES-256-XTS of a 128-byte line with the tweak its pool address (R408). -/
def xtsEncrypt (k1 k2 : List Byte) (tweak : Nat) (d : List Byte) : List Byte :=
  bytesOf (xtsBlocks (aesEncrypt (nats k1)) (d.length / 16) (aesEncrypt (nats k2) (leList 16 tweak)) (nats d))

/-- The inverse of `xtsEncrypt`. -/
def xtsDecrypt (k1 k2 : List Byte) (tweak : Nat) (d : List Byte) : List Byte :=
  bytesOf (xtsBlocks (aesDecrypt (nats k1)) (d.length / 16) (aesEncrypt (nats k2) (leList 16 tweak)) (nats d))

/-! ### GCM (NIST SP 800-38D) -/

/-- The value of a big-endian byte list, and the `n` big-endian bytes of a value. -/
def beValue (l : List Nat) : Nat := l.foldl (fun a b => 256 * a + b) 0
def beList (n v : Nat) : List Nat := (leList n v).reverse

/-- Multiplication of blocks in GF(2^128), by the bits of `x` from the most significant, `n` of them left. -/
def ghashMul (x : Nat) : Nat → Nat → Nat → Nat
  | 0, z, _ => z
  | n + 1, z, v => ghashMul x n (if x.testBit n then z ^^^ v else z) (if v % 2 = 1 then v / 2 ^^^ 0xE1 * 2 ^ 120 else v / 2)

/-- GHASH with key `h` from `y` on, over blocks of 16 bytes; `n` bounds them. -/
def ghash (h : Nat) : Nat → Nat → List Nat → Nat
  | 0, y, _ => y
  | n + 1, y, d => if d = [] then y else ghash h n (ghashMul (y ^^^ beValue ((d ++ List.replicate 15 0).take 16)) 128 0 h) (d.drop 16)

/-- Counter mode from a block on; `n` bounds the blocks. -/
def ctrMode (key : List Nat) : Nat → Nat → List Nat → List Nat
  | 0, _, _ => []
  | n + 1, c, d => if d = [] then [] else
      xorList (d.take 16) (aesEncrypt key (beList 16 c)) ++ ctrMode key n (c / 2 ^ 32 * 2 ^ 32 + (c + 1) % 2 ^ 32) (d.drop 16)

/-- AES-256-GCM opened with a 12-byte IV: the plaintext where the tag holds. -/
def gcmOpen (key iv aad cipher tag : List Byte) : Option (List Byte) :=
  let k := nats key
  let h := beValue (aesEncrypt k (List.replicate 16 0))
  let j := beValue (nats iv ++ [0, 0, 0, 1])
  let y := ghash h aad.length 0 (nats aad)
  let y := ghash h cipher.length y (nats cipher)
  let y := ghash h 1 y (beList 8 (8 * aad.length) ++ beList 8 (8 * cipher.length))
  let e := beValue (aesEncrypt k (beList 16 j))
  if beList 16 (y ^^^ e) = nats tag then some (bytesOf (ctrMode k (cipher.length / 16 + 1) (j / 2 ^ 32 * 2 ^ 32 + (j + 1) % 2 ^ 32) (nats cipher)))
  else none

/-! ### Keccak (FIPS 202, NIST SP 800-185) -/

/-- A 64-bit lane rotated left. -/
def rotLane (v n : Nat) : Nat := (v <<< (n % 64) ||| v >>> (64 - n % 64)) % 2 ^ 64

/-- The rotation of lane (x, y), at index x + 5y. -/
def rhoOffsets : List Nat :=
  [0, 1, 62, 28, 27, 36, 44, 6, 55, 20, 3, 10, 43, 25, 39, 41, 45, 15, 21, 8, 18, 2, 61, 56, 14]

/-- The round constants. -/
def roundConstants : List Nat :=
  [0x0000000000000001, 0x0000000000008082, 0x800000000000808A, 0x8000000080008000, 0x000000000000808B, 0x0000000080000001,
   0x8000000080008081, 0x8000000000008009, 0x000000000000008A, 0x0000000000000088, 0x0000000080008009, 0x000000008000000A]
  ++ [0x000000008000808B, 0x800000000000008B, 0x8000000000008089, 0x8000000000008003, 0x8000000000008002, 0x8000000000000080,
   0x000000000000800A, 0x800000008000000A, 0x8000000080008081, 0x8000000000008080, 0x0000000080000001, 0x8000000080008008]

/-- One round of Keccak-f[1600] on 25 lanes. -/
def keccakRound (a : List Nat) (rc : Nat) : List Nat :=
  let at_ (i : Nat) : Nat := a.getD i 0
  let c := (List.range 5).map fun x => at_ x ^^^ at_ (x + 5) ^^^ at_ (x + 10) ^^^ at_ (x + 15) ^^^ at_ (x + 20)
  let d := (List.range 5).map fun x => c.getD ((x + 4) % 5) 0 ^^^ rotLane (c.getD ((x + 1) % 5) 0) 1
  let e := (List.range 25).map fun i => rotLane (at_ i ^^^ d.getD (i % 5) 0) (rhoOffsets.getD i 0)
  -- pi: lane (y, 2x + 3y) takes lane (x, y)
  let b := (List.range 25).map fun i => e.getD ((i % 5 + 3 * (i / 5)) % 5 + 5 * (i % 5)) 0
  let f := (List.range 25).map fun i =>
    b.getD i 0 ^^^ ((2 ^ 64 - 1 - b.getD (i / 5 * 5 + (i + 1) % 5) 0) &&& b.getD (i / 5 * 5 + (i % 5 + 2) % 5) 0)
  match f with
  | x :: r => (x ^^^ rc) :: r
  | [] => []

/-- Keccak-f[1600]. -/
def keccakF (a : List Nat) : List Nat := roundConstants.foldl keccakRound a

/-- Absorb 136-byte blocks. -/
def absorb : Nat → List Nat → List Nat → List Nat
  | 0, a, _ => a
  | n + 1, a, m =>
    let blk := (List.range 17).map fun i => leValue ((m.drop (8 * i)).take 8)
    absorb n (keccakF (xorList a (blk ++ List.replicate 8 0))) (m.drop 136)

/-- Squeeze blocks of 136 bytes. -/
def squeeze : Nat → List Nat → List Nat
  | 0, _ => []
  | n + 1, a => ((a.take 17).flatMap (leList 8)) ++ squeeze n (keccakF a)

/-- Keccak with capacity 512, a domain suffix byte and `n` bytes of output. -/
def keccak512 (suffix : Nat) (m : List Nat) (n : Nat) : List Nat :=
  let k := m.length / 136 + 1
  let pad := m ++ [suffix] ++ List.replicate (136 * k - m.length - 1) 0
  let last := 136 * k - 1
  let pad := pad.take last ++ [pad.getD last 0 ^^^ 0x80]
  (squeeze ((n + 135) / 136) (absorb k (List.replicate 25 0) pad)).take n

/-- SHAKE256 with `n` bytes of output. -/
def shake256 (m : List Byte) (n : Nat) : List Byte := bytesOf (keccak512 0x1F (nats m) n)

/-- left_encode and right_encode of SP 800-185, for values below 2^24. -/
def encodeLen (v : Nat) : List Nat :=
  if v < 256 then [v] else if v < 65536 then [v / 256, v % 256] else [v / 65536, v / 256 % 256, v % 256]
def leftEncode (v : Nat) : List Nat := (encodeLen v).length :: encodeLen v
def rightEncode (v : Nat) : List Nat := encodeLen v ++ [(encodeLen v).length]
def encodeString (s : List Nat) : List Nat := leftEncode (8 * s.length) ++ s
def bytepad (x : List Nat) : List Nat :=
  let y := leftEncode 136 ++ x
  y ++ List.replicate ((136 - y.length % 136) % 136) 0

/-- KMAC256 (SP 800-185) with `n` bytes of output. -/
def kmac256 (key x : List Byte) (n : Nat) (custom : List Nat) : List Byte :=
  let m := bytepad (encodeString (nats key)) ++ nats x ++ rightEncode (8 * n)
  bytesOf (keccak512 0x04 (bytepad (encodeString [0x4B, 0x4D, 0x41, 0x43] ++ encodeString custom) ++ m) n)

/-- The ASCII string "KYD-1280 LINE" (R408). -/
def lineCustom : List Nat := [0x4B, 0x59, 0x44, 0x2D, 0x31, 0x32, 0x38, 0x30, 0x20, 0x4C, 0x49, 0x4E, 0x45]

/-- The 8-byte tag of a protected line (R408). -/
def lineTag (km : List Byte) (a : Nat) (cipher : List Byte) : List Byte := kmac256 km (le 8 a ++ cipher) 8 lineCustom

end Sys2Proof.Machine
end

