-- ==== Sys2Proof/Machine/Flags.lean ====
section
/-! DEFINITION. The registers: the map of Table 19-1, the fields of every register with their kinds and reset values (R8, R543 to R546 and the register tables of the chapters), the values in force, the event bits and the counters. -/

namespace Sys2Proof.Machine

/-- The field kinds of Table 0-2. -/
inductive Kind where
  | live | staged | locked | ro | w1c
  deriving DecidableEq, Repr

/-- A field of a register: its lowest bit, width, kind and reset value. -/
structure Fld where
  lo : Nat
  width : Nat
  kind : Kind
  reset : Nat := 0
  deriving DecidableEq, Repr

/-- A run of registers of Table 19-1: the block's base, the first address, how many, and the fields of the one at an index. -/
structure RegRow where
  block : Nat
  base : Nat
  count : Nat
  fields : Nat → List Fld

/-! ### Addresses (Table 19-1) -/

def aIDENTITY : Nat := 0x00000000
def aIDENTITY_SECURITY : Nat := 0x00000020
def aSTATUS : Nat := 0x00010000
def aSUPPLY : Nat := 0x00020000
def aSUPPLY_SHED : Nat := 0x0002000C
def aSUPPLY_CORE (n : Nat) : Nat := 0x00020020 + 4 * n
def aSUPPLY_RAIL (n : Nat) : Nat := 0x00020040 + 4 * n
def aTHERMAL : Nat := 0x00030000
def aTHERMAL_CFG : Nat := 0x00030000
def aTIME_STATUS : Nat := 0x00040008
def aRECKONER_STATUS : Nat := 0x00050000
def aEVENT_CFG : Nat := 0x00060000
def aDRILL_CFG : Nat := 0x00070000
def aDRILL_STATUS : Nat := 0x00070004
def aMAP_STATUS : Nat := 0x00080000
def aMAP_NODE : Nat := 0x00080004
def aHEALTH_CARRY (n : Nat) : Nat := 0x00090000 + 4 * n
def aHEALTH_SIEVE (n : Nat) : Nat := 0x00090200 + 4 * n
def aHEALTH_MOVER (n : Nat) : Nat := 0x00090300 + 4 * n
def aHEALTH_DIE (n : Nat) : Nat := 0x00090400 + 4 * n
def aPORT_CFG (n : Nat) : Nat := 0x00100000 + 4 * n
def aPORT_ADMIT_RATE (n : Nat) : Nat := 0x00100100 + 4 * n
def aLPORT_STATUS (q : Nat) : Nat := 0x00101000 + 4 * q
def aLPORT_ROLE (q : Nat) : Nat := 0x00102000 + 4 * q
def aROD_STATUS (n : Nat) : Nat := 0x00110000 + 4 * n
def aROD_WINDOW_CFG : Nat := 0x00110100
def aMEMOP_CFG : Nat := 0x00120000
def aDIR_CFG : Nat := 0x00130000
def aDIR_AGENT_STATUS (n : Nat) : Nat := 0x00130100 + 4 * n
def aNEAR_CFG : Nat := 0x00140000
def aNEAR_RESIDENT (n : Nat) : Nat := 0x00140020 + 4 * n
def aCARRY_CFG : Nat := 0x00150000
def aSIEVE_CFG : Nat := 0x00160000
def aMOVER_CFG : Nat := 0x00170000
def aMOVER_CH_STATUS (n : Nat) : Nat := 0x00170100 + 4 * n
def aBEAD_CFG : Nat := 0x00180000
def aBEAD_CH_STATUS (n : Nat) : Nat := 0x00180200 + 4 * n
def aBEAD_READY (n : Nat) : Nat := 0x00180400 + 4 * n
def aQUEUE_CFG (n : Nat) : Nat := 0x00200000 + 4 * n
def aAQM_PROFILE (n : Nat) : Nat := 0x00200100 + 4 * n
def aQUEUE_PARAM (n : Nat) : Nat := 0x00210000 + 4 * n
def aQUEUE_SHAPE (n : Nat) : Nat := 0x00218000 + 4 * n
def aQUEUE_DEPTH (n : Nat) : Nat := 0x00220000 + 4 * n
def aPOLICE_RATE (n : Nat) : Nat := 0x00228000 + 4 * n
def aPOLICE_BURST (n : Nat) : Nat := 0x0022C000 + 4 * n
def aTALLY_CFG (n : Nat) : Nat := 0x00280000 + 4 * n
def aTALLY_HEAD (n : Nat) : Nat := 0x00280010 + 4 * n
def aTALLY_TAIL (n : Nat) : Nat := 0x00280020 + 4 * n
def aTALLY_DST (n : Nat) : Nat := 0x00280030 + 4 * n
def aTEL : Nat := 0x00300000
def aHS : Nat := 0x00380000

/-- The blocks: base, size (Table 19-1). -/
def blocks : List (Nat × Nat) :=
  [(0x00000000, 0x10000), (0x00010000, 0x10000), (0x00020000, 0x10000), (0x00030000, 0x10000), (0x00040000, 0x10000),
   (0x00050000, 0x10000), (0x00060000, 0x10000), (0x00070000, 0x10000), (0x00080000, 0x10000), (0x00090000, 0x10000),
   (0x00100000, 0x10000), (0x00110000, 0x10000), (0x00120000, 0x10000), (0x00130000, 0x10000), (0x00140000, 0x10000),
   (0x00150000, 0x10000), (0x00160000, 0x10000), (0x00170000, 0x10000), (0x00180000, 0x10000), (0x00200000, 0x40000),
   (0x00280000, 0x10000), (0x00300000, 0x80000), (0x00380000, 0x10000)]

/-- The block an address lies in, by its base. -/
def blockOf (a : Nat) : Option Nat :=
  (blocks.find? fun b => b.1 ≤ a ∧ a < b.1 + b.2).map (·.1)

/-- The strict and weight values of Table 13-2 by class. -/
def wfqReset (t : Nat) : Nat × Nat :=
  if t = 0 ∨ t = 5 then (0, 32) else if t = 3 then (0, 16) else if t = 4 then (0, 8) else if t = 7 then (0, 1) else (1, 1)

/-- The fields of Table 19-7 that every unit's register holds. -/
def unitFields (k : Nat) (i : Nat) : List Fld :=
  [⟨0, 5, .ro, i % k⟩, ⟨5, 2, .ro, 0⟩, ⟨7, 8, .ro, 255⟩, ⟨15, 6, .ro, 0⟩, ⟨21, 1, .w1c, 0⟩, ⟨22, 1, .w1c, 0⟩]

/-- Every register that is not a counter, in ascending address. -/
def regRows : List RegRow :=
  [⟨0, 0x00000000, 8, fun _ => [⟨0, 32, .ro, 0⟩]⟩,
   ⟨0, 0x00000020, 1, fun _ => [⟨0, 15, .ro, 0⟩, ⟨15, 8, .live, 64⟩, ⟨23, 1, .w1c, 0⟩, ⟨24, 1, .w1c, 0⟩]⟩,
   ⟨0x10000, 0x00010000, 3, fun _ => [⟨0, 32, .ro, 0⟩]⟩,
   ⟨0x20000, 0x00020000, 3, fun _ => [⟨0, 32, .ro, 0⟩]⟩,
   ⟨0x20000, 0x0002000C, 1, fun _ => [⟨0, 7, .ro, 0⟩, ⟨7, 1, .w1c, 0⟩, ⟨8, 7, .live, 50⟩, ⟨15, 1, .w1c, 0⟩, ⟨16, 1, .w1c, 0⟩, ⟨17, 1, .w1c, 0⟩]⟩,
   ⟨0x20000, 0x00020010, 1, fun _ => [⟨0, 32, .ro, 0⟩]⟩,
   ⟨0x20000, 0x00020020, 4, fun _ => [⟨0, 10, .ro, 750⟩, ⟨10, 10, .live, 600⟩, ⟨20, 8, .ro, 0⟩, ⟨28, 1, .w1c, 0⟩, ⟨29, 1, .w1c, 0⟩, ⟨30, 2, .ro, 0⟩]⟩,
   ⟨0x20000, 0x00020040, 9, fun _ => [⟨0, 25, .ro, 0⟩, ⟨25, 1, .w1c, 0⟩]⟩,
   ⟨0x30000, 0x00030000, 1, fun _ => [⟨0, 8, .live, 100⟩, ⟨8, 1, .w1c, 0⟩]⟩,
   ⟨0x30000, 0x00030004, 1, fun _ => [⟨0, 19, .ro, 0⟩]⟩,
   ⟨0x30000, 0x00030040, 13, fun _ => [⟨0, 19, .ro, 0⟩]⟩,
   ⟨0x40000, 0x00040000, 2, fun _ => [⟨0, 32, .ro, 0⟩]⟩,
   ⟨0x40000, 0x00040008, 1, fun _ => [⟨0, 1, .ro, 0⟩, ⟨1, 1, .w1c, 0⟩, ⟨16, 16, .ro, 0⟩]⟩,
   ⟨0x50000, 0x00050000, 1, fun _ => [⟨0, 16, .ro, 0⟩, ⟨16, 1, .w1c, 0⟩, ⟨17, 1, .w1c, 0⟩, ⟨18, 1, .w1c, 0⟩, ⟨19, 1, .w1c, 0⟩]⟩,
   ⟨0x60000, 0x00060000, 1, fun _ => [⟨0, 8, .live, 10⟩, ⟨8, 1, .w1c, 0⟩, ⟨9, 1, .ro, 0⟩]⟩,
   ⟨0x70000, 0x00070000, 1, fun _ => [⟨0, 1, .live, 1⟩, ⟨1, 8, .live, 10⟩]⟩,
   ⟨0x70000, 0x00070004, 1, fun _ => [⟨0, 6, .ro, 0⟩, ⟨6, 1, .w1c, 0⟩, ⟨16, 16, .ro, 0⟩]⟩,
   ⟨0x80000, 0x00080000, 1, fun _ => [⟨0, 22, .ro, 0⟩, ⟨22, 1, .w1c, 0⟩, ⟨23, 1, .w1c, 0⟩, ⟨24, 1, .w1c, 0⟩, ⟨25, 1, .w1c, 0⟩]⟩,
   ⟨0x80000, 0x00080004, 1, fun _ => [⟨0, 16, .ro, 0xFFFF⟩]⟩,
   ⟨0x90000, 0x00090000, 96, unitFields 24⟩,
   ⟨0x90000, 0x00090200, 64, unitFields 16⟩,
   ⟨0x90000, 0x00090300, 32, unitFields 8⟩,
   ⟨0x90000, 0x00090400, 4, fun _ => [⟨0, 18, .ro, 0⟩, ⟨18, 1, .w1c, 0⟩]⟩,
   ⟨0x100000, 0x00100000, 64, fun _ => [⟨0, 2, .locked, 0⟩, ⟨2, 1, .locked, 0⟩, ⟨3, 1, .locked, 1⟩, ⟨4, 8, .live, 0xFF⟩, ⟨12, 4, .live, 1⟩, ⟨16, 8, .live, 30⟩]⟩,
   ⟨0x100000, 0x00100100, 64, fun _ => [⟨0, 8, .live, 200⟩]⟩,
   ⟨0x100000, 0x00101000, 512, fun _ => [⟨0, 24, .ro, 0⟩, ⟨24, 1, .w1c, 0⟩, ⟨25, 1, .w1c, 0⟩, ⟨26, 1, .w1c, 0⟩, ⟨27, 1, .ro, 0⟩]⟩,
   ⟨0x100000, 0x00102000, 512, fun _ => [⟨0, 3, .locked, 0⟩]⟩,
   ⟨0x110000, 0x00110000, 64, unitFields 16⟩,
   ⟨0x110000, 0x00110100, 1, fun _ => [⟨0, 8, .live, 10⟩, ⟨8, 1, .w1c, 0⟩, ⟨9, 1, .w1c, 0⟩, ⟨10, 1, .w1c, 0⟩]⟩,
   ⟨0x120000, 0x00120000, 1, fun _ => [⟨0, 6, .locked, 4⟩, ⟨6, 1, .live, 1⟩, ⟨7, 1, .live, 1⟩, ⟨8, 1, .w1c, 0⟩, ⟨9, 1, .w1c, 0⟩]⟩,
   ⟨0x130000, 0x00130000, 1, fun _ => [⟨0, 8, .live, 10⟩, ⟨8, 1, .live, 1⟩, ⟨9, 1, .w1c, 0⟩, ⟨10, 1, .w1c, 0⟩, ⟨11, 1, .w1c, 0⟩]⟩,
   ⟨0x130000, 0x00130100, 64, fun _ => [⟨0, 27, .ro, 0⟩, ⟨27, 1, .w1c, 0⟩]⟩,
   ⟨0x140000, 0x00140000, 1, fun _ => [⟨0, 8, .staged, 32⟩, ⟨8, 7, .staged, 75⟩, ⟨15, 2, .staged, 2⟩, ⟨17, 1, .ro, 0⟩, ⟨18, 1, .w1c, 0⟩, ⟨19, 1, .w1c, 0⟩, ⟨20, 1, .w1c, 0⟩, ⟨21, 1, .w1c, 0⟩]⟩,
   ⟨0x140000, 0x00140020, 8, fun _ => [⟨0, 16, .locked, 0⟩]⟩,
   ⟨0x150000, 0x00150000, 1, fun _ => [⟨0, 7, .live, 90⟩, ⟨7, 1, .w1c, 0⟩, ⟨8, 1, .w1c, 0⟩, ⟨9, 1, .w1c, 0⟩, ⟨10, 1, .w1c, 0⟩, ⟨11, 1, .w1c, 0⟩, ⟨12, 1, .w1c, 0⟩]⟩,
   ⟨0x160000, 0x00160000, 1, fun _ => [⟨0, 5, .live, 16⟩, ⟨5, 1, .ro, 0⟩, ⟨6, 1, .w1c, 0⟩, ⟨7, 1, .w1c, 0⟩, ⟨8, 1, .w1c, 0⟩, ⟨9, 1, .w1c, 0⟩]⟩,
   ⟨0x170000, 0x00170000, 1, fun _ => [⟨0, 1, .live, 1⟩, ⟨1, 1, .ro, 0⟩, ⟨2, 1, .w1c, 0⟩, ⟨3, 1, .w1c, 0⟩]⟩,
   ⟨0x170000, 0x00170100, 128, fun _ => [⟨0, 21, .ro, 0⟩, ⟨21, 1, .w1c, 0⟩, ⟨22, 1, .w1c, 0⟩]⟩,
   ⟨0x180000, 0x00180000, 1, fun _ => [⟨0, 7, .live, 96⟩, ⟨7, 8, .live, 50⟩, ⟨15, 1, .w1c, 0⟩, ⟨16, 1, .w1c, 0⟩, ⟨17, 1, .w1c, 0⟩, ⟨18, 1, .w1c, 0⟩]⟩,
   ⟨0x180000, 0x00180200, 128, fun _ => [⟨0, 31, .ro, 0⟩, ⟨31, 1, .w1c, 0⟩]⟩,
   ⟨0x180000, 0x00180400, 128, fun _ => [⟨0, 32, .ro, 0⟩]⟩,
   ⟨0x200000, 0x00200000, 4, fun _ => [⟨0, 1, .locked, 0⟩, ⟨1, 5, .locked, 24⟩, ⟨6, 5, .locked, 0⟩, ⟨11, 10, .locked, 65⟩, ⟨21, 4, .live, 9⟩, ⟨25, 1, .live, 1⟩, ⟨26, 1, .w1c, 0⟩, ⟨27, 1, .w1c, 0⟩, ⟨28, 1, .w1c, 0⟩]⟩,
   ⟨0x200000, 0x00200100, 32, fun _ => [⟨0, 12, .staged, 0⟩, ⟨12, 12, .staged, 0⟩, ⟨24, 6, .staged, 0⟩, ⟨30, 1, .staged, 0⟩]⟩,
   ⟨0x200000, 0x00210000, 8192, fun i => let t := i % 16 / 2
      [⟨0, 8, .staged, (wfqReset t).2⟩, ⟨8, 1, .staged, (wfqReset t).1⟩, ⟨9, 1, .staged, 0⟩, ⟨10, 5, .staged, 0⟩, ⟨15, 5, .staged, 0⟩, ⟨20, 5, .staged, 0⟩, ⟨25, 3, .staged, 3⟩]⟩,
   ⟨0x200000, 0x00218000, 8192, fun _ => [⟨0, 12, .staged, 0⟩, ⟨12, 16, .staged, 0⟩]⟩,
   ⟨0x200000, 0x00220000, 8192, fun _ => [⟨0, 22, .ro, 0⟩]⟩,
   ⟨0x200000, 0x00228000, 4096, fun i => if i % 8 ∈ [3, 4, 6, 7] then [⟨0, 16, .staged, 0⟩, ⟨16, 16, .staged, 0⟩] else []⟩,
   ⟨0x200000, 0x0022C000, 4096, fun i => if i % 8 ∈ [3, 4, 6, 7] then [⟨0, 16, .staged, 0⟩, ⟨16, 16, .staged, 0⟩] else []⟩,
   ⟨0x280000, 0x00280000, 4, fun _ => [⟨0, 1, .live, 0⟩, ⟨1, 1, .locked, 0⟩, ⟨2, 5, .locked, 0⟩, ⟨7, 1, .locked, 0⟩, ⟨8, 1, .live, 0⟩, ⟨9, 1, .live, 0⟩, ⟨10, 9, .live, 0⟩, ⟨19, 1, .w1c, 0⟩, ⟨20, 1, .ro, 0⟩]⟩,
   ⟨0x280000, 0x00280010, 4, fun _ => [⟨0, 32, .ro, 0⟩]⟩,
   ⟨0x280000, 0x00280020, 4, fun _ => [⟨0, 32, .live, 0⟩]⟩,
   ⟨0x280000, 0x00280030, 4, fun _ => [⟨0, 16, .live, 0⟩]⟩]

/-- The run a register belongs to and its index there. -/
def regRow (a : Nat) : Option (RegRow × Nat) :=
  (regRows.find? fun r => a % 4 = 0 ∧ r.base ≤ a ∧ a < r.base + 4 * r.count).map fun r => (r, (a - r.base) / 4)

/-- The fields of a register; none for an address the block does not assign. -/
def regFields (a : Nat) : List Fld :=
  match regRow a with
  | some (r, i) => r.fields i
  | none => []

/-- The word that the fields satisfying `keep` reset to. -/
def resetOf (keep : Fld → Bool) (fs : List Fld) : Word :=
  fs.foldl (fun w f => if keep f then w ||| (BitVec.ofNat 32 f.reset <<< f.lo) else w) 0

/-- The reset word of a register's stored fields: those that are not RO. -/
def resetWord (a : Nat) : Word := resetOf (fun f => f.kind ≠ .ro) (regFields a)

/-- The mask of the fields of a register that satisfy `keep`. -/
def maskOf (keep : Fld → Bool) (fs : List Fld) : Word :=
  fs.foldl (fun w f => if keep f then w ||| (BitVec.ofNat 32 (2 ^ f.width - 1) <<< f.lo) else w) 0

/-- The stored word of a register: every LIVE, STAGED and LOCKED field in force, and the W1C bits. -/
def regWord (s : State) (a : Nat) : Word := tgetD s.regs a (resetWord a)

/-- The pending copy of a register's STAGED fields (R506, R507). -/
def pendWord (s : State) (a : Nat) : Word := tgetD s.regsPending a (regWord s a)

/-- The value in force of a field of a register. -/
def regField (s : State) (a lo width : Nat) : Nat := ((regWord s a).toNat >>> lo) % 2 ^ width

/-- The state with a register's stored word replaced; a word equal to its reset value is not listed. -/
def setRegWord (s : State) (a : Nat) (w : Word) : State :=
  { s with regs := if w = resetWord a then tdel s.regs a else tset s.regs a w }

/-- The bits of a register's LIVE fields. -/
def liveMask (a : Nat) : Word := maskOf (fun f => f.kind = .live) (regFields a)

/-- A register's word with its LIVE fields as last accepted (R8). -/
def acceptedWord (s : State) (a : Nat) : Word :=
  match tget s.regsLive a with
  | some w => (regWord s a &&& ~~~liveMask a) ||| (w &&& liveMask a)
  | none => regWord s a

/-- A LIVE field of the register waits for a unit boundary that has not come: the next monitor sample, or the end of the drill in progress (R13).
The other blocks' units are whole commands, or keep the value they began with themselves (log entry 46). -/
def liveWaits (s : State) (a : Nat) : Bool :=
  let b := a / 0x10000
  b = 0 || b = 2 || b = 3 || (b = 7 && s.spares.drill.isSome)

/-- The LIVE values accepted for some registers take force (R8, R13). -/
def latchLive (s : State) (pick : Nat → Bool) : State :=
  (s.regsLive.filter fun e => pick e.1).foldl (fun st e => setRegWord { st with regsLive := tdel st.regsLive e.1 } e.1 (acceptedWord st e.1)) s

/-- An event bit set by hardware (R11). -/
def setEvt (s : State) (a b : Nat) : State := setRegWord s a (regWord s a ||| (1 <<< b))

/-! ### Counters (R547) -/

/-- A counter's value. -/
def ctr (s : State) (c : Ctr) : Nat := tgetD s.ctrs c 0

/-- A counter advanced, modulo 2^64. -/
def bumpBy (s : State) (c : Ctr) (n : Nat) : State := { s with ctrs := tupd s.ctrs c 0 fun v => (v + n) % 2 ^ 64 }

/-- A counter advanced by one. -/
def bump (s : State) (c : Ctr) : State := bumpBy s c 1

/-- The quarter of a logical port (R17). -/
def quarterOf (lport : Nat) : Nat := lport / 128 % 4

/-- The native port, and so the rod, of a logical port (R54). -/
def nativeOf (lport : Nat) : Nat := lport / 8

/-! ### Field values taken on a write -/

/-- The value a written field takes: out-of-range values are clamped or replaced as its table gives. -/
def takeField (a lo v : Nat) : Nat :=
  if aPORT_CFG 0 ≤ a ∧ a ≤ aPORT_CFG 63 ∧ lo = 12 then (if v = 0 then 1 else if v > 8 then 8 else v)
  else if aPORT_ADMIT_RATE 0 ≤ a ∧ a ≤ aPORT_ADMIT_RATE 63 then clamp 1 200 v
  else if aSUPPLY_CORE 0 ≤ a ∧ a ≤ aSUPPLY_CORE 3 ∧ lo = 10 then clamp 600 850 v
  else if a = aSUPPLY_SHED ∧ lo = 8 then clamp 25 100 v
  else if a = aTHERMAL_CFG ∧ lo = 0 then clamp 60 105 v
  else if a = aEVENT_CFG ∧ lo = 0 then max 1 v
  else if a = aDRILL_CFG ∧ lo = 1 then max 1 v
  else if a = aROD_WINDOW_CFG ∧ lo = 0 then max 1 v
  else if a = aMEMOP_CFG ∧ lo = 0 then clamp 1 32 v
  else if a = aDIR_CFG ∧ lo = 0 then max 5 v
  else if a = aNEAR_CFG ∧ lo = 0 then max 1 v
  else if a = aNEAR_CFG ∧ lo = 8 then clamp 20 95 v
  else if a = aNEAR_CFG ∧ lo = 15 then (if v = 3 then 2 else v)
  else if a = aCARRY_CFG ∧ lo = 0 then clamp 50 100 v
  else if a = aSIEVE_CFG ∧ lo = 0 then clamp 1 16 v
  else if a = aBEAD_CFG ∧ lo = 0 then clamp 24 96 v
  else if a = aBEAD_CFG ∧ lo = 7 then max 1 v
  else if a = aIDENTITY_SECURITY ∧ lo = 15 then max 1 v
  else if aQUEUE_CFG 0 ≤ a ∧ a ≤ aQUEUE_CFG 3 ∧ lo = 1 then clamp 4 31 v
  else if aQUEUE_CFG 0 ≤ a ∧ a ≤ aQUEUE_CFG 3 ∧ lo = 6 then clamp 0 16 v
  else if aQUEUE_CFG 0 ≤ a ∧ a ≤ aQUEUE_CFG 3 ∧ lo = 11 then clamp 65 1023 v
  else if aQUEUE_CFG 0 ≤ a ∧ a ≤ aQUEUE_CFG 3 ∧ lo = 21 then max 1 v
  else v

/-- A field of a word. -/
def wordField (w : Word) (f : Fld) : Nat := (w.toNat >>> f.lo) % 2 ^ f.width

/-- A word with a field replaced. -/
def setWordField (w : Word) (f : Fld) (v : Nat) : Word :=
  (w &&& ~~~(BitVec.ofNat 32 (2 ^ f.width - 1) <<< f.lo)) ||| (BitVec.ofNat 32 (v % 2 ^ f.width) <<< f.lo)

/-- The value a masked write of a field asks for: masked bits from `value`, the others as they stand. -/
def askedField (old mask value : Word) (f : Fld) : Nat := wordField ((old &&& ~~~mask) ||| (value &&& mask)) f

/-- Whether a mask covers a bit of a field. -/
def covers (mask : Word) (f : Fld) : Bool := wordField mask f ≠ 0

end Sys2Proof.Machine
end

