-- ==== Sys2Proof/Machine/Codes.lean ====
section
/-! DEFINITION. The names of the counters of Table 19-8 and the code tables: KFP operations and status codes, completion codes, event types. -/

namespace Sys2Proof.Machine

/-! ### Counters, as offsets within their group -/

def cDEDUP_FULL_COUNT (quarter : Nat) : Ctr := .quarter quarter 0x8
def cASSEMBLY_TIMEOUT_COUNT (quarter : Nat) : Ctr := .quarter quarter 0x10
def cSTRAY_RSP_DROP (quarter : Nat) : Ctr := .quarter quarter 0x28
def cXLATE_HIT (quarter : Nat) : Ctr := .quarter quarter 0x40
def cXLATE_MISS (quarter : Nat) : Ctr := .quarter quarter 0x48
def cPARK_FULL_COUNT (quarter : Nat) : Ctr := .quarter quarter 0x58
def cFAULT_OPENED (quarter : Nat) : Ctr := .quarter quarter 0x60
def cFAULT_TIMEOUT_COUNT (quarter : Nat) : Ctr := .quarter quarter 0x68
def cCOMBINE_JOINED (quarter : Nat) : Ctr := .quarter quarter 0x70
def cRANKED_APPLIED (quarter : Nat) : Ctr := .quarter quarter 0x78
def cWINDOW_CHECKS (quarter : Nat) : Ctr := .quarter quarter 0x88
def cWINDOW_VIOLATIONS (quarter : Nat) : Ctr := .quarter quarter 0x90
def cWINDOW_EVT_DROP (quarter : Nat) : Ctr := .quarter quarter 0x98
def cWINDOW_REVOKES (quarter : Nat) : Ctr := .quarter quarter 0xA0
def cDIR_LOOKUPS (quarter : Nat) : Ctr := .quarter quarter 0xC0
def cDIR_SNOOPS_SENT (quarter : Nat) : Ctr := .quarter quarter 0xC8
def cDIR_BACK_INVAL (quarter : Nat) : Ctr := .quarter quarter 0xD0
def cDIR_STALE_SNOOP (quarter : Nat) : Ctr := .quarter quarter 0xD8
def cDIR_WB_STALE (quarter : Nat) : Ctr := .quarter quarter 0xE0
def cDIR_NC_GRANTS (quarter : Nat) : Ctr := .quarter quarter 0xE8
def cCOH_LATE_DROP (quarter : Nat) : Ctr := .quarter quarter 0xF8
def cNEAR_HIT (quarter : Nat) : Ctr := .quarter quarter 0x100
def cNEAR_MISS (quarter : Nat) : Ctr := .quarter quarter 0x108
def cNEAR_WRITEBACKS (quarter : Nat) : Ctr := .quarter quarter 0x118
def cNEAR_MARKS_SENT (quarter : Nat) : Ctr := .quarter quarter 0x120
def cNEAR_DECODE_ERR (quarter : Nat) : Ctr := .quarter quarter 0x130
def cPOOL_LOSS_LINES (quarter : Nat) : Ctr := .quarter quarter 0x138
def cCARRY_CONTRIB (quarter : Nat) : Ctr := .quarter quarter 0x140
def cCARRY_DUP (quarter : Nat) : Ctr := .quarter quarter 0x148
def cCARRY_STALE (quarter : Nat) : Ctr := .quarter quarter 0x150
def cCARRY_PARTIAL_SENT (quarter : Nat) : Ctr := .quarter quarter 0x158
def cCARRY_RESULT_BYTES (quarter : Nat) : Ctr := .quarter quarter 0x160
def cCARRY_ABORTS (quarter : Nat) : Ctr := .quarter quarter 0x168
def cCARRY_RESIDUE_ERR (quarter : Nat) : Ctr := .quarter quarter 0x170
def cSIEVE_REQUESTS (quarter : Nat) : Ctr := .quarter quarter 0x180
def cSIEVE_RECORDS (quarter : Nat) : Ctr := .quarter quarter 0x188
def cSIEVE_OUT (quarter : Nat) : Ctr := .quarter quarter 0x190
def cSIEVE_STOPS (quarter : Nat) : Ctr := .quarter quarter 0x198
def cSIEVE_PROG_FAULTS (quarter : Nat) : Ctr := .quarter quarter 0x1A0
def cSIEVE_DISPATCH_DROPS (quarter : Nat) : Ctr := .quarter quarter 0x1A8
def cSIEVE_PAUSED_REFUSED (quarter : Nat) : Ctr := .quarter quarter 0x1B0
def cSIEVE_BMT_READS (quarter : Nat) : Ctr := .quarter quarter 0x1B8
def cMOVER_DESC_DONE (quarter : Nat) : Ctr := .quarter quarter 0x1C0
def cMOVER_BYTES (quarter : Nat) : Ctr := .quarter quarter 0x1C8
def cMOVER_PREEMPTS (quarter : Nat) : Ctr := .quarter quarter 0x1D0
def cMOVER_FAULTS (quarter : Nat) : Ctr := .quarter quarter 0x1D8
def cMOVER_ERRORS (quarter : Nat) : Ctr := .quarter quarter 0x1E0
def cMOVER_RESUMES (quarter : Nat) : Ctr := .quarter quarter 0x1E8
def cMOVER_REPLAY_ABSORBED (quarter : Nat) : Ctr := .quarter quarter 0x1F0
def cBEAD_CMDS (quarter : Nat) : Ctr := .quarter quarter 0x200
def cBEAD_ENTRIES (quarter : Nat) : Ctr := .quarter quarter 0x208
def cBEAD_PARTIALS_SENT (quarter : Nat) : Ctr := .quarter quarter 0x210
def cBEAD_BYTES (quarter : Nat) : Ctr := .quarter quarter 0x218
def cBEAD_BUSY_REFUSED (quarter : Nat) : Ctr := .quarter quarter 0x220
def cBEAD_WR_REFUSED (quarter : Nat) : Ctr := .quarter quarter 0x228
def cBEAD_THROTTLE_NS (quarter : Nat) : Ctr := .quarter quarter 0x230
def cBEAD_RESIDUE_ERR (quarter : Nat) : Ctr := .quarter quarter 0x238
def cINTQ_DROP (quarter : Nat) : Ctr := .quarter quarter 0x250
def cCE_IGNORED (quarter : Nat) : Ctr := .quarter quarter 0x258
def cTALLY_WRITTEN (quarter : Nat) : Ctr := .quarter quarter 0x260
def cTALLY_LOST (quarter : Nat) : Ctr := .quarter quarter 0x268
def cMIRROR_SENT (quarter : Nat) : Ctr := .quarter quarter 0x270
def cMIRROR_DISCARD (quarter : Nat) : Ctr := .quarter quarter 0x278
def cKEY_INTEGRITY_FAIL : Ctr := .module 0x0
def cTENANT_DISCARD : Ctr := .module 0x8
def cTENANT_LATE_DROP : Ctr := .module 0x10
def cSCRUB_LINES : Ctr := .module 0x18
def cREPORTS_SIGNED : Ctr := .module 0x20
def cMAP_LSR_RX : Ctr := .module 0x40
def cMAP_MALFORMED : Ctr := .module 0x48
def cMAP_COMMITS : Ctr := .module 0x50
def cMAP_ABORTS : Ctr := .module 0x58
def cMAP_REROUTE_SENT : Ctr := .module 0x60
def cHANDOFF_RECORDS_OUT : Ctr := .module 0x68
def cHANDOFF_RECORDS_IN : Ctr := .module 0x70
def cHANDOFF_PROBES : Ctr := .module 0x78
def cMCAST_COPIES : Ctr := .module 0x80
def cEVENT_WRITTEN : Ctr := .module 0xC0
def cEVENT_LOST : Ctr := .module 0xC8
def cSPARE_SWITCHINS : Ctr := .module 0xD0
def cDRILLS_RUN : Ctr := .module 0xD8
def cDRILL_INJECTED : Ctr := .module 0xE0
def cMBOX_CMDS : Ctr := .module 0x100
def cMBOX_ERRORS : Ctr := .module 0x108
def cMBOX_ABORTED : Ctr := .module 0x110
def cDGRAM_RX : Ctr := .module 0x118
def cDGRAM_AUTH_FAIL : Ctr := .module 0x120
def cDGRAM_REPLAY_DROP : Ctr := .module 0x128
def cNOTREADY_SENT : Ctr := .module 0x180
def cNOTREADY_DROPPED : Ctr := .module 0x188
def cSHED_ENTRIES : Ctr := .module 0x190
def cHOLDUP_USES : Ctr := .module 0x198
def cUCIE_RETRY (n : Nat) : Ctr := .module (0x130 + 8 * n)
def cROD_E2E_CRC_ERR (rod : Nat) : Ctr := .rod rod 0
def cROD_LIFETIME_DROP (rod : Nat) : Ctr := .rod rod 1
def cROD_RETX_SENT (rod : Nat) : Ctr := .rod rod 2
def cROD_NAK_SENT (rod : Nat) : Ctr := .rod rod 3
def cPORT_DOCK_OVERFLOW (rod : Nat) : Ctr := .rod rod 4
def cLPORT_REPLAY_COUNT (lport : Nat) : Ctr := .lport lport 0
def cLPORT_LOSSY_DROP (lport : Nat) : Ctr := .lport lport 1
def cLPORT_DROP_TAIL (lport : Nat) : Ctr := .lport lport 2
def cLPORT_DROP_AQM (lport : Nat) : Ctr := .lport lport 3
def cLPORT_CE_MARKED (lport : Nat) : Ctr := .lport lport 4
def cLPORT_GATE_OVERRUN (lport : Nat) : Ctr := .lport lport 5
def cLPORT_TX_BYTES (lport : Nat) : Ctr := .lport lport 6
def cLPORT_DROP_SHED (lport : Nat) : Ctr := .lport lport 7
def cLANE_FEC_CORR (lane : Nat) : Ctr := .lane lane 0
def cLANE_FEC_UNCORR (lane : Nat) : Ctr := .lane lane 1

/-! ### Operations (Table 4-5) -/

def opLOAD : Nat := 0x01
def opSTORE : Nat := 0x02
def opATOMIC : Nat := 0x03
def opFENCE : Nat := 0x04
def opPUBLISH : Nat := 0x05
def opGATHER : Nat := 0x06
def opSIEVE : Nat := 0x07
def opWOPEN : Nat := 0x08
def opWREVOKE : Nat := 0x09
def opREDUCE : Nat := 0x10
def opPARTIAL : Nat := 0x11
def opREDUCE_WRITE : Nat := 0x12
def opCREQ : Nat := 0x20
def opSNOOP : Nat := 0x21
def opCRSP : Nat := 0x22
def opCDAT : Nat := 0x23
def opIDENTITY : Nat := 0x30
def opSTATUS_QUERY : Nat := 0x31
def opMAP_LSR : Nat := 0x38
def opMAP_ACK : Nat := 0x39
def opMAP_PREPARE : Nat := 0x3A
def opMAP_VOTE : Nat := 0x3B
def opMAP_COMMIT : Nat := 0x3C
def opMAP_PULL : Nat := 0x3D
def opMAP_EPOCH : Nat := 0x3E
def opMAP_HANDOFF : Nat := 0x3F
def opMIRROR : Nat := 0x40
def opRSP : Nat := 0x80
def opRSP_DATA : Nat := 0x81
def opACK : Nat := 0x82
def opNAK : Nat := 0x83

/-! ### Status codes (Table 4-9) -/

def kSUCCESS : Nat := 0x0000
def kNOT_READY : Nat := 0x0001
def kREROUTE : Nat := 0x0002
def kDEDUP_FULL : Nat := 0x0003
def kASSEMBLY_FULL : Nat := 0x0004
def kRESEQ_WINDOW : Nat := 0x0005
def kRESEQ_NO_CONTEXT : Nat := 0x0006
def kPARK_FULL : Nat := 0x0007
def kREQUEST_STATE_LOST : Nat := 0x0008
def kBUSY : Nat := 0x0009
def kMALFORMED : Nat := 0x0010
def kUNSUPPORTED_VERSION : Nat := 0x0011
def kUNKNOWN_DESTINATION : Nat := 0x0012
def kUNSUPPORTED_OPERATION : Nat := 0x0013
def kTRANSPORT_TIMEOUT : Nat := 0x0014
def kADDRESS_INVALID : Nat := 0x0100
def kACCESS_DENIED : Nat := 0x0101
def kMISALIGNED : Nat := 0x0102
def kFAULT_TIMEOUT : Nat := 0x0103
def kJOB_UNKNOWN : Nat := 0x0104
def kTENANT_GONE : Nat := 0x0105
def kKEY_NOT_GRANTED : Nat := 0x0106
def kVERSION_CONFLICT : Nat := 0x0107
def kBEAD_WRITE_REFUSED : Nat := 0x0108
def kPOISONED_DATA : Nat := 0x0109
def kPOISONED_LOST_OWNER : Nat := 0x010A
def kPOISONED_POOL_LOSS : Nat := 0x010B
def kPOISONED_INTEGRITY : Nat := 0x010C
def kWINDOW_TAG_MISMATCH : Nat := 0x0200
def kWINDOW_REVOKED : Nat := 0x0201
def kWINDOW_BOUNDS : Nat := 0x0202
def kWINDOW_RIGHTS : Nat := 0x0203
def kWINDOW_NOT_OWNER : Nat := 0x0204
def kWINDOW_TABLE_FULL : Nat := 0x0205
def kREDUCTION_ABORTED : Nat := 0x0300
def kREDUCTION_UNKNOWN : Nat := 0x0301
def kREDUCTION_MISMATCH : Nat := 0x0302
def kSTAGING_FULL : Nat := 0x0303
def kSIEVE_PAUSED : Nat := 0x0304
def kPROGRAM_NOT_LOADED : Nat := 0x0305
def kPROGRAM_FAULT : Nat := 0x0306

/-- Whether a code is of class R (Table 4-8): no effect, transmit again. -/
def isRClass (c : Nat) : Bool := c ∈ [0x0001, 0x0002, 0x0003, 0x0004, 0x0005, 0x0006, 0x0007, 0x0008, 0x0009, 0x0300, 0x0303, 0x0304]

/-- Whether a code is of class P: data delivered with poisoned lines masked. -/
def isPClass (c : Nat) : Bool := c ∈ [0x0109, 0x010A, 0x010B, 0x010C]

/-! ### Completion codes (Table 17-7) -/

def mSUCCESS : Nat := 0x0000
def mCONTINUE : Nat := 0x0001
def mNOT_READY : Nat := 0x0002
def mMAILBOX_BUSY : Nat := 0x0003
def mABORTED_BY_UPDATE : Nat := 0x0004
def mMALFORMED_COMMAND : Nat := 0x0010
def mCOMMAND_UNKNOWN : Nat := 0x0011
def mPRIVILEGE_DENIED : Nat := 0x0012
def mJOB_NOT_PERMITTED : Nat := 0x0013
def mSESSION_INVALID : Nat := 0x0014
def mSEQUENCE_STALE : Nat := 0x0015
def mARGUMENT_INVALID : Nat := 0x0016
def mOBJECT_NOT_FOUND : Nat := 0x0017
def mOBJECT_STATE_CONFLICT : Nat := 0x0018
def mRESOURCE_EXHAUSTED : Nat := 0x0019
def mFABRIC_STATUS : Nat := 0x001A
def mFIELD_LOCKED : Nat := 0x0020
def mGROUP_INCONSISTENT : Nat := 0x0021
def mFAULT_NOT_OPEN : Nat := 0x0030
def mSTAGING_EXHAUSTED : Nat := 0x0031
def mTABLE_ENTRY_REFUSED : Nat := 0x0032
def mPROGRAM_SLOT_CONFLICT : Nat := 0x0040
def mPROGRAM_INVALID : Nat := 0x0041
def mSECURITY_STATE_REFUSED : Nat := 0x0050
def mKEY_UNWRAP_FAILURE : Nat := 0x0051
def mGRANT_INVALID : Nat := 0x0052
def mIMAGE_INVALID : Nat := 0x0053
def mDRILL_REFUSED : Nat := 0x0060
def mMAP_PROPOSAL_ABORTED : Nat := 0x0061

/-! ### Event types (Table 16-5) and severities -/

def eBOOT : Nat := 0x0001
def eFIELD_LOCKED : Nat := 0x0002
def eFIRMWARE_ACTIVATED : Nat := 0x0003
def eUNIT_DEGRADED : Nat := 0x0010
def eUNIT_SPARED : Nat := 0x0011
def eSPARES_EXHAUSTED : Nat := 0x0012
def eCANARY_WARN : Nat := 0x0013
def eCANARY_TRIP : Nat := 0x0014
def eSRAM_MACRO_SPARED : Nat := 0x0015
def eBANK_PAIR_SPARED : Nat := 0x0016
def eREGULATOR_PHASE_LOST : Nat := 0x0017
def eCORE_FAILED : Nat := 0x0018
def eUCIE_DOWN : Nat := 0x0019
def eUCIE_UP : Nat := 0x001A
def eMEMORY_UNCORRECTABLE : Nat := 0x001B
def eLANE_RETIRED : Nat := 0x0020
def ePORT_DOWN : Nat := 0x0021
def ePORT_HELD : Nat := 0x0022
def eHELLO_REFUSED : Nat := 0x0023
def eWALK_POISON : Nat := 0x0030
def eFAULT_RECORD_FAILED : Nat := 0x0031
def eRANKED_TIMEOUT : Nat := 0x0032
def eWINDOW_VIOLATION : Nat := 0x0033
def eWINDOW_LOST : Nat := 0x0034
def eAGENT_RECLAIMED : Nat := 0x0040
def eSTACK_LOST : Nat := 0x0050
def ePOOL_FATAL : Nat := 0x0051
def eINCOMPLETE_FLUSH : Nat := 0x0052
def eDECODE_ERROR : Nat := 0x0053
def eINTEGRITY_FAIL : Nat := 0x0054
def eTENANT_REMOVED : Nat := 0x0055
def eSTAGING_POISON : Nat := 0x0060
def eDELIVERY_FAILED : Nat := 0x0061
def eCHANNEL_HALTED : Nat := 0x0062
def eBEAD_WRITE_REFUSED : Nat := 0x0063
def eMAP_UNREACHABLE : Nat := 0x0070
def eMAP_DIVERGE : Nat := 0x0071
def eSHED_LEVEL : Nat := 0x0080
def eTHERMAL_LIMIT : Nat := 0x0081
def eDRILL_START : Nat := 0x0090
def eDRILL_END : Nat := 0x0091
def eEVENTS_LOST : Nat := 0x00F0
def sevINFO : Nat := 0
def sevCORRECTED : Nat := 1
def sevDEGRADED : Nat := 2
def sevFAILED : Nat := 3
def sevFATAL : Nat := 4

/-! ### Mailbox opcodes (Table 17-8) -/

def mbGET_IDENTITY : Nat := 0x0101
def mbGET_STATUS : Nat := 0x0102
def mbOPEN_SESSION : Nat := 0x0103
def mbCLOSE_SESSION : Nat := 0x0104
def mbSET_MANAGER_KEYS : Nat := 0x0105
def mbBIND_HOST_MAILBOX : Nat := 0x0106
def mbREAD_REGISTER : Nat := 0x0201
def mbWRITE_REGISTER : Nat := 0x0202
def mbCOMMIT_GROUP : Nat := 0x0203
def mbDISCARD_GROUP : Nat := 0x0204
def mbSTAGE_FIRMWARE : Nat := 0x0301
def mbVERIFY_FIRMWARE : Nat := 0x0302
def mbACTIVATE_FIRMWARE : Nat := 0x0303
def mbQUERY_FIRMWARE : Nat := 0x0304
def mbRETIRE_LANE : Nat := 0x0401
def mbRETRAIN_LANE : Nat := 0x0402
def mbRELEASE_FLAP_HOLD : Nat := 0x0403
def mbSET_PORT_JOBS : Nat := 0x0404
def mbINSTALL_JOB : Nat := 0x0501
def mbREMOVE_JOB : Nat := 0x0502
def mbWRITE_TT_ENTRIES : Nat := 0x0503
def mbRESOLVE_FAULT : Nat := 0x0504
def mbOPEN_WINDOW : Nat := 0x0601
def mbREVOKE_WINDOW : Nat := 0x0602
def mbQUERY_WINDOW : Nat := 0x0603
def mbSET_WINDOW_QUOTA : Nat := 0x0604
def mbATTACH_AGENT : Nat := 0x0701
def mbDETACH_AGENT : Nat := 0x0702
def mbFLUSH_NEAR_TIER : Nat := 0x0801
def mbRESTORE_PAGES : Nat := 0x0802
def mbCREATE_PUBLISH_REGION : Nat := 0x0803
def mbDELETE_PUBLISH_REGION : Nat := 0x0804
def mbDECLARE_TRAY_LOST : Nat := 0x0805
def mbOPEN_REDUCTION : Nat := 0x0901
def mbCLOSE_REDUCTION : Nat := 0x0902
def mbABORT_REDUCTION : Nat := 0x0903
def mbQUERY_REDUCTION : Nat := 0x0904
def mbLOAD_SIEVE_PROGRAM : Nat := 0x0A01
def mbUNLOAD_SIEVE_PROGRAM : Nat := 0x0A02
def mbQUERY_SIEVE_PROGRAM : Nat := 0x0A03
def mbOPEN_MOVER_CHANNEL : Nat := 0x0B01
def mbCLOSE_MOVER_CHANNEL : Nat := 0x0B02
def mbSET_MOVER_PRIORITY : Nat := 0x0B03
def mbQUERY_MOVER_CHANNEL : Nat := 0x0B04
def mbASSIGN_BEAD_CHANNEL : Nat := 0x0C01
def mbRELEASE_BEAD_CHANNEL : Nat := 0x0C02
def mbQUERY_BEAD_CHANNEL : Nat := 0x0C03
def mbSET_GATE_SCHEDULE : Nat := 0x0D01
def mbSET_TALLY_SESSION : Nat := 0x0D02
def mbREAD_TALLY : Nat := 0x0D03
def mbGET_ATTESTATION : Nat := 0x0E01
def mbGET_IDENTITY_CHAIN : Nat := 0x0E02
def mbALLOCATE_KEY_SLOT : Nat := 0x0E03
def mbINSTALL_TENANT_KEY : Nat := 0x0E04
def mbSET_KEY_GRANT : Nat := 0x0E05
def mbREMOVE_TENANT : Nat := 0x0E06
def mbQUERY_KEY_SLOT : Nat := 0x0E07
def mbPROPOSE_MAP : Nat := 0x0F01
def mbQUERY_MAP : Nat := 0x0F02
def mbSET_PORT_ROLE : Nat := 0x0F03
def mbDRAIN_MODULE : Nat := 0x0F04
def mbRETIRE_UNIT : Nat := 0x1001
def mbRUN_DRILL : Nat := 0x1002
def mbABORT_DRILL : Nat := 0x1003
def mbREAD_EVENT_LOG : Nat := 0x1004
def mbREAD_DRILL_LOG : Nat := 0x1005

/-! ### Port roles (Table 15-1) -/

def roleNONE : Nat := 0
def roleACCELERATOR : Nat := 1
def roleTRAY : Nat := 2
def roleSWITCH : Nat := 3
def roleMIRROR : Nat := 4

/-! ### Operations and classes -/

/-- The classes an operation is allowed in (Table 4-5); none for an OP that is not listed. -/
def opClasses (op : Nat) : Option (List Nat) :=
  if op ∈ [0x01, 0x02, 0x06, 0x07] then some [0, 3, 4]
  else if op ∈ [0x03, 0x04, 0x05, 0x08, 0x09, 0x20] then some [0]
  else if op ∈ [0x10, 0x11] then some [5]
  else if op = 0x12 then some [0, 3]
  else if op = 0x21 then some [1]
  else if op ∈ [0x22, 0x23, 0x82, 0x83] then some [2]
  else if op ∈ [0x30, 0x31] ∨ (0x38 ≤ op ∧ op ≤ 0x3F) then some [6]
  else if op = 0x40 then some [7]
  else if op ∈ [0x80, 0x81] then some [2, 3, 4, 6]
  else none

/-- A request in the sense of R570: listed, and not RSP, RSP_DATA, ACK, NAK, CRSP or CDAT. -/
def isRequestOp (op : Nat) : Bool := (opClasses op).isSome && !(op ∈ [0x22, 0x23, 0x80, 0x81, 0x82, 0x83])

/-- The coherence operations (R88). -/
def isCohOp (op : Nat) : Bool := op ∈ [0x20, 0x21, 0x22, 0x23]

/-- The class a response travels in (Table 4-4). -/
def responseTc (t : Nat) : Nat := if t = 3 then 3 else if t = 4 then 4 else if t = 6 then 6 else 2

/-- A request of a class with end-to-end retransmission (Table 4-4). -/
def retransmitted (p : Packet) : Bool := p.tc ∈ [0, 3, 4, 5] && isRequestOp p.op && !isCohOp p.op

/-- A command address is the target's: ASPACE 3 (R89). -/
def toCommandSpace (p : Packet) : Bool := p.op = opSTORE && p.oparg % 4 = 3

/-- A non-idempotent request (Table 4-5, R89). -/
def nonIdempotent (p : Packet) : Bool :=
  p.op ∈ [opATOMIC, opPUBLISH, opSIEVE, opWOPEN, opWREVOKE] || toCommandSpace p

end Sys2Proof.Machine
end

