-- ==== Sys2Proof/Machine/Ops.lean ====
section
/-! DEFINITION. Named operations that every family shares: time and free values, event records, pool memory bytes and line states, and the service and answering of mailbox commands. -/

namespace Sys2Proof.Machine

/-! ### Time, ticks and free values -/

/-- Microseconds and milliseconds in ns. -/
def us (n : Nat) : Ns := n * 1000
def ms (n : Nat) : Ns := n * 1000000

/-- Whether a time `d` after `t` has come. -/
def due (s : State) (t d : Ns) : Bool := t + d ≤ s.now

/-- A free value (log entry 3): the next one, and the state that has used it. -/
def drawFree (s : State) : Nat × State := (Config.freeValue s.free, { s with free := s.free + 1 })

/-- The time counter (R389), a 64-bit count of ns. -/
def timeNow (s : State) : Nat := s.clock.counter % 2 ^ 64

/-- One ns of the time counter: it counts, and slews by at most one ns in 2,000 (R389, 500 ppm). -/
def tickClock (c : Clock) : Clock :=
  if c.slew = 0 then { c with counter := c.counter + 1 }
  else if c.slewTick + 1 < 2000 then { c with counter := c.counter + 1, slewTick := c.slewTick + 1 }
  else if 0 < c.slew then { c with counter := c.counter + 2, slew := c.slew - 1, slewTick := 0 }
  else { c with slew := c.slew + 1, slewTick := 0 }

/-- One ns passes (log entry 2). The time counter counts from 0 at power-up, so it stands while the module has no supply (R389). -/
def tick (s : State) : State :=
  { s with now := s.now + 1, clock := if s.supply.phase = 0 then s.clock else tickClock s.clock }

/-! ### Levels and readiness -/

/-- How many phases a rail has lost. -/
def phasesLost (r : Rail) : Nat := r.lost.length

/-- A second phase is lost on a rail that is not an upper die's core rail: the module acts as at shed level L3 (R458). -/
def forcedShed (s : State) : Bool := s.supply.rails.any fun e => decide (4 ≤ e.1) && decide (2 ≤ phasesLost e.2)

/-- The shed level whose actions are in force (R519, R458). -/
def level (s : State) : Nat := if forcedShed s then max 3 s.supply.level else s.supply.level

/-- The module is READY (R530). -/
def isReady (s : State) : Bool := s.supply.ready

/-- This module's node ID. -/
def myNode (s : State) : Nat := s.map.node

/-- A UCIe module works: its rail is on and it has not failed; one whose link was lost counts as failed after 10 ms (R481). -/
def ucieUp (s : State) (n : Nat) : Bool := (tgetD s.supply.rails 7 {}).on && !(tgetD s.rkn.ucie n {}).failed

/-- The UCIe module that carries the control and telemetry of a quarter: its own while that has its link, else another that has, the lowest, over a beam link (R25, R481). -/
def controlPath (s : State) (n : Nat) : Option Nat :=
  (n :: List.range 4).find? fun m => (tgetD s.supply.rails 7 {}).on && (tgetD s.rkn.ucie m {}).lostAt.isNone

/-- At least one UCIe module works (R25). -/
def anyUcie (s : State) : Bool := (List.range 4).any (ucieUp s)

/-! ### The Reckoner at the mailboxes -/

/-- Reckoner cores in service (R26). -/
def coresLeft (s : State) : Nat := 8 - s.rkn.coresLost.length

/-- Dvorro restarts, is being updated, or spares a core (R26, R510). -/
def dvorroAbsent (s : State) : Bool := s.rkn.dvorro = .restarting || s.rkn.dvorro = .activating

/-- No UCIe module of a READY module works: mailboxes and table changes are unavailable (R25). -/
def decksCut (s : State) : Bool := isReady s && !anyUcie s

/-- Dvorro is absent, or cut off from the decks (R24 to R26, R510). -/
def dvorroAway (s : State) : Bool := dvorroAbsent s || decksCut s

/-- A mailbox that the Reckoner reaches without the decks: any but a host's (R482). -/
def ownMailbox (m : MboxId) : Bool :=
  match m with
  | .host _ => false
  | _ => true

/-- A command that Dvorro does not serve now: while every UCIe module is down it serves only READ_REGISTER and WRITE_REGISTER, which R541 answers, in the mailboxes that do not come through the decks (log entry 32). -/
def cutOff (s : State) (c : Caller) (op : Nat) : Bool :=
  dvorroAbsent s || (decksCut s && !((op = mbREAD_REGISTER || op = mbWRITE_REGISTER) && ownMailbox c.mbox))

/-- Whether the Reckoner serves mailboxes: Dvorro is there, or before READY the boot ROM once phase ROM has ended (Table 19-2, R491). -/
def serving (s : State) : Bool := 3 ≤ s.supply.phase && !dvorroAway s

/-- Whether the Reckoner takes slots in a mailbox: a host's comes through the decks (R25, R541). -/
def takesSlots (s : State) (m : MboxId) : Bool := 3 ≤ s.supply.phase && !dvorroAbsent s && (ownMailbox m || !decksCut s)

/-! ### Event records (R463 to R468) -/

/-- The types that are always written (R468). -/
def alwaysWritten (t : Nat) : Bool := t ∈ [eSTACK_LOST, ePOOL_FATAL, eRANKED_TIMEOUT, eDRILL_START, eDRILL_END]

/-- EVENT_CFG.GAP in ns; 0 is taken as 1. -/
def gapNs (s : State) : Ns := max 1 (regField s aEVENT_CFG 0 8) * 100000

/-- The base die whose queue holds a record while Dvorro is absent: the die of the unit it concerns (log entry 7). -/
def dieOf (r : EventRec) : Nat :=
  match r.uclass with
  | 1 | 2 => r.unit / 128 % 4
  | 3 => r.unit / 16 % 4
  | 4 => r.unit / 24 % 4
  | 5 => r.unit / 16 % 4
  | 6 => r.unit / 8 % 4
  | 7 => r.unit / 32 % 4
  | 8 => r.unit / 512 % 4
  | 9 => r.unit / 512 % 4
  | 10 => r.unit / 1024 % 4
  | 11 => r.unit / 2 % 4
  | _ => 0

/-- The 64 bytes of an event record (Table 16-4). -/
def eventBytes (r : EventRec) : List Byte :=
  le 4 (r.etype % 65536 + r.sev % 8 * 65536 + flag r.drill * 2 ^ 19 + r.uclass % 16 * 2 ^ 20 + min 255 r.rep * 2 ^ 24)
    ++ le 4 (r.node % 65536 + r.unit % 65536 * 65536) ++ le 8 r.time ++ le 4 r.seq
    ++ le 4 (r.status % 65536 + r.drillId % 65536 * 65536) ++ le 8 r.arg0 ++ le 8 r.arg1 ++ padTo 24 r.tail

/-- The 256-byte response slots of a response, in parts of 224 bytes (R486, R489). -/
def respSlots (r : Response) : List (List Byte) :=
  let total := r.result.length
  let n := max 1 (ceilDiv total 224)
  (List.range n).map fun i =>
    let part := (r.result.drop (224 * i)).take 224
    le 2 r.opcode ++ le 2 (flag (decide (i + 1 < n)) + flag r.unsolicited * 2) ++ le 4 r.cseq ++ le 2 part.length ++ le 2 i
      ++ le 4 total ++ le 2 r.completion ++ le 2 0 ++ le 4 r.detail ++ le 8 0 ++ padTo 224 part

/-- One SEALED datagram of at most five slots to a session's manager (R495, R501). -/
def sendSealed (s : State) (i : Nat) (e : Session) (first : Nat) (slots : List (List Byte)) : State :=
  { s with rkn := { s.rkn with
      sessions := tset s.rkn.sessions i { e with dseqOut := e.dseqOut + 1 }
      mgmt := s.rkn.mgmt ++ [.datagram e.port i e.id e.dseqOut first slots true] } }

/-- Response slots join a session's stream; those within the 64 uncovered slots are sent (R501). -/
def pushSession (s : State) (i : Nat) (slots : List (List Byte)) : State :=
  match tget s.rkn.sessions i with
  | none => s
  | some e =>
    let at_ := e.unacked.length
    let e' := { e with unacked := e.unacked ++ slots
                       resendAt := if at_ = 0 then s.now + 20000000 else e.resendAt
                       resendWait := if at_ = 0 then 20000000 else e.resendWait }
    let s := { s with rkn := { s.rkn with sessions := tset s.rkn.sessions i e' } }
    let now := slots.take (64 - at_)
    (chunks 5 now.length now).foldl
      (fun (st : State × Nat) g => (sendSealed st.1 i (tgetD st.1.rkn.sessions i e') (e.rack + st.2) g, st.2 + g.length))
      (s, at_) |>.1

/-- An event record goes to every open session as an unsolicited slot (R501). -/
def pushEvent (s : State) (r : EventRec) : State :=
  s.rkn.sessions.foldl (fun st e =>
    pushSession st e.1 (respSlots { opcode := 0, cseq := r.seq, completion := mSUCCESS, result := eventBytes r, unsolicited := true })) s

/-- The record enters the log ring of 65,536 records and is reported (R467). -/
def writeRing (s : State) (r : EventRec) : State :=
  let ring := s.events.ring ++ [r]
  let urgent := 3 ≤ r.sev
  let ev := { s.events with
    ring := ring.drop (ring.length - 65536)
    alert := if urgent then s.events.alert ++ [r.seq] else s.events.alert
    pldm := if urgent then s.events.pldm ++ [r] else s.events.pldm }
  pushEvent (bump { s with events := ev } cEVENT_WRITTEN) r

/-- A record takes its EV_SEQ and is written, or waits while Dvorro is absent, or is lost when its die's queue of 1,024 is full (R467). -/
def logEvent (s : State) (r : EventRec) : State :=
  let seq := (s.events.seq + 1) % 2 ^ 32
  let r := { r with seq := seq, time := timeNow s, node := s.map.node }
  let s := { s with events := { s.events with seq := seq } }
  if s.rkn.dvorro = .running && anyUcie s then writeRing s r
  else if (s.events.waiting.filter fun e => dieOf e = dieOf r).length < 1024 then
    { s with events := { s.events with
        waiting := s.events.waiting ++ [r]
        alert := if 3 ≤ r.sev then s.events.alert ++ [seq] else s.events.alert } }
  else
    setEvt (bump { s with events := { s.events with
      lost := s.events.lost + 1
      firstLost := if s.events.lost = 0 then seq else s.events.firstLost } } cEVENT_LOST) aEVENT_CFG 8

/-- Raise an event record (R467), suppressed and counted within GAP of the last of its type and unit (R468). -/
def raise (s : State) (r : EventRec) : State :=
  let key := (r.etype, r.uclass, r.unit)
  match tget s.events.last key with
  | some (t, n) =>
    if !alwaysWritten r.etype && s.now < t + gapNs s then
      { s with events := { s.events with last := tset s.events.last key (t, n + 1) } }
    else
      logEvent { s with events := { s.events with last := tset s.events.last key (s.now, 0) } } { r with rep := min 255 n }
  | none => logEvent { s with events := { s.events with last := tset s.events.last key (s.now, 0) } } r

/-- Raise a record given by its fields. -/
def event (s : State) (etype sev uclass unit arg0 arg1 : Nat) : State :=
  raise s { etype := etype, sev := sev, uclass := uclass, unit := unit, arg0 := arg0, arg1 := arg1 }

/-- The records that waited are sent when Dvorro returns, and one EVENTS_LOST follows when some were lost (R467). -/
def drainEvents (s : State) : State :=
  let w := s.events.waiting
  let n := s.events.lost
  let first := s.events.firstLost
  let s := w.foldl (fun st r => writeRing { st with events := { st.events with alert := st.events.alert.filter (· ≠ r.seq) } } r)
    { s with events := { s.events with waiting := [], lost := 0, firstLost := 0 } }
  if n = 0 then s else event s eEVENTS_LOST sevINFO 0 0 n first

/-! ### Pool memory -/

/-- A byte of pool memory; an unlisted address reads as zero (log entry 5). -/
def memRead (m : Memory) (a : Nat) : Byte :=
  match m with
  | [] => 0
  | (k, b) :: r => if k = a then b else memRead r a

/-- A byte of pool memory written, in canonical form. -/
def memWrite (m : Memory) (a : Nat) (b : Byte) : Memory :=
  match m with
  | [] => if b = 0 then [] else [(a, b)]
  | (k, c) :: r =>
    if a < k then (if b = 0 then (k, c) :: r else (a, b) :: (k, c) :: r)
    else if a = k then (if b = 0 then r else (a, b) :: r)
    else (k, c) :: memWrite r a b

/-- Addresses strictly rising, no entry equal to what an unlisted address reads as. -/
def Memory.wf : Memory → Bool
  | [] => true
  | [(_, b)] => b ≠ 0
  | (k, b) :: (k', c) :: r => b ≠ 0 && decide (k < k') && Memory.wf ((k', c) :: r)

/-- `n` bytes from an address. -/
def memBytes (m : Memory) (a n : Nat) : List Byte := (List.range n).map fun i => memRead m (a + i)

/-- Bytes written from an address upward. -/
def memStore (m : Memory) (a : Nat) (bs : List Byte) : Memory :=
  match bs with
  | [] => m
  | b :: r => memStore (memWrite m a b) (a + 1) r

/-- The state with bytes of pool memory written. -/
def putBytes (s : State) (a : Nat) (bs : List Byte) : State := { s with pool := { s.pool with mem := memStore s.pool.mem a bs } }

/-- Bytes of pool memory as they stand. -/
def getBytes (s : State) (a n : Nat) : List Byte := memBytes s.pool.mem a n

/-- The 128-byte line of an address. -/
def lineOf (a : Nat) : Nat := a / 128

/-- The lines that `n` bytes at an address touch. -/
def linesOf (a n : Nat) : List Nat :=
  if n = 0 then [] else (List.range ((a + n - 1) / 128 + 1 - a / 128)).map (a / 128 + ·)

/-- The node of a pool physical address (R119). -/
def nodeOf (a : Nat) : Nat := a / 2 ^ 50

/-- The offset of a pool physical address within its node. -/
def offOf (a : Nat) : Nat := a % 2 ^ 50

/-- The pool physical address of an offset of a node. -/
def poolAddr (node off : Nat) : Nat := node * 2 ^ 50 + off

/-- The pool physical address of this module's own memory. -/
def ownAddr (s : State) (off : Nat) : Nat := poolAddr (myNode s) off

/-- Whether a line lies in a tray and not in this module's own memory. -/
def isTrayLine (s : State) (l : Nat) : Bool := nodeOf (l * 128) ≠ myNode s

/-- What an unlisted line is: resident and good in this module, not cached for a tray. -/
def lineDefault (s : State) (l : Nat) : LineInfo := { cached := !isTrayLine s l }

/-- What is known of a line. -/
def lineInfo (s : State) (l : Nat) : LineInfo := tgetD s.pool.lines l (lineDefault s l)

/-- A line's information written; what equals the default is not listed. -/
def setLine (s : State) (l : Nat) (i : LineInfo) : State :=
  { s with pool := { s.pool with lines := if i = lineDefault s l then tdel s.pool.lines l else tset s.pool.lines l i } }

/-- A line marked as poison with a P-class code (R469). -/
def poisonLine (s : State) (l code : Nat) : State := setLine s l { lineInfo s l with poison := code }

/-! ### Mailbox callers and answers -/

/-- The caller classes of Table 17-2. -/
inductive CallerClass where
  | fm | host | tenant | baseboard
  deriving DecidableEq, Repr

/-- A command's class: that of its mailbox, or the tenant class for a TENANT command in a manager's or a host's (R482). -/
def callerClass (c : Caller) : CallerClass :=
  match c.mbox with
  | .fm _ => if c.tenant then .tenant else .fm
  | .host _ => if c.tenant then .tenant else .host
  | .clear _ => .fm
  | .baseboard => .baseboard

/-- The classes that may use a command (Tables 6-7, 9-2, 10-9, 11-1, 12-1, 14-8, 15-9, 16-3, 17-8). -/
def classesOf (op : Nat) : List CallerClass :=
  if op ∈ [mbGET_IDENTITY, mbGET_STATUS] then [.fm, .host, .tenant, .baseboard]
  else if op ∈ [mbSET_MANAGER_KEYS, mbREAD_REGISTER, mbQUERY_FIRMWARE, mbREAD_EVENT_LOG] then [.fm, .baseboard]
  else if op ∈ [mbWRITE_TT_ENTRIES, mbRESOLVE_FAULT, mbOPEN_WINDOW, mbREVOKE_WINDOW, mbQUERY_WINDOW, mbCREATE_PUBLISH_REGION,
      mbDELETE_PUBLISH_REGION, mbOPEN_REDUCTION, mbCLOSE_REDUCTION, mbABORT_REDUCTION, mbQUERY_REDUCTION, mbLOAD_SIEVE_PROGRAM,
      mbUNLOAD_SIEVE_PROGRAM, mbQUERY_SIEVE_PROGRAM, mbOPEN_MOVER_CHANNEL, mbCLOSE_MOVER_CHANNEL, mbSET_MOVER_PRIORITY,
      mbQUERY_MOVER_CHANNEL, mbRELEASE_BEAD_CHANNEL, mbQUERY_BEAD_CHANNEL, mbQUERY_MAP] then [.fm, .host]
  else if op = mbGET_ATTESTATION then [.fm, .host, .tenant]
  else if op = mbGET_IDENTITY_CHAIN then [.fm, .host, .tenant, .baseboard]
  else if op ∈ [mbINSTALL_TENANT_KEY, mbSET_KEY_GRANT] then [.tenant]
  else if op = mbQUERY_KEY_SLOT then [.fm, .tenant]
  else [.fm]

/-- The firmware commands that identity-and-fetch mode serves (R513). -/
def fetchOps : List Nat := [mbSTAGE_FIRMWARE, mbVERIFY_FIRMWARE, mbQUERY_FIRMWARE, mbACTIVATE_FIRMWARE]

/-- The commands served with five cores left: identity, status and drain-and-depart (R26, R448; log entry 8). -/
def fiveCoreOps : List Nat :=
  [mbGET_IDENTITY, mbGET_STATUS, mbCLOSE_REDUCTION, mbPROPOSE_MAP, mbDRAIN_MODULE, mbQUERY_MAP, mbFLUSH_NEAR_TIER]

/-- The job set of a logical port (R121). -/
def portJobs (s : State) (q : Nat) : List Nat := tgetD s.pool.portJobs q []

/-- A mailbox's state. -/
def mboxOf (s : State) (m : MboxId) : Mbox := tgetD s.rkn.mboxes m {}

/-- The state with a mailbox's state replaced. -/
def setMbox (s : State) (m : MboxId) (b : Mbox) : State := { s with rkn := { s.rkn with mboxes := tset s.rkn.mboxes m b } }

/-- Whether a caller may act for a job: a host only for jobs of the port its mailbox is bound to (R484). -/
def ownJob (s : State) (c : Caller) (job : Nat) : Bool :=
  match callerClass c, c.mbox with
  | .host, .host i => match (mboxOf s (.host i)).bound with
    | some q => job ∈ portJobs s q
    | none => false
  | .host, _ => false
  | _, _ => true

/-- What the Reckoner does with a command as it is started. -/
inductive Verdict where
  | wait
  | deny (code detail : Nat)
  | go
  deriving DecidableEq, Repr

/-- The commands that Dvorro serves while the Reckoner is too hot (Table 20-7). -/
def hotOps : List Nat := [mbGET_IDENTITY, mbGET_STATUS, mbDRAIN_MODULE, mbREAD_EVENT_LOG]

/-- The Reckoner's thermal action is in force (Table 20-7). -/
def reckonerHot (s : State) : Bool := (tgetD s.supply.sensors 12 {}).action

/-- A clear mailbox (R497). -/
def isClear (m : MboxId) : Bool :=
  match m with
  | .clear _ => true
  | _ => false

/-- The checks every command passes before its own (R26, R482, R484, R490, R491, R496): `jobs` are the jobs it names. -/
def gate (s : State) (c : Caller) (op : Nat) (jobs : List Nat) : Verdict :=
  if s.supply.phase < 3 ∨ cutOff s c op = true then .wait
  else if !isReady s && !(op ∈ [mbGET_IDENTITY, mbGET_STATUS]) && !(decide (s.rkn.dvorro = .fetch) && op ∈ fetchOps) then
    .deny mNOT_READY s.supply.phase
  else if isClear c.mbox && !(op ∈ [mbGET_IDENTITY, mbGET_STATUS, mbOPEN_SESSION])
      && !(decide (s.rkn.dvorro = .fetch) && op ∈ fetchOps) then .deny mSESSION_INVALID 0
  else if (coresLeft s ≤ 5 && !(op ∈ fiveCoreOps)) || (reckonerHot s && !(op ∈ hotOps)) then .wait
  else if !(callerClass c ∈ classesOf op) then .deny mPRIVILEGE_DENIED 0
  else match jobs.find? (fun j => !ownJob s c j) with
    | some j => .deny mJOB_NOT_PERMITTED j
    | none => if 16 ≤ (mboxOf s c.mbox).started.length then .wait else .go

/-- Slots are written to a host response ring while it has room (R493). -/
def pushRing : Nat → Mbox → Mbox
  | 0, b => b
  | fuel + 1, b =>
    match b.rspWait with
    | [] => b
    | sl :: r =>
      if gap 16 b.rspHead b.rspTail < 64 then
        pushRing fuel { b with rspWait := r, rspRing := tset b.rspRing (b.rspHead % 64) sl, rspHead := (b.rspHead + 1) % 65536 }
      else b

/-- A command's mailbox still belongs to its sender: of a manager's mailbox, the session it came in is still open (R500). -/
def stillOpen (s : State) (c : Caller) : Bool :=
  match c.mbox with
  | .fm i => (match tget s.rkn.sessions i with
    | some e => decide (e.id = c.src)
    | none => false)
  | _ => true

/-- A response leaves on the mailbox's transport, to the command's source where the transport has one (R486, R497, R502). -/
def sendResponse (s : State) (c : Caller) (r : Response) : State :=
  match c.mbox with
  | .fm i => pushSession s i (respSlots r)
  | .host i =>
    let b := mboxOf s (.host i)
    let b := { b with rspWait := b.rspWait ++ respSlots r }
    setMbox s (.host i) (pushRing b.rspWait.length b)
  | .baseboard => { s with rkn := { s.rkn with mgmt := s.rkn.mgmt ++ [.i3c c.src r] } }
  | .clear p =>
    let b := mboxOf s (.clear p)
    let s := setMbox s (.clear p) { b with clearStored := ((c.src, r.cseq, r) :: b.clearStored).take 64 }
    { s with rkn := { s.rkn with mgmt := s.rkn.mgmt
        ++ (chunks 5 (respSlots r).length (respSlots r)).map fun g => .datagram p c.src 0 0 0 g false } }

/-- A response is given: it is stored for its slot, counted and sent, and its command is no longer started (R486, R488). -/
def deliver (s : State) (c : Caller) (r : Response) : State :=
  let b := mboxOf s c.mbox
  let b := { b with started := b.started.filter (· ≠ c)
                    stored := if stillOpen s c then b.stored.map fun e => if e.1 = c.cseq then (e.1, some r) else e else b.stored }
  let s := setMbox s c.mbox b
  let s := { s with rkn := { s.rkn with
      answers := (c.mbox, r) :: s.rkn.answers
      journal := s.rkn.journal.filter fun j => j.1 ≠ c } }
  let s := if r.completion ≤ 1 then s else bump s cMBOX_ERRORS
  let s := if r.completion = mABORTED_BY_UPDATE then bump s cMBOX_ABORTED else s
  if stillOpen s c then sendResponse s c r else s

/-- A command is answered: at once, or by Dvorro when it returns (R510, R512). -/
def answer (s : State) (c : Caller) (op completion detail : Nat) (result : List Byte) : State :=
  let r : Response := { opcode := op, cseq := c.cseq, completion := completion, detail := detail, result := result }
  if cutOff s c op then { s with rkn := { s.rkn with carried := s.rkn.carried ++ [(c, r)] } } else deliver s c r

/-- Dvorro is back: it gives the answers that came meanwhile (R510, R512). -/
def sendCarried (s : State) : State :=
  if dvorroAway s then s
  else s.rkn.carried.foldl (fun st e => deliver st e.1 e.2) { s with rkn := { s.rkn with carried := [] } }

/-- A result of a count and records: the records are aligned to 8 bytes (R487). -/
def recordList (l : List (List Byte)) : List Byte := le 4 l.length ++ (if l = [] then [] else zeros 4 ++ l.flatten)

/-- A command that completes `SUCCESS` with a result. -/
def answerOk (s : State) (c : Caller) (op : Nat) (result : List Byte) : State := answer s c op mSUCCESS 0 result

/-- A command is started: counted, off the taken list, and waiting for its answer (R490); the journal says whether it began to change state (R512). -/
def startCmd (s : State) (c : Caller) : State :=
  let b := mboxOf s c.mbox
  let s := setMbox s c.mbox { b with started := b.started ++ [c], takenCmds := b.takenCmds.filter fun t => t.caller ≠ c }
  bump { s with rkn := { s.rkn with journal := s.rkn.journal ++ [(c, true)] } } cMBOX_CMDS

/-- A command taken through the checks: it waits, is refused, or runs `body`, which answers it now or lets it wait on hardware. -/
def mboxRun (s : State) (c : Caller) (op : Nat) (jobs : List Nat) (body : State → State) : State :=
  match gate s c op jobs with
  | .wait => s
  | .deny code detail => answer (startCmd s c) c op code detail []
  | .go => body (startCmd s c)

end Sys2Proof.Machine
end

