-- ==== Sys2Proof/Machine/Deck.lean ====
section
/-! DEFINITION. Between the quarters and the clocked domains: the beam links with their input queues and spilling (R21, R23, R25), the docks of Table 2-4 (R47, R48), and the handshake counters (R49). -/

namespace Sys2Proof.Machine

/-! ### Beam links (R21) -/

/-- The bytes in the input queue of a directed beam link now: it drains at 1.2 TB/s, 1,200 bytes a nanosecond. -/
def beamBytes (s : State) (a b : Nat) : Nat :=
  let x := tgetD s.deck.beams (a, b) {}
  x.bytes - 1200 * (s.now - x.at_)

/-- Bytes enter a directed beam link. -/
def enterBeam (s : State) (a b n : Nat) : State :=
  { s with deck := { s.deck with beams := tset s.deck.beams (a, b) { bytes := beamBytes s a b + n, at_ := s.now } } }

/-- The quarter that an unordered packet goes through when its direct link spills: of the other two, the one with the emptier link, the lower one where they are equal (log entry 28). -/
def spillVia (s : State) (a b : Nat) : Nat :=
  match (List.range 4).filter fun m => m ≠ a && m ≠ b with
  | m :: n :: _ => if beamBytes s a n < beamBytes s a m then n else m
  | _ => b

/-- The directed links from a quarter to another: the direct one; two hops for an unordered packet while the direct link's input queue is above its spill threshold (R21). -/
def beamPath (s : State) (a b : Nat) (ordered : Bool) : List (Nat × Nat) :=
  if a = b then []
  else if ordered || decide (beamBytes s a b ≤ Config.beamSpill a b) then [(a, b)]
  else [(a, spillVia s a b), (spillVia s a b, b)]

/-- Bytes cross from a quarter to another (R21, R23). -/
def crossBeam (s : State) (a b n : Nat) (ordered : Bool) : State := (beamPath s a b ordered).foldl (fun st e => enterBeam st e.1 e.2 n) s

/-- A packet crosses from a quarter to another: one of an ordered flow by the direct link (R21). -/
def crossPacket (s : State) (a b : Nat) (p : Packet) : State := crossBeam s a b (packetSize p) (hasFlag p fORDERED)

/-! ### Docks (R47, R48) -/

/-- The depth of a dock (Table 2-4). -/
def dockDepth : DockKind → Nat
  | .pcsIn | .pcsOut => 16
  | .phyRead | .phyWrite => 64
  | .bead => 32
  | .ucieDown | .ucieUp => 256

/-- How many docks of a kind there are (Table 2-4). -/
def dockCount : DockKind → Nat
  | .pcsIn | .pcsOut => 64
  | .phyRead | .phyWrite | .bead => 128
  | .ucieDown | .ucieUp => 4

/-- The words a dock holds. -/
def dockHeld (s : State) (k : DockKind) (i : Nat) : Nat := tgetD s.deck.docks (k, i) 0

/-- A dock is full: its writer waits, but for the PCS, which cannot (R41, R48). -/
def dockFull (s : State) (k : DockKind) (i : Nat) : Bool := decide (dockDepth k ≤ dockHeld s k i)

/-- The state with a dock's words counted anew. -/
def setDock (s : State) (k : DockKind) (i n : Nat) : State := { s with deck := { s.deck with docks := tset s.deck.docks (k, i) n } }

/-- A word is written into a dock; a full dock takes none (R48). -/
def dockWrite (s : State) (k : DockKind) (i : Nat) : State := if dockFull s k i then s else setDock s k i (dockHeld s k i + 1)

/-- Words are read out of a dock. -/
def dockRead (s : State) (k : DockKind) (i n : Nat) : State := setDock s k i (dockHeld s k i - n)

/-! ### Handshakes (R49) -/

/-- A unit's handshakes. -/
def hsOf (s : State) (g : HsGroup) (i : Nat) : Handshakes := tgetD s.deck.hs (g, i) {}

/-- A unit completes handshakes; those older than 1,000 µs are forgotten (R49). -/
def handshake (s : State) (g : HsGroup) (i n : Nat) (out : Bool) : State :=
  let x := hsOf s g i
  let x := { x with count := (x.count + n) % 2 ^ 64, recent := (s.now, n, out) :: x.recent.filter fun e => s.now < e.1 + us 1000 }
  { s with deck := { s.deck with hs := tset s.deck.hs (g, i) x } }

/-- Completed handshakes per µs on one side of a unit, averaged over the last 1,000 µs; the field saturates (R49, Table 19-10). -/
def hsRate (s : State) (g : HsGroup) (i : Nat) (out : Bool) : Nat :=
  min 65535 ((((hsOf s g i).recent.filter fun e => decide (s.now < e.1 + us 1000) && e.2.2 == out).map fun e => e.2.1).sum / 1000)

/-- The directory controller of a home line, of the 32 on its base die (R49; which one is not stated: log entry 3). -/
def dirController (h : Nat) : Nat := 32 * (h / 2 ^ 27) + Config.dirController h % 32

end Sys2Proof.Machine
end

