-- ==== Sys2Proof/Machine/Egress.lean ====
section
/-! DEFINITION. The way out: logical ports and roles (R54, R428), route sets (R429 to R431), output queues with admission, early drop and marking (R372 to R382), the tally ring (R390 to R395), and the sending of packets. -/

namespace Sys2Proof.Machine

/-! ### Logical ports -/

/-- The T_PORT code of an internal queue: a packet of the module for itself. -/
def selfPort : Nat := 0x3FF

/-- The width of the logical ports of a native port (R54). -/
def widthOf (s : State) (q : Nat) : Nat := 8 / 2 ^ regField s (aPORT_CFG (nativeOf q)) 0 2

/-- Whether a number names a logical port under the present breakout. -/
def isLport (s : State) (q : Nat) : Bool := q < 512 && q % widthOf s q = 0

/-- The logical ports under the present breakout, ascending. -/
def lports (s : State) : List Nat := (List.range 512).filter (isLport s)

/-- A logical port's state. -/
def lport (s : State) (q : Nat) : LPort := tgetD s.links.ports q {}

/-- A lane's state. -/
def lane (s : State) (l : Nat) : Lane := tgetD s.links.lanes l {}

/-- The state with a logical port replaced. -/
def setLport (s : State) (q : Nat) (p : LPort) : State := { s with links := { s.links with ports := tset s.links.ports q p } }

/-- The state with a lane replaced. -/
def setLane (s : State) (l : Nat) (x : Lane) : State := { s with links := { s.links with lanes := tset s.links.lanes l x } }

/-- The lanes of a logical port. -/
def lanesOf (s : State) (q : Nat) : List Nat := (List.range (widthOf s q)).map (q + ·)

/-- The active lanes of a logical port. -/
def activeLanes (s : State) (q : Nat) : List Nat := (lanesOf s q).filter fun l => (lane s l).active

/-- The logical port a lane belongs to. -/
def lportOfLane (s : State) (l : Nat) : Nat := l / widthOf s l * widthOf s l

/-- Whether a port is UP. -/
def isUp (s : State) (q : Nat) : Bool := isLport s q && decide ((lport s q).state = .up)

/-- A port's role (Table 15-1). -/
def roleOf (s : State) (q : Nat) : Nat := regField s (aLPORT_ROLE q) 0 3

/-! ### Link state and route sets -/

/-- This module's own link-state entries (R430). -/
def ownEntries (s : State) : List LsrEntry :=
  (lports s).map fun q =>
    { lport := q, role := roleOf s q, up := isUp s q, lanes := (activeLanes s q).length,
      peer := (lport s q).partnerNode, peerLport := (lport s q).partnerLport }

/-- The entries of a switch's link-state record. -/
def entriesOf (s : State) (n : Nat) : List LsrEntry :=
  if n = myNode s then ownEntries s
  else match tget s.map.lsrs n with
    | some r => r.frags.flatMap (·.2)
    | none => []

/-- Both ends list the link as UP with role SWITCH, each naming the other (R431). -/
def confirmed (s : State) (n : Nat) (e : LsrEntry) : Bool :=
  e.up && decide (e.role = roleSWITCH)
    && (entriesOf s e.peer).any fun b =>
      b.up && decide (b.role = roleSWITCH ∧ b.lport = e.peerLport ∧ b.peer = n ∧ b.peerLport = e.lport)

/-- The confirmed links of a switch. -/
def linksOf (s : State) (n : Nat) : List LsrEntry := (entriesOf s n).filter (confirmed s n)

/-- A switch whose record has DEPARTING set (R431). -/
def departingSwitch (s : State) (n : Nat) : Bool := ((tget s.map.lsrs n).map (·.departing)).getD false

/-- The attachments of a node in a composition. -/
def attachments (c : Composition) (n : Nat) : List (Nat × Nat) :=
  match tget c.nodes n with
  | some e => e.att.map (·.2)
  | none => []

/-- The switches a node can be reached at: itself when it is a switch. -/
def targetSwitches (c : Composition) (n : Nat) : List Nat :=
  match tget c.nodes n with
  | some e => if e.kind = 3 then [n] else e.att.map (·.2.1)
  | none => []

/-- How many further switches a path through a link of this switch crosses: 1 or 2, or 3 for none that may be used (R99, R431). -/
def hopsVia (s : State) (targets : List Nat) (e : LsrEntry) : Nat :=
  if e.peer ∈ targets then 1
  else if departingSwitch s e.peer then 3
  else if (linksOf s e.peer).any fun b => decide (b.peer ∈ targets) then 2 else 3

/-- The ports by which a switch reaches a node under a composition (R431). -/
def routeFrom (s : State) (c : Composition) (sw n : Nat) : List Nat :=
  let own := (attachments c n).filter fun a => a.1 = sw
  if own ≠ [] then
    if sw = myNode s then (own.map (·.2)).filter (isUp s)
    else (own.map (·.2)).filter fun q => (entriesOf s sw).any fun e => decide (e.lport = q) && e.up
  else
    let t := targetSwitches c n
    let ls := linksOf s sw
    let best := (ls.map (hopsVia s t)).foldl min 3
    if best = 3 then [] else (ls.filter fun e => hopsVia s t e = best).map (·.lport)

/-- This module's route set of a node (R431). -/
def routeSet (s : State) (c : Composition) (n : Nat) : List Nat := routeFrom s c (myNode s) n

/-! ### Multicast (R432) -/

/-- A multicast group's identifier (R84). -/
def isGroup (d : Nat) : Bool := 0xC000 ≤ d && d ≤ 0xCFFF

/-- The lowest port of a switch toward a node. -/
def firstPort (s : State) (c : Composition) (sw n : Nat) : Option Nat := (sortAsc (routeFrom s c sw n)).head?

/-- The switches of the path of lowest ports from a switch to a member, at most `fuel` hops. -/
def pathTo (s : State) (c : Composition) (m : Nat) : Nat → Nat → List Nat
  | 0, sw => [sw]
  | fuel + 1, sw =>
    if sw = m then [sw]
    else match firstPort s c sw m with
      | some q => match (linksOf s sw).find? fun e => e.lport = q with
        | some e => sw :: pathTo s c m fuel e.peer
        | none => [sw]
      | none => [sw]

/-- The members of a group whose path from the root passes this module. -/
def membersHere (s : State) (c : Composition) (root : Nat) (ms : List Nat) : List Nat :=
  ms.filter fun m => decide (myNode s ∈ pathTo s c m 3 root)

/-- The ports on which this module copies a group's packet: one copy for each (R432). -/
def copyPorts (s : State) (c : Composition) (root : Nat) (ms : List Nat) : List Nat :=
  sortAsc ((membersHere s c root ms).filterMap fun m => if m = myNode s then none else firstPort s c (myNode s) m)

/-- The switch before this module on the path from a group's root to one of its members. -/
def treeParents (s : State) (c : Composition) (root : Nat) (ms : List Nat) : List Nat :=
  ms.filterMap fun m =>
    let p := pathTo s c m 3 root
    match p.findIdx? (· = myNode s) with
    | some (i + 1) => p[i]?
    | _ => none

/-- The map a packet's EPOCH selects (Table 15-7). -/
def compFor (s : State) (epoch : Nat) : Option Composition :=
  if epoch = s.map.epoch then some s.map.comp
  else if (epoch + 1) % 256 = s.map.epoch then s.map.prev
  else if epoch = (s.map.epoch + 1) % 256 then
    match s.map.proposal with
    | some p => if p.epoch = epoch then some p.comp else none
    | none => none
  else none

/-! ### Cells and admission (R372 to R377) -/

/-- The cells of a packet. -/
def cellsOf (p : Packet) : Nat := ceilDiv (packetSize p) 64

/-- A lossless class (Table 4-4). -/
def lossless (t : Nat) : Bool := t ∈ [0, 1, 2, 5]

/-- The index of a queue: class `t`, origin `o` (R378). -/
def queueKey (q t o : Nat) : Nat := 16 * q + 2 * t + o

/-- An output queue. -/
def outQ (s : State) (k : Nat) : OutQueue := tgetD s.queues.out k {}

/-- The state with an output queue replaced. -/
def setOutQ (s : State) (k : Nat) (x : OutQueue) : State := { s with queues := { s.queues with out := tset s.queues.out k x } }

/-- The cells a list of packets occupies. -/
def cellsIn (l : List QPkt) : Nat := l.foldl (fun n x => n + cellsOf x.pkt) 0

/-- A queue's occupancy. -/
def occupancy (s : State) (k : Nat) : Nat := cellsIn (outQ s k).packets

/-- A quarter's guaranteed cells per queue. -/
def qmin (s : State) (n : Nat) : Nat := regField s (aQUEUE_CFG n) 11 10

/-- The logical ports of a quarter. -/
def quarterPorts (s : State) (n : Nat) : List Nat := (lports s).filter fun q => quarterOf q = n

/-- The cells of the resequencer pool and of the tally region (Table 13-1). -/
def reseqCells (s : State) (n : Nat) : Nat := regField s (aQUEUE_CFG n) 1 5 * 16384
def tallyCells (s : State) (n : Nat) : Nat := regField s (aQUEUE_CFG n) 6 5 * 16384

/-- The free cells of a quarter's shared pool (R374). -/
def sharedFree (s : State) (n : Nat) : Nat :=
  let ports := quarterPorts s n
  let pool := 3145728 - 524288 - reseqCells s n - tallyCells s n - qmin s n * (16 * ports.length + 8)
  let used := (s.queues.out.filter fun e => quarterOf (e.1 / 16) = n).foldl (fun a e => a + (cellsIn e.2.packets - qmin s n)) 0
  pool - used

/-- The fixed partition of legacy mode (R388). -/
def partition (s : State) (n : Nat) : Nat :=
  (3145728 - 524288 - reseqCells s n - tallyCells s n) / ((quarterPorts s n).length + 1)

/-- α of Table 13-8 in 64ths. -/
def alpha64 (code : Nat) : Nat := [1, 4, 8, 16, 32, 64, 128, 256].getD code 16

/-- Whether a queue admits a packet of `c` cells (R374, R388). -/
def admits (s : State) (k c : Nat) : Bool :=
  let n := quarterOf (k / 16)
  if regField s (aQUEUE_CFG n) 0 1 = 1 then
    decide (((List.range 16).foldl (fun a i => a + occupancy s (k / 16 * 16 + i)) 0) + c ≤ partition s n)
  else
    let occ := occupancy s k
    decide (occ + c ≤ qmin s n)
      || decide ((occ - qmin s n + c) * 64 ≤ alpha64 (regField s (aQUEUE_PARAM k) 25 3) * sharedFree s n)

/-- A class's occupancy at a port as spraying counts it (R377). -/
def classOccupancy (s : State) (q t : Nat) : Nat :=
  let one (o : Nat) : Nat :=
    occupancy s (queueKey q t o) + (if lossless t then cellsIn (outQ s (queueKey q t o)).reserve else 0)
  one 0 + one 1

/-! ### The tally ring (R390 to R395) -/

/-- A quarter's tally state. -/
def tally (s : State) (n : Nat) : Tally := tgetD s.queues.tally n {}

/-- The state with a quarter's tally replaced. -/
def setTally (s : State) (n : Nat) (t : Tally) : State := { s with queues := { s.queues with tally := tset s.queues.tally n t } }

/-- 128-byte records. -/
def rec128 (s : State) (n : Nat) : Bool := regField s (aTALLY_CFG n) 7 1 = 1

/-- How many records a quarter's ring holds (R390). -/
def tallyCapacity (s : State) (n : Nat) : Nat :=
  (if regField s (aTALLY_CFG n) 1 1 = 0 then tallyCells s n else 8388608) / (if rec128 s n then 2 else 1)

/-- Records written and not consumed. -/
def tallyUnread (s : State) (n : Nat) : Nat := gap 32 (tally s n).head (regWord s (aTALLY_TAIL n)).toNat

/-- Whether a session selects a packet (Table 13-4). -/
def sessionMatches (a : TallySessionArgs) (q ev : Nat) (p : Packet) : Bool :=
  decide (a.enable = 1) && bit a.events ev && bit a.tcMask p.tc
    && (bit a.anyMask 0 || decide (a.lport = q)) && (bit a.anyMask 1 || decide (a.op = p.op))
    && (bit a.anyMask 2 || decide (a.job = p.job)) && (bit a.anyMask 3 || decide (a.src = p.src))
    && (bit a.anyMask 4 || decide (a.dst = p.dst))

/-- The code of a colour (T_COLOUR). -/
def colourCode (c : Colour) : Nat :=
  match c with
  | .green => 0
  | .yellow => 1
  | .red => 2

/-- The bytes of a tally record (Table 13-5). -/
def tallyBytes (s : State) (n q k ev sess tseq depth : Nat) (c : Colour) (p : Packet) : List Byte :=
  let base := le 8 (timeNow s) ++ le 4 tseq
    ++ le 4 (q % 1024 + k % 16 * 2 ^ 10 + colourCode c * 2 ^ 14 + ev % 8 * 2 ^ 16 + sess % 16 * 2 ^ 19 + min 511 (depth / 1024) * 2 ^ 23)
    ++ headerBytes p
  if rec128 s n then base ++ padTo 16 p.ext ++ (if p.tc = 6 then padTo 48 p.payload else zeros 48) else base

/-- A record enters the ring, overwrites the oldest with WRAP, or is lost (R393). -/
def tallyWrite (s : State) (n : Nat) (r : List Byte) : State :=
  let t := tally s n
  let cap := tallyCapacity s n
  if tallyUnread s n < cap then
    bump (setTally s n { t with ring := (t.ring ++ [r]).drop (t.ring.length + 1 - cap), head := (t.head + 1) % 2 ^ 32 }) (cTALLY_WRITTEN n)
  else if regField s (aTALLY_CFG n) 8 1 = 1 ∧ 0 < cap then
    let s := setTally s n { t with ring := (t.ring ++ [r]).drop (t.ring.length + 1 - cap), head := (t.head + 1) % 2 ^ 32 }
    bump (setRegWord s (aTALLY_TAIL n) (regWord s (aTALLY_TAIL n) + 1)) (cTALLY_WRITTEN n)
  else setEvt (bump s (cTALLY_LOST n)) (aTALLY_CFG n) 19

/-- A capture point: the lowest-numbered matching session considers the packet (R391, R392, R395). -/
def capture (s : State) (q k ev : Nat) (c : Colour) (p : Packet) : State :=
  let n := quarterOf q
  if regField s (aTALLY_CFG n) 0 1 = 0 ∨ level s ≠ 0 then s
  else match (List.range 16).find? (fun i => match tget s.queues.sessions i with
      | some a => sessionMatches a q ev p
      | none => false) with
    | none => s
    | some i =>
      let t := tally s n
      let cnt := tgetD t.sessions i 0
      let shift := ((tget s.queues.sessions i).map (·.shift)).getD 0
      let s := setTally s n { t with sessions := tset t.sessions i (cnt + 1) }
      if cnt % 2 ^ shift = 0 then
        let t := tally s n
        let r := tallyBytes s n q k ev i t.tseq (occupancy s (16 * q + k)) c p
        tallyWrite (setTally s n { t with tseq := (t.tseq + 1) % 2 ^ 32 }) n r
      else s

/-! ### Entering an output queue (R373, R374, R379, R382) -/

/-- The least virtual finish tag a new head of `b` bytes gets (R379). -/
def finishTag (s : State) (k b : Nat) : Nat :=
  max (tgetD s.queues.sched (k / 16) {}).v (outQ s k).fin + ceilDiv (b * 256) (max 1 (regField s (aQUEUE_PARAM k) 0 8))

/-- A packet becomes the last of a queue. -/
def pushTail (s : State) (k : Nat) (x : QPkt) : State :=
  let e := outQ s k
  if e.packets = [] then
    setOutQ s k { e with packets := [x], fin := finishTag s k (packetSize x.pkt), headSince := s.now }
  else setOutQ s k { e with packets := e.packets ++ [x] }

/-- A queue's profile register for a colour. -/
def profileWord (s : State) (k : Nat) (c : Colour) : Nat :=
  let lo := match c with
    | .green => 10
    | .yellow => 15
    | .red => 20
  (regWord s (aAQM_PROFILE (regField s (aQUEUE_PARAM k) lo 5))).toNat

/-- The average of R382 after an arrival that finds `q` cells, in 1/65,536 cells. -/
def nextAvg (avg q shift : Nat) : Nat := (avg * 2 ^ shift + q * 65536 - avg) / 2 ^ shift

/-- The number below which a draw of 16 bits acts: floor(p × 65,536), with 65,536 for p = 1 (R382). -/
def dropPoint (prof avg : Nat) : Nat :=
  let lo := bits prof 11 0 * 256 * 65536
  let hi := bits prof 23 12 * 256 * 65536
  if avg < lo then 0 else if hi ≤ avg then 65536 else bits prof 29 24 * 65536 * (avg - lo) / (64 * (hi - lo))

/-- A port's scheduler. -/
def sched (s : State) (q : Nat) : Sched := tgetD s.queues.sched q {}

/-- The state with a port's scheduler replaced. -/
def setSched (s : State) (q : Nat) (x : Sched) : State := { s with queues := { s.queues with sched := tset s.queues.sched q x } }

/-- A draw of the port's LFSR (R382): its contents are a free value (log entry 3). -/
def drawLfsr (s : State) (q : Nat) : Nat × State :=
  let (v, s) := drawFree s
  (v % 65536, setSched s q { sched s q with lfsr := v % 65536 })

/-- The nodes whose acknowledgement completes a packet: the members of a group, else its destination (R432). -/
def ackers (s : State) (p : Packet) : List Nat :=
  if isGroup p.dst then ((tget s.map.comp.groups p.dst).map (·.2)).getD [] else [p.dst]

/-- A packet of a response message. -/
def isAnswer (p : Packet) : Bool := p.op = opRSP || p.op = opRSP_DATA

/-- A packet of the module leaves: its timer runs from now (R97), its MSG value rests at least from now on (R94), and a message sent more than once is known as such (R100). -/
def noteLeft (s : State) (p : Packet) : State :=
  let nodes := ackers s p
  let sent := s.net.sent.map fun e =>
    if e.1.2 = (p.msg, p.pidx, isAnswer p) ∧ e.1.1 ∈ nodes then
      (e.1, { e.2 with first := some (e.2.first.getD s.now), last := s.now, queued := false }) else e
  if retransmitted p then
    let own := s.net.own.map fun e =>
      if e.1.2 = p.msg then (e.1, { e.2 with lastTx := s.now, again := if hasFlag p fRETX then some s.now else e.2.again }) else e
    let rest := s.now + if nonIdempotent p then 16000000 else 4000000
    { s with net := { s.net with sent := sent, own := own, msgFree := tupd s.net.msgFree p.msg 0 (max rest) } }
  else { s with net := { s.net with sent := sent } }

/-- A packet is dropped at its output queue; one of the module's own has been sent as far as its timers go. -/
def dropAt (s : State) (q k ev : Nat) (ctr : Ctr) (x : QPkt) : State :=
  let s := if x.ingress.isNone then noteLeft s x.pkt else s
  capture (setEvt (bump s ctr) (aQUEUE_CFG (quarterOf q)) 26) q (k % 16) ev x.colour x.pkt

/-- A lossy packet is admitted or discarded (R374). -/
def admitLossy (s : State) (q k : Nat) (x : QPkt) : State :=
  if admits s k (cellsOf x.pkt) then pushTail s k x else dropAt s q k 2 (cLPORT_DROP_TAIL q) x

/-- A queue's occupancy in the units of its thresholds: cells, or 128 bytes in legacy mode (R382, R388). -/
def occUnits (s : State) (k : Nat) : Nat := occupancy s k / (if regField s (aQUEUE_CFG (quarterOf (k / 16))) 0 1 = 1 then 2 else 1)

/-- A lossless packet enters a queue, marked CE when the queue then holds MIN_TH × 256 or more; its reserve cells are free (R373, R382). -/
def enterQueue (s : State) (k : Nat) (x : QPkt) : State :=
  let prof := profileWord s k .green
  let mark := regField s (aQUEUE_CFG (quarterOf (k / 16))) 25 1 = 1 ∧ bits prof 23 12 ≠ 0 ∧ bits prof 11 0 * 256 ≤ occUnits s k
  let x := if mark then { x with pkt := withFlag x.pkt fCE, marked := true } else x
  pushTail s k { x with freed := true }

/-- A packet arrives at an output queue: average, early drop or marking, admission (R373, R374, R382). -/
def enqueue (s : State) (q o : Nat) (x : QPkt) : State :=
  let k := queueKey q x.pkt.tc o
  let e := outQ s k
  let avg := nextAvg e.avg (occUnits s k) (max 1 (regField s (aQUEUE_CFG (quarterOf q)) 21 4))
  let s := setOutQ s k { e with avg := avg }
  if lossless x.pkt.tc then
    if e.reserve = [] ∧ admits s k (cellsOf x.pkt) then enterQueue s k x
    else setOutQ s k { outQ s k with reserve := (outQ s k).reserve ++ [x] }
  else
    let prof := profileWord s k x.colour
    if bits prof 23 12 = 0 ∨ dropPoint prof avg = 0 then admitLossy s q k x
    else
      let (v, s) := drawLfsr s q
      if dropPoint prof avg ≤ v then admitLossy s q k x
      else if bit prof 30 then
        admitLossy (bump s (cLPORT_CE_MARKED q)) q k { x with pkt := withFlag x.pkt fCE, marked := true }
      else dropAt s q k 3 (cLPORT_DROP_AQM q) x

/-! ### Choosing a port and sending -/

/-- The ports of a set with the least occupancy for a class. -/
def leastOf (s : State) (set : List Nat) (t : Nat) : List Nat :=
  let m := (set.map fun q => classOccupancy s q t).foldl min (2 ^ 64)
  set.filter fun q => classOccupancy s q t = m

/-- The port of a route set for a packet: for an ordered flow the one it has, chosen by the flow's hash (R110); else the least occupied, ties at random (R115). -/
def choosePort (s : State) (set : List Nat) (p : Packet) : Option Nat × State :=
  if set = [] then (none, s)
  else if hasFlag p fORDERED then
    let key := (p.src, p.dst, p.flow)
    match tget s.queues.flowPort key with
    | some q => if q ∈ set then (some q, s) else
        let q := set.getD (Config.flowHash p.src p.dst p.flow % set.length) 0
        (some q, { s with queues := { s.queues with flowPort := tset s.queues.flowPort key q } })
    | none =>
        let q := set.getD (Config.flowHash p.src p.dst p.flow % set.length) 0
        (some q, { s with queues := { s.queues with flowPort := tset s.queues.flowPort key q } })
  else
    match leastOf s set p.tc with
    | [q] => (some q, s)
    | l => let (v, s) := drawFree s
           (some (l.getD (v % l.length) (set.getD 0 0)), s)

/-- A packet of the module leaves on a given port. -/
def sendOn (s : State) (q : Nat) (p : Packet) : State :=
  enqueue s q 1 { pkt := sealPacket { p with src := myNode s, epoch := s.map.epoch }, at_ := s.now }

/-- A packet of the module joins the internal queue of its class (R376). -/
def sendSelf (s : State) (p : Packet) : State :=
  let x : QPkt := { pkt := sealPacket { p with src := myNode s, epoch := s.map.epoch }, at_ := s.now }
  { s with queues := { s.queues with intern := tupd s.queues.intern p.tc [] (· ++ [x]) } }

/-- A packet of the module without a route is kept aside until it has one (R115); its timers run meanwhile (R97). -/
def keepAside (s : State) (p : Packet) : State :=
  noteLeft { s with queues := { s.queues with noRoute := s.queues.noRoute ++ [sealPacket { p with src := myNode s, epoch := s.map.epoch }] } } p

/-- A packet of the module leaves by the current map for a node; for itself it enters its own queue. -/
def sendTo (s : State) (node : Nat) (p : Packet) : State :=
  if node = myNode s then sendSelf s p
  else match choosePort s (routeSet s s.map.comp node) p with
    | (some q, s) => sendOn s q p
    | (none, s) => keepAside s p

/-- A packet of the module leaves: to its node, to a group's root, or, at the root, down the group's tree (R115, R432). -/
def send (s : State) (p : Packet) : State :=
  if isGroup p.dst then
    match tget s.map.comp.groups p.dst with
    | none => keepAside s p
    | some (root, ms) =>
      if root = myNode s then
        let ports := copyPorts s s.map.comp root ms
        let s := ports.foldl (fun st q => bump (sendOn st q p) cMCAST_COPIES) s
        if myNode s ∈ ms then bump (sendSelf s p) cMCAST_COPIES else s
      else sendTo s root p
  else sendTo s p.dst p

/-- A packet of the module has a route now. -/
def hasRoute (s : State) (p : Packet) : Bool :=
  let to_ (n : Nat) : Bool := n = myNode s || routeSet s s.map.comp n ≠ []
  if isGroup p.dst then (match tget s.map.comp.groups p.dst with
    | some (root, _) => to_ root
    | none => false)
  else to_ p.dst

/-- Packets kept aside that have a route leave. -/
def sendAside (s : State) : State :=
  (s.queues.noRoute.filter (hasRoute s)).foldl send { s with queues := { s.queues with noRoute := s.queues.noRoute.filter fun p => !hasRoute s p } }

/-! ### Credits of the partner of a port (R66) -/

/-- The place of a lossless class in the credit lists (Table 3-4). -/
def creditClass (tc : Nat) : Nat := if tc = 5 then 3 else tc

/-- Credits returned to a port's partner (R66). -/
def returnCredits (s : State) (q tc n : Nat) : State :=
  let x := lport s q
  setLport s q { x with ccumOut := x.ccumOut.set (creditClass tc) ((x.ccumOut.getD (creditClass tc) 0 + n) % 4096) }

end Sys2Proof.Machine
end

