-- ==== Sys2Proof/Machine/Answers.lean ====
section
/-! DEFINITION. The transport every packet shares: the checks of R570, ACK and NAK gathering (R95, R96), the dedup table (R101 to R103), responses (R105 to R107), the NOT_READY bucket (R532), and the messages the module itself originates (R94, R97). -/

namespace Sys2Proof.Machine

/-! ### The checks of R570 -/

/-- The header extension has a reserved value (Tables 4-3, 9-8, 12-7). -/
def badExtension (p : Packet) : Bool :=
  hasFlag p fEXT &&
    (match (p.ext.headD 0).toNat with
     | 1 => bit (field p.ext 6 3) 23 || field p.ext 11 5 ≠ 0 || 4 ≤ bits (field p.ext 1 3) 23 20
     | 2 => bits (field p.ext 1 3) 23 20 ≠ 0 || bits (field p.ext 8 1) 7 6 ≠ 0 || bits (field p.ext 9 1) 7 4 ≠ 0 || field p.ext 10 6 ≠ 0
     | _ => true)

/-- A DST that R84 allows. -/
def goodDst (p : Packet) : Bool := p.dst < 0x4000 || (0xC000 ≤ p.dst && p.dst ≤ 0xCFFF) || (p.dst = 0xFFFF && p.tc = 6)

/-- A SRC that R84 and Table 4-1 allow. -/
def goodSrc (p : Packet) : Bool := p.src < 0x4000 || (p.src = 0xFFFF && p.tc = 6)

/-- The first check of R570, and then of the bounds of LEN (R83), that a packet fails, as its code. -/
def headerCheck (p : Packet) : Option Nat :=
  if p.ver ≠ 1 then some kUNSUPPORTED_VERSION
  else if p.rsv ≠ 0 ∨ p.flags / 1024 ≠ 0 ∨ badExtension p ∨ !goodDst p ∨ !goodSrc p
      ∨ (isRequestOp p.op ∧ (hasFlag p fRACK ∨ p.status ≠ 0)) then some kMALFORMED
  else match opClasses p.op with
    | none => some kUNSUPPORTED_OPERATION
    | some l => if p.tc ∈ l ∧ lenOf p + (if hasFlag p fEXT then 16 else 0) ≤ 4096 then none else some kMALFORMED

/-! ### ACK and NAK entries -/

/-- The 16 bytes of an entry (Table 4-6). -/
def entryBytes (e : AckEntry) : List Byte :=
  le 4 (e.emsg % 2 ^ 24 + flag e.ersp * 2 ^ 24) ++ le 4 (e.epidx % 4096 + e.erun % 4096 * 4096)
    ++ le 4 (e.estatus % 65536 + min 65535 e.ehint * 65536) ++ le 4 (flag e.ece + e.edetail % 2 ^ 31 * 2)

/-- The entry that 16 bytes hold. -/
def parseEntry (b : List Byte) : AckEntry :=
  { emsg := field b 0 3, ersp := bit (field b 3 1) 0, epidx := field b 4 4 % 4096, erun := field b 4 4 / 4096 % 4096,
    estatus := field b 8 2, ehint := field b 10 2, ece := bit (field b 12 4) 0, edetail := field b 12 4 / 2 }

/-- An ACK or NAK packet of the module (R96). -/
def sendEntries (s : State) (nak : Bool) (dst : Nat) (l : List AckEntry) : State :=
  if l = [] then s
  else send s { tc := 2, op := if nak then opNAK else opACK, dst := dst, flags := 2 ^ fLAST, payload := l.flatMap entryBytes }

/-- Entry `b` continues the run of `a`: the same message and answer, and the PIDX that follows. -/
def continuesRun (a b : AckEntry) : Bool :=
  decide (a.emsg = b.emsg ∧ a.ersp = b.ersp ∧ a.estatus = b.estatus ∧ a.ehint = b.ehint ∧ a.edetail = b.edetail ∧ a.epidx + a.erun + 1 = b.epidx)

/-- Two runs as one. -/
def joinRuns (a b : AckEntry) : AckEntry := { a with erun := a.erun + b.erun + 1, ece := a.ece || b.ece }

/-- An entry among those gathered: runs of PIDX are joined, and the entries of a message ascend (Table 4-6, Table 4-10). -/
def joinEntry : List AckEntry → AckEntry → List AckEntry
  | [], e => [e]
  | a :: r, e =>
    if continuesRun a e then
      match r with
      | b :: r' => if continuesRun (joinRuns a e) b then joinRuns (joinRuns a e) b :: r' else joinRuns a e :: b :: r'
      | [] => [joinRuns a e]
    else if continuesRun e a then joinRuns e a :: r
    else if a.emsg = e.emsg ∧ e.epidx < a.epidx then e :: a :: r
    else a :: joinEntry r e

/-- The gathering contexts of a quarter in use (R95). -/
def gatherCount (s : State) (n : Nat) : Nat :=
  (s.net.acks.filter fun e => e.1.1 = n).length + (s.net.naks.filter fun e => e.1.1 = n).length

/-- An entry for a source is gathered at the ingress quarter, or sent at once when no context is free or it fills its packet (R95). -/
def gatherEntry (s : State) (nak : Bool) (n src : Nat) (e : AckEntry) : State :=
  let t := if nak then s.net.naks else s.net.acks
  let put (t : Table (Nat × Nat) Gather) : State :=
    { s with net := if nak then { s.net with naks := t } else { s.net with acks := t } }
  match tget t (n, src) with
  | some g =>
    let l := joinEntry g.entries e
    if 256 ≤ l.length then sendEntries (put (tdel t (n, src))) nak src l else put (tset t (n, src) { g with entries := l })
  | none =>
    if 4096 ≤ gatherCount s n then sendEntries s nak src [e] else put (tset t (n, src) { entries := [e], since := s.now })

/-- The gathered entries of a source leave. -/
def flushEntries (s : State) (n src : Nat) : State :=
  let a := ((tget s.net.acks (n, src)).map (·.entries)).getD []
  let b := ((tget s.net.naks (n, src)).map (·.entries)).getD []
  let s := { s with net := { s.net with acks := tdel s.net.acks (n, src), naks := tdel s.net.naks (n, src) } }
  sendEntries (sendEntries s false src a) true src b

/-- The ACK entry of an accepted packet (R95). -/
def ackPacket (s : State) (q : Nat) (p : Packet) : State :=
  if retransmitted p then
    gatherEntry s false (quarterOf q) p.src { emsg := p.msg, epidx := p.pidx, estatus := kSUCCESS, ece := hasFlag p fCE }
  else s

/-- The NAK entry of a refused packet, with E_RSP for one of a response (R95, R96); ROD_NAK_SENT of the ingress rod counts it.
A source that the map gives no route is answered on the port its packet came by (DEDUCED, log entry 22). -/
def nakPacket (s : State) (q : Nat) (p : Packet) (code detail hint : Nat) : State :=
  if p.src = 0xFFFF then s
  else
    let e : AckEntry := { emsg := p.msg, ersp := isAnswer p, epidx := p.pidx, estatus := code, ehint := hint, edetail := detail, ece := hasFlag p fCE }
    bump (if p.src ≠ myNode s ∧ routeSet s s.map.comp p.src = [] ∧ isUp s q then
        sendOn s q { tc := 2, op := opNAK, dst := p.src, flags := 2 ^ fLAST, payload := entryBytes e }
      else gatherEntry s true (quarterOf q) p.src e)
      (cROD_NAK_SENT (nativeOf q % 64))

/-- The payload of an RSP with a code other than SUCCESS (Table 4-7). -/
def failPayload (detail hint value : Nat) : List Byte := le 2 (min 65535 hint) ++ le 2 0 ++ le 4 detail ++ le 8 value

/-- A coherence packet to the link partner of a port (R191). -/
def sendCoh (s : State) (q op msg oparg addr status : Nat) (data : List Byte) : State :=
  sendOn s q { tc := if op = opSNOOP then 1 else 2, op := op, flags := 2 ^ fLAST, dst := (lport s q).partnerNode, msg := msg, oparg := oparg,
               addr := addr, status := status, payload := data }

/-- CRSP REFUSED to a CREQ (R191, Table 7-3). -/
def refuseCreq (s : State) (q : Nat) (p : Packet) (code detail hint : Nat) : State :=
  sendCoh s q opCRSP p.msg 4 0 code (failPayload detail hint 0)

/-- A packet is refused: CRSP REFUSED for a CREQ, a NAK entry for any other, but none for a SNOOP, CRSP or CDAT, nor for an ACK or NAK (R95, R96, R191). -/
def refuse (s : State) (q : Nat) (p : Packet) (code detail hint : Nat) : State :=
  if p.op = opCREQ then refuseCreq s q p code detail hint
  else if p.op ∈ [opSNOOP, opCRSP, opCDAT, opACK, opNAK] then s
  else nakPacket s q p code detail hint

/-! ### NOT_READY (R531, R532) -/

/-- The bucket as it has filled: 1,000,000 tokens per second, at most 1,000, in thousandths. -/
def tokensNow (s : State) : Nat := min 1000000 (s.supply.tokens + (s.now - s.supply.tokensAt))

/-- The nominal time remaining to READY, in µs, at least 1,000 and at most 65,535 (R531). -/
def readyHint (s : State) : Nat := min 65535 (max 1000 ((s.supply.time0 + 1000000000 - s.now) / 1000))

/-- A NOT_READY refusal takes a token; with none the packet is discarded (R532). -/
def refuseNotReady (s : State) (q : Nat) (p : Packet) (detail hint : Nat) : State :=
  let t := tokensNow s
  if 1000 ≤ t then
    bump (refuse { s with supply := { s.supply with tokens := t - 1000, tokensAt := s.now } } q p kNOT_READY detail hint) cNOTREADY_SENT
  else bump { s with supply := { s.supply with tokens := t, tokensAt := s.now } } cNOTREADY_DROPPED

/-! ### Sending what the module originates -/

/-- A copy of a request message of the module waits to leave. -/
def copyQueued (s : State) (m : Nat) : Bool :=
  let mine (p : Packet) : Bool := p.msg = m && retransmitted p
  (s.queues.out.any fun e => (e.2.packets ++ e.2.reserve).any fun x => x.ingress.isNone && mine x.pkt)
    || (s.queues.intern.any fun e => e.2.any fun x => mine x.pkt) || s.queues.noRoute.any mine

/-- Whether an MSG value is free: no message of the module uses it, no copy with it waits to leave, and its hold has passed (R94). -/
def msgIsFree (s : State) (m : Nat) : Bool :=
  !(s.net.own.any fun e => e.1.2 = m) && !copyQueued s m && (match tget s.net.msgFree m with
    | some t => decide (t ≤ s.now)
    | none => true)

/-- The first free MSG value from one on, within `fuel` tries. -/
def findMsg (s : State) : Nat → Nat → Option Nat
  | 0, _ => none
  | fuel + 1, m => if msgIsFree s (m % 2 ^ 24) then some (m % 2 ^ 24) else findMsg s fuel (m + 1)

/-- The packets of the module that wait to leave. -/
def waitingOut (s : State) : Nat :=
  (s.queues.out.map fun e => e.2.packets.length + e.2.reserve.length).sum + (s.queues.intern.map fun e => e.2.length).sum + s.queues.noRoute.length

/-- An MSG value for a message of the module; none while none is free. -/
def allocMsg (s : State) : Option (Nat × State) :=
  (findMsg s (min (2 ^ 24) (s.net.own.length + s.net.msgFree.length + waitingOut s + 1)) s.net.nextMsg).map fun m =>
    (m, { s with net := { s.net with nextMsg := (m + 1) % 2 ^ 24, msgFree := s.net.msgFree.filter fun e => s.now < e.2 } })

/-- A packet is kept until it is answered (R97). -/
def keepSent (s : State) (p : Packet) (rsp : Bool) : State :=
  { s with net := { s.net with sent := tset s.net.sent (p.dst, p.msg, p.pidx, rsp) { pkt := p } } }

/-- A message of the module of one packet, under an MSG value: it is kept and sent, and `purpose` says what its completion does.
FLAGS.LAST stays 0 in TC5 (R248, R260). -/
def launchOwn (s : State) (purpose : Purpose) (m : Nat) (p : Packet) : State :=
  let p := if p.tc = 5 then { p with msg := m } else withFlag { p with msg := m } fLAST
  let s := { s with net := { s.net with own := tset s.net.own (p.dst, m) { purpose := purpose, dst := p.dst, tc := p.tc, job := p.job, opened := s.now, pkt := p } } }
  send (if retransmitted p then (ackers s p).foldl (fun st n => keepSent st { p with dst := n } false) s else s) p

/-- The egress port toward a node: the lowest of its route set. -/
def egressPort (s : State) (dst : Nat) : Nat := (sortAsc (routeSet s s.map.comp dst)).headD 0

/-- Whether a message is of those that the module paces (R383). -/
def paced (p : Purpose) : Bool :=
  match p with
  | .combinedLoad _ | .combinedAtomic _ | .plain | .late => false
  | _ => true

/-- The rate entry that paces a message; the flushes of shed level L3 and of drain-and-depart ignore it (R383). -/
def pacer (s : State) (purpose : Purpose) (p : Packet) : Option ((Nat × Nat) × RateEntry) :=
  if !paced purpose || decide (3 ≤ level s) || s.map.drainCaller.isSome then none
  else (tget s.queues.rates (quarterOf (egressPort s p.dst), p.dst)).map fun r => ((quarterOf (egressPort s p.dst), p.dst), r)

/-- A message must wait for its turn at the rate of its destination. -/
def paceWaits (s : State) (purpose : Purpose) (p : Packet) : Bool := (pacer s purpose p).any fun e => decide (s.now < e.2.nextAt)

/-- A paced message leaves: the next one follows once it has passed at the entry's rate, in MB/s. -/
def paceNote (s : State) (purpose : Purpose) (p : Packet) : State :=
  match pacer s purpose p with
  | some (k, r) => { s with queues := { s.queues with rates := tset s.queues.rates k { r with nextAt := s.now + ceilDiv (packetSize p * 1000) (max 1 r.rate) } } }
  | none => s

/-- A message of the module goes, or is held back while its destination's rate or the want of a free MSG value says so (R94, R383). -/
def launchOr (s : State) (purpose : Purpose) (p : Packet) : State :=
  let held : State := { s with net := { s.net with heldOwn := s.net.heldOwn ++ [(purpose, p)] } }
  if paceWaits s purpose p then held
  else match allocMsg s with
    | some (m, s) => launchOwn (paceNote s purpose p) purpose m p
    | none => held

/-- A message of the module of one packet; it goes behind those to its node that are held back. -/
def sendOwn (s : State) (purpose : Purpose) (p : Packet) : State :=
  if s.net.heldOwn.any fun e => e.2.dst = p.dst && paced e.1 && paced purpose then
    { s with net := { s.net with heldOwn := s.net.heldOwn ++ [(purpose, p)] } }
  else launchOr s purpose p

/-- The messages held back that may go now do so, oldest first (R94, R383). -/
def releaseOwn (s : State) : State := s.net.heldOwn.foldl (fun st e => launchOr st e.1 e.2) { s with net := { s.net with heldOwn := [] } }

/-- A POSTED STORE that writes a record through a window of another home: JOB 0, ASPACE 1 (R137, R169). -/
def sendRecord (s : State) (purpose : Purpose) (dst cap off : Nat) (rec : List Byte) : State :=
  sendOwn s purpose { tc := 0, op := opSTORE, dst := dst, oparg := 1, addr := off, cap := cap, flags := 2 ^ fPOSTED, payload := rec }

/-! ### The dedup table -/

/-- The entry of a request. -/
def dedupOf (s : State) (p : Packet) : Option Dedup := tget s.net.dedup (p.src, p.msg)

/-- The state with a dedup entry written. -/
def setDedup (s : State) (k : Nat × Nat) (d : Dedup) : State := { s with net := { s.net with dedup := tset s.net.dedup k d } }

/-- The dedup table is full (R103). -/
def dedupFull (s : State) : Bool := 1048576 ≤ s.net.dedup.length

/-- A non-idempotent request takes its entry when it is accepted (R101). -/
def openDedup (s : State) (p : Packet) : State :=
  if nonIdempotent p && (dedupOf s p).isNone then
    setDedup s (p.src, p.msg) { posted := hasFlag p fPOSTED, created := s.now, epoch := s.map.epoch, job := p.job }
  else s

/-- An answered non-idempotent request: its entry holds the answer, or is freed by an R-class code (R101, R102). -/
def closeDedup (s : State) (p : Packet) (code : Nat) (rsp : Option Packet) (ack : Option AckEntry) : State :=
  if nonIdempotent p then
    if isRClass code then { s with net := { s.net with dedup := tdel s.net.dedup (p.src, p.msg) } }
    else match dedupOf s p with
      | some d => setDedup s (p.src, p.msg)
          { d with done := true, rsp := rsp, ack := ack, sentAt := s.now, ackedAt := if ack.isSome then some s.now else d.ackedAt }
      | none => s
  else s

/-! ### Responses -/

/-- A response packet to a request: classes and fields of R105 and Table 4-4; RACK for a non-idempotent one. -/
def responsePacket (p : Packet) (op status oparg addr : Nat) (data : List Byte) : Packet :=
  { tc := responseTc p.tc, op := op, dst := p.src, job := p.job, msg := p.msg, status := status, oparg := oparg, addr := addr,
    flags := 2 ^ fLAST + (if nonIdempotent p then 2 ^ fRACK else 0), payload := data }

/-- A response packet leaves; one with RACK is kept for retransmission (R97, R105). -/
def sendRsp (s : State) (r : Packet) : State := send (if hasFlag r fRACK then keepSent s r true else s) r

/-- The stored answer of an entry is sent again (R101). A joiner's answer leaves from here for the first time, and is kept for retransmission as its own message's would be (R571). -/
def replayDedup (s : State) (q : Nat) (p : Packet) (d : Dedup) : State :=
  let s := match d.rsp with
    | some r =>
      if d.combined.isSome && d.sentAt = 0 && hasFlag r fRACK then sendRsp (setDedup s (p.src, p.msg) { d with sentAt := s.now }) r
      else send s (withFlag r fRETX)
    | none => s
  match d.ack with
  | some e =>
    let s := setDedup s (p.src, p.msg) { d with ackedAt := some s.now }
    gatherEntry s (e.estatus ≠ kSUCCESS) (quarterOf q) p.src e
  | none => s

/-- A copy of a request that has an entry: absorbed while in progress (acknowledged when not POSTED), answered from the entry once done (R101). -/
def absorbCopy (s : State) (q : Nat) (p : Packet) (d : Dedup) : State :=
  if d.done then replayDedup s q p d else if d.posted then s else ackPacket s q p

/-- The answer of a request with a status and a result: RSP, or the ACK or NAK entry of a POSTED one (R105, R106, R138). -/
def respond (s : State) (q : Nat) (p : Packet) (status detail hint value : Nat) (result : List Byte) : State :=
  if hasFlag p fPOSTED then
    let e : AckEntry := { emsg := p.msg, epidx := p.pidx, estatus := status, ehint := if status = kSUCCESS then 0 else hint,
                          edetail := if status = kSUCCESS then 0 else detail, ece := hasFlag p fCE }
    let s := closeDedup s p status none (some e)
    if status = kSUCCESS then gatherEntry s false (quarterOf q) p.src e
    else bump (gatherEntry s true (quarterOf q) p.src e) (cROD_NAK_SENT (nativeOf q % 64))
  else
    let r := responsePacket p opRSP status 0 0 (if status = kSUCCESS then result else failPayload detail hint value)
    sendRsp (closeDedup s p status (some r) none) r

/-- `SUCCESS` with a result of at most 16 bytes. -/
def respondOk (s : State) (q : Nat) (p : Packet) (result : List Byte) : State := respond s q p kSUCCESS 0 0 0 result

/-- The data of a response and what is wrong with it: the bytes, and for each 128-byte payload line the P-class code and detail of a poisoned line. -/
structure DataOut where
  data : List Byte
  bad : List (Nat × Nat × Nat) := []
  deriving DecidableEq, Repr

/-- A payload with its marked lines set to zero (R107). -/
def maskData (d : List Byte) (marks : List Nat) : List Byte :=
  (List.range d.length).map fun i => if i / 128 ∈ marks then 0 else d.getD i 0

/-- The RSP_DATA packets of some data: 4,096 bytes each, the mask in OPARG, the code and detail of the lowest marked line of each packet (R107). -/
def dataPackets (p : Packet) (o : DataOut) : List Packet :=
  let n := max 1 (ceilDiv o.data.length 4096)
  (List.range n).map fun i =>
    let d := (o.data.drop (4096 * i)).take 4096
    let bad := o.bad.filter fun b => b.1 / 32 = i
    let marks := bad.map fun b => b.1 % 32
    let first := (sortBy (fun b => b.1) bad).headD (0, kSUCCESS, 0)
    let r := responsePacket p opRSP_DATA first.2.1 (marks.foldl (fun m j => m ||| 2 ^ j) 0) first.2.2 (maskData d marks)
    { r with pidx := i, pcnt := n - 1, flags := (if i + 1 = n then 2 ^ fLAST else 0) + (if nonIdempotent p then 2 ^ fRACK else 0) }

/-- The answer of a request with data (R105, R107). -/
def respondData (s : State) (p : Packet) (o : DataOut) : State :=
  (dataPackets p o).foldl sendRsp (closeDedup s p kSUCCESS ((dataPackets p o).head?) none)

/-- RSP_DATA that says a line gave nothing: its status in OPARG bit 0 and a zero payload of `len` bytes, POSTED or not (R210, R234). -/
def respondPoison (s : State) (p : Packet) (len mask code detail : Nat) : State :=
  let r := responsePacket p opRSP_DATA code mask detail (zeros len)
  sendRsp (closeDedup s p code (some r) none) r

end Sys2Proof.Machine
end

