-- ==== Sys2Proof/Machine/Translate.lean ====
section
/-! DEFINITION. Where an access goes: the resident space (R214, R215), home line numbers (R191), the walk of a job's table and the translation caches (R131 to R134), page rights and key grants (R133, R411). -/

namespace Sys2Proof.Machine

/-! ### Channels and frames -/

/-- The resident channels, numbered 16 × stack + channel, in the order of R215. -/
def residentChannels (s : State) : List Nat :=
  (List.range 128).filter fun c => bit (regField s (aNEAR_RESIDENT (c / 16)) 0 16) (c % 16)

/-- The number of 64 KiB frames of the resident space (R215). -/
def residentFrames (s : State) : Nat := 8192 * (residentChannels s).length

/-- The channel that holds a resident frame. -/
def frameChannel (s : State) (f : Nat) : Option Nat := (residentChannels s)[f / 8192]?

/-- The resident frame of a line of this module. -/
def frameOfLine (l : Nat) : Nat := offOf (l * 128) / 65536

/-- The channel of a line of this module; none beyond the resident space. -/
def lineChannel (s : State) (l : Nat) : Option Nat := if isTrayLine s l then none else frameChannel s (frameOfLine l)

/-- EV_UNIT of the bank pair of a home line number: 16 × channel index + pair (R337, Table 16-4; log entry 11). -/
def pairOfHln (h : Nat) : Nat := 16 * (h / 2 ^ 22) + h % 2 ^ 22 / 512 % 16

/-- What a home line number's slot lay on is gone: a failed stack, or a retired bank pair (R232, R459). -/
def hlnGone (s : State) (h : Nat) : Bool := decide (h / 2 ^ 26 ∈ s.pool.stacksLost) || decide (pairOfHln h ∈ s.spares.bankRetired)

/-- The home quarter of a tray (R216). -/
def trayQuarter (s : State) (node : Nat) : Nat := tgetD s.pool.trayHome node 0

/-- The home quarter of a line (R216). -/
def lineQuarter (s : State) (l : Nat) : Nat :=
  if isTrayLine s l then trayQuarter s (nodeOf (l * 128)) else ((lineChannel s l).getD 0) / 32

/-- The home line number of a line (R191), its slot laid out by stack, channel and line (log entry 11); none for a line the near tier does not hold. -/
def hlnOf (s : State) (l : Nat) : Option Nat :=
  if isTrayLine s l then tget s.pool.slots l
  else (lineChannel s l).map fun c => c / 32 * 2 ^ 27 + c % 32 * 2 ^ 22 + frameOfLine l % 8192 * 512 + l % 512

/-- The line that a home line number names. -/
def lineOfHln (s : State) (h : Nat) : Option Nat :=
  match s.pool.slots.find? fun e => e.2 = h with
  | some e => some e.1
  | none =>
    let c := h / 2 ^ 27 * 32 + h / 2 ^ 22 % 32
    match (residentChannels s).findIdx? (· = c) with
    | some i => some (lineOf (ownAddr s ((i * 8192 + h / 512 % 8192) * 65536)) + h % 512)
    | none => none

/-! ### The walk -/

/-- The size of the translation region (R156). -/
def ttSize (s : State) : Nat := regField s aMEMOP_CFG 0 6 * 2 ^ 28

/-- The stack that holds an offset of the translation region (log entry 12). -/
def ttStack (s : State) (off : Nat) : Nat := off / (ttSize s / 8)

/-- An entry of the translation region; none when it is an uncorrectable error (R134, R232). -/
def ttEntry (s : State) (off : Nat) : Option Nat :=
  match tget s.pool.tt (off / 8) with
  | some e => some e
  | none => if ttStack s off ∈ s.pool.stacksLost then none else some 0

/-- The low bit and width of a level's index (Table 5-4). -/
def levelShift (l : Nat) : Nat := [39, 30, 21, 16].getD l 16
def levelBits (l : Nat) : Nat := if l = 3 then 5 else 9

/-- The page size of a leaf at a level. -/
def pageSize (l : Nat) : Nat := 2 ^ levelShift l

/-- The index of an address at a level. -/
def levelIndex (l va : Nat) : Nat := va / 2 ^ levelShift l % 2 ^ levelBits l

/-- Fields of an entry (Table 5-5). -/
def ttKind (e : Nat) : Nat := bits e 1 0
def ttNext (e : Nat) : Nat := bits e 36 12 * 256
def leafTier (e : Nat) : Nat := bits e 3 2
def leafRights (e : Nat) : Nat := bits e 7 4
def leafBeadWr (e : Nat) : Bool := bit e 8
def leafE2e (e : Nat) : Bool := bit e 9
def leafProt (e : Nat) : Bool := bit e 10
def leafSlot (e : Nat) : Nat := bits e 21 12
def leafNode (e : Nat) : Nat := bits e 37 24
def leafPfn (e : Nat) : Nat := bits e 63 38
def tierABSENT : Nat := 0
def tierPRESENT : Nat := 1
def tierCOMPRESSED : Nat := 2

/-- The pool physical address that a leaf gives a job-virtual address. -/
def leafAddr (l e va : Nat) : Nat := poolAddr (leafNode e) (leafPfn e * 65536 + va % pageSize l)

/-- What a walk meets. -/
inductive Walk where
  | leaf (level entry : Nat)
  | invalid
  | poison
  deriving DecidableEq, Repr

/-- A walk from a table of level `4 - n`; a LEAF entry at level 0 and a TABLE entry at level 3 are not written by any command. -/
def walkFrom (s : State) (va : Nat) : Nat → Nat → Walk
  | 0, _ => .invalid
  | n + 1, off =>
    let l := 3 - n
    match ttEntry s (off + 8 * levelIndex l va) with
    | none => .poison
    | some e => if ttKind e = 2 then .leaf l e else if ttKind e = 1 then walkFrom s va n (ttNext e) else .invalid

/-- The walk of a job's table from its root (R131). -/
def walk (s : State) (job va : Nat) : Walk :=
  match tget s.pool.jobs job with
  | some j => walkFrom s va 4 j.ttRoot
  | none => .invalid

/-- The offset of the entry that a walk reaches at a level, with the entry; none where the path does not lead there. -/
def entryAt (s : State) (va level : Nat) : Nat → Nat → Option (Nat × Nat)
  | 0, _ => none
  | n + 1, off =>
    let l := 3 - n
    let at_ := off + 8 * levelIndex l va
    match ttEntry s at_ with
    | none => none
    | some e => if l = level then some (at_, e) else if ttKind e = 1 then entryAt s va level n (ttNext e) else none

/-- The entry of a job's table that covers an address at a level. -/
def coveringEntry (s : State) (job va level : Nat) : Option (Nat × Nat) :=
  match tget s.pool.jobs job with
  | some j => entryAt s va level 4 j.ttRoot
  | none => none

/-! ### The translation caches (R134) -/

/-- A leaf that a quarter's cache holds. -/
def cached (s : State) (n job va : Nat) : Option (Nat × Nat) :=
  ([3, 2, 1].findSome? fun l => (tget s.pool.xlate (n, job, l, va / pageSize l)).map fun e => (l, e))

/-- A lookup in a quarter's cache, with the walk of a miss, the report of a table in error, and, of an access's first lookup of the page, its counter (R134). -/
def translate (s : State) (n job va : Nat) (fresh : Bool := true) : Walk × State :=
  match cached s n job va with
  | some (l, e) => (.leaf l e, if fresh then bump s (cXLATE_HIT n) else s)
  | none =>
    let s := if fresh then bump s (cXLATE_MISS n) else s
    match walk s job va with
    | .leaf l e =>
      if leafTier e = tierABSENT ∨ 12582912 ≤ (s.pool.xlate.filter fun x => x.1.1 = n).length then (.leaf l e, s)
      else (.leaf l e, { s with pool := { s.pool with xlate := tset s.pool.xlate (n, job, l, va / pageSize l) e } })
    | .poison => (.poison, event (setEvt s aMEMOP_CFG 9) eWALK_POISON sevDEGRADED 15 0 job va)
    | .invalid => (.invalid, s)

/-- Every quarter drops the leaves of a job that cover a range (R135). -/
def dropXlate (s : State) (job va len : Nat) : State :=
  { s with pool := { s.pool with xlate := s.pool.xlate.filter fun e =>
      !(e.1.2.1 = job && decide (e.1.2.2.2 * pageSize e.1.2.2.1 < va + len)
        && decide (va < (e.1.2.2.2 + 1) * pageSize e.1.2.2.1)) } }

/-! ### Rights -/

def rightRead : Nat := 0
def rightWrite : Nat := 1
def rightAtomic : Nat := 2
def rightGather : Nat := 3

/-- A key slot. -/
def keySlot (s : State) (i : Nat) : KeySlot := tgetD s.ten.slots i {}

/-- What a protected page's slot says to a job (R411): the code of its refusal. An access admitted under an earlier grant is not judged again (R420). -/
def keyRefusal (s : State) (e job : Nat) (admitted : Bool) : Option Nat :=
  if leafProt e then
    let k := keySlot s (leafSlot e)
    match k.state with
    | .free | .allocated => some kKEY_NOT_GRANTED
    | .draining => some kTENANT_GONE
    | .active => if job ∈ k.jobs ∨ admitted then none else some kKEY_NOT_GRANTED
  else none

/-- The home of a tray in a composition: the switch of its lowest-numbered attachment (R429). -/
def homeIn (c : Composition) (node : Nat) : Option Nat :=
  match tget c.nodes node with
  | some e => if e.kind = 2 then (sortBy (fun a => a.1) e.att).head?.map (·.2.1) else none
  | none => none

/-- A tray of the composition whose home is another switch: this module answers REROUTE for it (R440, R442). -/
def gaveUp (s : State) (node : Nat) : Bool :=
  match homeIn s.map.comp node with
  | some h => h ≠ myNode s
  | none => false

/-- Memory that another module homes: a tray of another switch, or another switch's own memory (R271). -/
def elsewhere (s : State) (node : Nat) : Bool :=
  decide (node ≠ myNode s) && (gaveUp s node || decide (((tget s.map.comp.nodes node).map (·.kind)) = some 3))

/-- The entries of a table, of level `4 - n` at `off` for addresses from `base` on, lead an address from `lo` up to `hi` to another module's memory. -/
def strayUnder (s : State) (lo hi : Nat) : Nat → Nat → Nat → Bool
  | 0, _, _ => false
  | n + 1, off, base =>
    let l := 3 - n
    (List.range (2 ^ levelBits l)).any fun i =>
      let a := base + i * pageSize l
      decide (a < hi ∧ lo < a + pageSize l) && (match ttEntry s (off + 8 * i) with
        | some e =>
          if ttKind e = 2 then leafTier e ≠ tierABSENT && elsewhere s (leafNode e)
          else if ttKind e = 1 then strayUnder s lo hi n (ttNext e) a
          else false
        | none => false)

/-- Some bytes of a job's address range translate to another home (R271). -/
def straysFrom (s : State) (job va len : Nat) : Bool :=
  match tget s.pool.jobs job with
  | some j => strayUnder s va (min (va + len) (2 ^ 48)) 4 j.ttRoot 0
  | none => false

/-- A tray taken over whose request records have not all come (R444). -/
def takingOver (s : State) (node : Nat) : Bool :=
  match tget s.map.handoffs node with
  | some h => !h.giver
  | none => false

/-! ### The reach of an access -/

/-- A run of bytes of an access within one page: its job-virtual and pool addresses, its length, and the page's leaf. -/
structure Piece where
  va : Nat
  pa : Nat
  len : Nat
  level : Nat
  leaf : Nat
  deriving DecidableEq, Repr

/-- What an access reaches: its pieces, the code and detail of its refusal, or the first absent page and its size code. -/
inductive Reach where
  | ok (l : List Piece)
  | fail (code detail : Nat)
  | absent (page psize : Nat)
  deriving DecidableEq, Repr

/-- An access of `len` bytes translated page by page under `job`, for the accessor `acc` and a right (R131 to R134, R411); lookups below `upto` have been counted, bytes below `okTo` admitted; `fuel` bounds the pages. -/
def reachFrom (s : State) (n job acc right upto okTo : Nat) : Nat → Nat → Nat → Reach × State
  | 0, _, _ => (.ok [], s)
  | fuel + 1, va, len =>
    if len = 0 then (.ok [], s)
    else if 2 ^ 48 ≤ va then (.fail kADDRESS_INVALID 0, s)
    else match translate s n job va (decide (upto ≤ va)) with
      | (.invalid, s) => (.fail kADDRESS_INVALID 0, s)
      | (.poison, s) => (.fail kADDRESS_INVALID 2, s)
      | (.leaf l e, s) =>
        if leafTier e = tierABSENT then (.absent (va / pageSize l * pageSize l) (3 - l), s)
        else if !bit (leafRights e) right then (.fail kACCESS_DENIED 0, s)
        else match keyRefusal s e acc (decide (va < okTo)) with
          | some c => (.fail c 0, s)
          | none =>
            if leafNode e ≠ myNode s && gaveUp s (leafNode e) then (.fail kREROUTE s.map.epoch, s)
            else
              let k := min len (pageSize l - va % pageSize l)
              let p : Piece := { va := va, pa := leafAddr l e va, len := k, level := l, leaf := e }
              match reachFrom s n job acc right upto okTo fuel (va + k) (len - k) with
              | (.ok ps, s) => (.ok (p :: ps), s)
              | r => r

/-- An access translated whole; an attempt of it that is not the first counts no lookup below `upto` again (R134). -/
def reach (s : State) (n job acc right va len : Nat) (upto okTo : Nat := 0) : Reach × State :=
  reachFrom s n job acc right upto okTo (len / 65536 + 2) va len

/-- How far an access has been looked up. -/
def lookedTo (r : Reach) (va len : Nat) : Nat :=
  match r with
  | .ok _ => va + len
  | .absent page psize => page + pageSize (3 - psize)
  | .fail _ _ => va

/-- The part of an access that lies in one line. -/
structure Part where
  line : Nat
  off : Nat
  len : Nat
  /-- Its place in the access. -/
  pos : Nat
  leaf : Nat
  deriving DecidableEq, Repr

/-- The parts of a piece that starts at place `pos` of the access. -/
def pieceParts (p : Piece) (pos : Nat) : List Part :=
  (linesOf p.pa p.len).map fun l =>
    let a := max p.pa (l * 128)
    { line := l, off := a - l * 128, len := min (p.pa + p.len) (l * 128 + 128) - a, pos := pos + (a - p.pa), leaf := p.leaf }

/-- The parts of an access, by line, in ascending place. -/
def partsOf : List Piece → Nat → List Part
  | [], _ => []
  | p :: r, pos => pieceParts p pos ++ partsOf r (pos + p.len)

end Sys2Proof.Machine
end

