-- ==== Sys2Proof/Machine/Lines.lean ====
section
/-! DEFINITION. The lines of a home: acceptance and parking (R95, R137, R139), the directory and its snoops (R196 to R209), tray fills, marks and the dirty budget (R217 to R222), and what stands in the way of an access to a line. -/

namespace Sys2Proof.Machine

/-! ### Acceptance and parking -/

/-- Whether a reason to wait takes a parking-table entry (R137). -/
def parks (w : Why) : Bool :=
  match w with
  | .fault _ _ | .behind | .ranked _ _ | .tray _ | .handoff _ | .bead _ => true
  | _ => false

/-- The parking entries in use in a quarter. -/
def parkedIn (s : State) (n : Nat) : Nat := (s.pool.waiters.filter fun w => w.quarter = n && parks w.why).length

/-- The parking table of a quarter is full. -/
def parkFull (s : State) (n : Nat) : Bool := 65536 ≤ parkedIn s n

/-- The in-flight count of a window changed (R176). -/
def modWindow (s : State) (i : Nat) (f : Window → Window) : State :=
  { s with win := { s.win with table := tupd s.win.table i {} f } }

/-- A window. -/
def windowAt (s : State) (i : Nat) : Window := tgetD s.win.table i {}

/-! ### Combined lists (R147, R148) -/

/-- Fields of an ATOMIC (Table 5-1). -/
def atomicOp (p : Packet) : Nat := bits p.oparg 5 2
def atomicW64 (p : Packet) : Bool := bit p.oparg 6
def atomicCmb (p : Packet) : Bool := bit p.oparg 7
def atomicEpoch (p : Packet) : Nat := bits p.oparg 15 8
def atomicBytes (p : Packet) : Nat := if atomicW64 p then 8 else 4

/-- A joiner of a combined list (Table 5-8). -/
structure Joiner where
  msg : Nat
  posted : Bool
  src : Nat
  value : Nat
  deriving DecidableEq, Repr

/-- The joiners of a list. -/
def joinersOf (d : List Byte) : List Joiner :=
  (chunks 16 (d.length / 16) d).map fun b => { msg := field b 0 3, posted := bit (field b 3 1) 0, src := field b 4 2, value := field b 8 8 }

/-- The bytes of a joiner entry with a status and a value. -/
def joinerBytes (j : Joiner) (status value : Nat) : List Byte :=
  le 4 (j.msg % 2 ^ 24 + flag j.posted * 2 ^ 24) ++ le 4 (j.src % 65536 + status % 65536 * 65536) ++ le 8 value

/-- A joiner's own request, as its stored response answers it. -/
def joinerPacket (p : Packet) (j : Joiner) : Packet :=
  { p with src := j.src, msg := j.msg, flags := if j.posted then 2 ^ fPOSTED else 0, oparg := p.oparg - (p.oparg &&& 128) }

/-- The dedup entries a combined packet needs: its own and those of joiners that have none (R148). -/
def newJoiners (s : State) (js : List Joiner) : List Nat :=
  (List.range js.length).filter fun i => match js[i]? with
    | some j => !thas s.net.dedup (j.src, j.msg)
    | none => false

/-- The entries of the joiners are made when the list is accepted (R148, R571). -/
def openJoiners (s : State) (p : Packet) (js : List Joiner) (mine : List Nat) : State :=
  mine.foldl (fun st i => match js[i]? with
    | some j => setDedup st (j.src, j.msg)
        { posted := j.posted, created := st.now, combined := some (p.src, p.msg), epoch := st.map.epoch, job := p.job }
    | none => st) s

/-- The result of a joiner stored in its dedup entry; it has not been sent from here. -/
def storeJoiner (s : State) (p : Packet) (j : Joiner) (status value : Nat) : State :=
  let q := joinerPacket p j
  match tget s.net.dedup (j.src, j.msg) with
  | some d =>
    let d' : Dedup :=
      if isPClass status then { d with rsp := some (responsePacket q opRSP_DATA status 1 0 (zeros 8)) }
      else if j.posted then { d with ack := some { emsg := j.msg, estatus := status } }
      else { d with rsp := some (responsePacket q opRSP status 0 0 (if status = kSUCCESS then le 8 value else failPayload 0 0 0)) }
    setDedup s (j.src, j.msg) { d' with done := true }
  | none => s

/-- A combined list that ends without effect: each joiner whose entry it made ends with it, or is free to come again (R102, R148). -/
def failJoiners (s : State) (w : Waiter) (code : Nat) : State :=
  let p := w.req.pkt
  let js := joinersOf p.payload
  w.mine.foldl (fun st i => match js[i]? with
    | some j => if isRClass code then { st with net := { st.net with dedup := tdel st.net.dedup (j.src, j.msg) } } else storeJoiner st p j code 0
    | none => st) s

/-! ### Acceptance -/

/-- A request is accepted: it takes its place in the order, its dedup entry, those of a combined list's joiners, and its window count, and unless it is POSTED its ACK is sent (R95, R101, R148, R176). -/
def accept (s : State) (w : Waiter) : Waiter × State :=
  if w.req.order ≠ 0 then (w, s)
  else
    let p := w.req.pkt
    let o := s.pool.accepted + 1
    let s := { s with pool := { s.pool with accepted := o } }
    let s := openDedup (if hasFlag p fPOSTED then s else ackPacket s w.req.lport p) p
    let s := match w.win with
      | some i => modWindow s i fun x => { x with inflight := x.inflight + 1 }
      | none => s
    let w := { w with req := { w.req with order := o } }
    if p.op = opATOMIC && atomicCmb p then
      let js := joinersOf p.payload
      let mine := newJoiners s js
      ({ w with mine := mine }, openJoiners s p js mine)
    else (w, s)

/-- An accepted request is done: it no longer counts in its window. -/
def leaveWindow (s : State) (w : Waiter) : State :=
  match w.win with
  | some i => if w.req.order = 0 then s else modWindow s i fun x => { x with inflight := x.inflight - 1 }
  | none => s

/-- The assembly of a packet's message (R91). -/
def assemblyOf (s : State) (p : Packet) : Option ((Nat × Nat × Nat) × Assembly) :=
  s.net.assembly.find? fun e => e.1.2.1 = p.src ∧ e.1.2.2 = p.msg

/-- How long copies of a message that is over can still come: its sender transmits for 10 ms, and each copy lands within 4 ms (R97, R99). -/
def copiesLast : Ns := ms 14

/-- A multi-packet message is over: its bitmap is free, and its later packets are acknowledged and discarded (R93). -/
def endMessage (s : State) (p : Packet) : State :=
  if p.pcnt = 0 then s
  else { s with net := { s.net with
    assembly := s.net.assembly.filter fun e => !(e.1.2.1 = p.src && e.1.2.2 = p.msg)
    closed := tset (s.net.closed.filter fun e => s.now < e.2.at_ + copiesLast) (p.src, p.msg)
      { at_ := s.now, orig := ((assemblyOf s p).map fun a => a.2.orig).getD [] } } }

/-- A packet's message has had its answer (R105): it is of several packets and none of it is being assembled any more. -/
def messageOver (s : State) (p : Packet) : Bool := decide (p.pcnt ≠ 0) && (assemblyOf s p).isNone

/-- A packet that was not accepted leaves its message's bitmap (R91). -/
def unnotePacket (s : State) (p : Packet) : State :=
  let keep := s.net.assembly.map fun e =>
    if e.1.2.1 = p.src ∧ e.1.2.2 = p.msg then (e.1, { e.2 with got := e.2.got.filter (· ≠ p.pidx) }) else e
  { s with net := { s.net with assembly := keep.filter fun e => e.2.got ≠ [] } }

/-- A packet of an ordered flow that comes again after a refusal is no longer pending (R139). -/
def unpend (s : State) (p : Packet) : State :=
  if hasFlag p fORDERED then { s with pool := { s.pool with pendingFlow := tdel s.pool.pendingFlow (p.src, p.flow, p.fseq) } } else s

/-- A refusal with PARK_FULL is counted and sets its event bit (R156). -/
def notePark (s : State) (n code : Nat) : State := if code = kPARK_FULL then setEvt (bump s (cPARK_FULL_COUNT n)) aMEMOP_CFG 8 else s

/-- A request refused before its acceptance; an ordered one refused with an R-class code is pending (R139). -/
def refuseAtHome (s : State) (w : Waiter) (code detail hint : Nat) : State :=
  let p := w.req.pkt
  let s := if hasFlag p fORDERED && isRClass code then
      { s with pool := { s.pool with pendingFlow := tset s.pool.pendingFlow (p.src, p.flow, p.fseq) (s.now, p.job) } }
    else unpend s p
  let s := notePark s w.quarter code
  refuse (if isRClass code then unnotePacket s p else endMessage s p) w.req.lport p code detail hint

/-- The outputs of a request follow each other, so that its chunks take effect in index order: FILTER, and GATHER_MEM with UNIQ (R272). -/
def orderedChunks (r : SieveReq) : Bool := r.sfn = 3 || (r.sfn = 0 && bit (field r.req.pkt.payload 0x46 1) 1)

/-- A request is cut at a unit of a chunk: the lowest cut counts, and no unit from it on runs (R282). -/
def cutSieve (r : SieveReq) (code unit : Nat) : SieveReq :=
  let c := match r.cut with
    | some c => if c.2 ≤ unit then c else (code, unit)
    | none => (code, unit)
  { r with
    cut := some c
    chunks := if orderedChunks r then (r.chunks.filter fun x => decide (x.first < c.2)).map fun x => { x with last := min x.last c.2 }
      else r.chunks.filter fun x => decide (x.pos < c.2) }

/-- A SIEVE request stops early, at the chunk that was parked where its chunks do not wait for each other (R282, R283). -/
def stopRequest (r : SieveReq) (code : Nat) : SieveReq :=
  match r.chunks.find? fun c => c.parked with
  | some c => cutSieve r code c.pos
  | none => { r with stop := some (r.stop.getD code) }

/-- A running SIEVE request stops early. -/
def stopSieve (s : State) (k : Nat × Nat) (code : Nat) : State :=
  { s with sieve := { s.sieve with reqs := tmod s.sieve.reqs k fun r => stopRequest r code } }

/-- A refusal of a record of a GATHER names its list position (R276); a window code keeps the RETX bit of R167. -/
def gatherDetail (code pos : Nat) (p : Packet) : Nat :=
  pos % 2 ^ 20 + (if 0x0200 ≤ code ∧ code < 0x0300 then flag (hasFlag p fRETX) * 2 ^ 20 else 0)

/-- A request that fails: refused when it was not accepted, else answered, unless its message has been (R105, R138, R142); a running SIEVE request is stopped early (R282). -/
def failWith (s : State) (w : Waiter) (code detail hint : Nat) : State :=
  let detail := if w.req.pkt.op = opGATHER then gatherDetail code w.pos w.req.pkt else detail
  if w.req.order = 0 then refuseAtHome s w code detail hint
  else
  let s := failJoiners (notePark s w.quarter code) w code
  if w.req.pkt.op = opSIEVE then stopSieve s (w.req.pkt.src, w.req.pkt.msg) code
  else if w.req.pkt.op = opCREQ then refuseCreq (leaveWindow s w) w.req.lport w.req.pkt code detail hint
  else if messageOver s w.req.pkt then leaveWindow s w
  else respond (endMessage (leaveWindow s w) w.req.pkt) w.req.lport w.req.pkt code detail hint 0 []

/-- A request waits: it is accepted with it, unless it needs a parking entry and none is free (R137, R233). -/
def waitFor (s : State) (w : Waiter) (why : Why) : State :=
  if parks why && parkFull s w.quarter then failWith s w kPARK_FULL 0 0
  else
    let (w, s) := accept s w
    { s with pool := { s.pool with waiters := s.pool.waiters ++ [{ w with why := why, since := s.now }] } }

/-- An earlier FSEQ of a flow. -/
def earlierSeq (a b : Nat) : Bool := let d := gap 16 b a; 0 < d && d < 32768

/-- Whether two packets are of one ordered flow, the first earlier. -/
def flowBefore (a b : Packet) : Bool :=
  hasFlag a fORDERED && hasFlag b fORDERED && decide (a.src = b.src ∧ a.flow = b.flow) && earlierSeq a.fseq b.fseq

/-- The job has ranked mode at this home. -/
def rankedJob (s : State) (job : Nat) : Bool := ((tget s.pool.jobs job).map (·.ranked)).getD false

/-- An ordered packet has an earlier packet of its flow pending, or not yet in effect, here (R128, R139). -/
def flowBlocked (s : State) (p : Packet) : Bool :=
  hasFlag p fORDERED &&
    (s.pool.waiters.any (fun w => flowBefore w.req.pkt p)
      || s.coh.busy.any (fun t => match t.2.cont with
        | .access w => flowBefore w.req.pkt p
        | _ => false)
      || s.sieve.reqs.any (fun e => flowBefore e.2.req.pkt p)
      || s.pool.fences.any (fun f => match f.2.publish with
        | some w => flowBefore w.1.req.pkt p
        | none => false)
      || s.pool.pendingFlow.any (fun e => e.1.1 = p.src && e.1.2.1 = p.flow && earlierSeq e.1.2.2 p.fseq))

/-- A ranked atomic cannot enter its epoch, nor a FENCE close one: an earlier packet of the flow is refused and still pending, or an earlier atomic or FENCE has not entered its own (R139, R151). -/
def entryBlocked (s : State) (p : Packet) : Bool :=
  hasFlag p fORDERED &&
    (s.pool.waiters.any (fun w => flowBefore w.req.pkt p && decide (w.why = .behind) && (w.req.pkt.op ∈ [opATOMIC, opFENCE]) && !w.held)
      || s.pool.pendingFlow.any (fun e => e.1.1 = p.src && e.1.2.1 = p.flow && earlierSeq e.1.2.2 p.fseq))

/-- A memory operation waits behind its flow (R128, R139). A ranked atomic enters its epoch, and a FENCE closes one, while earlier packets wait:
a FENCE covers what was accepted before it (R130), and an atomic takes effect only with its epoch (R151; log entry 38). -/
def waitsBehind (s : State) (w : Waiter) : Bool :=
  let p := w.req.pkt
  if p.op = opFENCE then !w.held && entryBlocked s p
  else if p.op = opATOMIC && rankedJob s p.job && !w.held then entryBlocked s p
  else flowBlocked s p

/-- The state with a job's parameters written. -/
def setJob (s : State) (job : Nat) (j : Job) : State := { s with pool := { s.pool with jobs := tset s.pool.jobs job j } }

/-- The record of a fault (Table 5-7). -/
def faultRecord (s : State) (job fid page psize src : Nat) (wr : Bool) : List Byte :=
  le 4 fid ++ le 4 (job % 65536 + flag wr * 65536) ++ le 8 page ++ le 4 (psize + src % 65536 * 65536)
    ++ le 4 (myNode s) ++ le 8 (timeNow s) ++ zeros 32

/-- A request parks on an absent page: it joins the page's open fault, or opens one, whose record goes to the pager (R137, R139). -/
def parkOnFault (s : State) (w : Waiter) (job page psize : Nat) (wr : Bool) : State :=
  match tget s.pool.jobs job with
  | none => failWith s w kJOB_UNKNOWN 0 0
  | some j =>
    match j.faults.find? fun e => e.2.page = page with
    | some e =>
      let s := if parkFull s w.quarter then s
        else setJob s job { j with faults := tset j.faults e.1 { e.2 with write := e.2.write || wr } }
      waitFor s w (.fault job e.1)
    | none =>
      if j.faultSlots ≤ j.faults.length || parkFull s w.quarter then failWith s w kPARK_FULL 0 0
      else
        let fid := j.nextFid
        let f : PageFault := { page := page, psize := psize, opened := s.now, write := wr, src := w.req.pkt.src }
        let s := setJob s job { j with nextFid := (fid + 1) % 2 ^ 32, faults := tset j.faults fid f }
        let s := waitFor (bump s (cFAULT_OPENED w.quarter)) w (.fault job fid)
        sendRecord s (.faultRecord job fid) j.pagerNode j.pagerCap (64 * (fid % j.faultSlots))
          (faultRecord s job fid page psize w.req.pkt.src wr)

/-! ### The directory -/

/-- A line's directory entry; none is Uncached. -/
def dirOf (s : State) (h : Nat) : Option DirEntry := tget s.coh.dir h

/-- The directory state of a line; none is Uncached. -/
def dirState (s : State) (h : Nat) : Option DirState :=
  match dirOf s h with
  | some d => some d.st
  | none => none

/-- A cached tray line that no agent holds any more leaves the near tier: a removed tenant's, one of a lost tray, or one whose slot is gone (R232, R234, R422). -/
def discarded (s : State) (h : Nat) : State :=
  let s := { s with pool := { s.pool with discard := s.pool.discard.filter (· ≠ h) } }
  match lineOfHln s h with
  | some l => if isTrayLine s l then { setLine s l (lineDefault s l) with pool := { (setLine s l (lineDefault s l)).pool with slots := tdel s.pool.slots l } } else s
  | none => s

/-- The state with a line's directory entry written; none frees it. -/
def setDir (s : State) (h : Nat) (d : Option DirEntry) : State :=
  match d with
  | some d => { s with coh := { s.coh with dir := tset s.coh.dir h d } }
  | none =>
    let s := { s with coh := { s.coh with dir := tdel s.coh.dir h } }
    if h ∈ s.pool.discard ∨ hlnGone s h then discarded s h else s

/-- An agent. -/
def agentOf (s : State) (a : Nat) : Agent := tgetD s.coh.agents a {}

/-- The state with an agent replaced. -/
def setAgent (s : State) (a : Nat) (x : Agent) : State := { s with coh := { s.coh with agents := tset s.coh.agents a x } }

/-- The port of an agent (R188). -/
def agentPort (a : Nat) : Nat := 8 * a

/-- Shared by a set of agents, or Uncached when it is empty. -/
def sharedBy (v : List Nat) (t : Ns) : Option DirEntry := if v = [] then none else some { st := .shared v, grantAt := t }

/-- A reclaimed agent's bit leaves an entry: a sharer is dropped, an owner leaves the line Lost (R209). -/
def reclaimEntry (s : State) (h a : Nat) : State :=
  match dirOf s h with
  | some d => match d.st with
    | .shared v => if a ∈ v then setDir s h (sharedBy (v.filter (· ≠ a)) d.grantAt) else s
    | .owned o =>
      if o = a then
        let x := agentOf s a
        setEvt (setAgent (setDir s h (some { d with st := .lost x.node })) a { x with lostLines := x.lostLines + 1 }) aDIR_CFG 9
      else s
    | .lost _ => s
  | none => s

/-- The agents that an entry names. -/
def holders (d : DirEntry) : List Nat :=
  match d.st with
  | .shared v => v
  | .owned o => [o]
  | .lost _ => []

/-- An entry as a transaction finds it: agents being reclaimed are already out of it (R209). -/
def settleDir (s : State) (h : Nat) : State :=
  match dirOf s h with
  | some d => (holders d).foldl (fun st a => if (agentOf st a).state = .reclaiming then reclaimEntry st h a else st) s
  | none => s

/-- A snoop leaves for an agent (R193, R196). -/
def emitSnoop (s : State) (a h skind : Nat) (bi : Bool) : State :=
  let m := s.coh.nextSnoop
  let x := agentOf s a
  let s := { s with coh := { s.coh with
    nextSnoop := (m + 1) % 2 ^ 24
    snoopMsg := tset s.coh.snoopMsg (a, m) h
    busy := tmod s.coh.busy h fun t => { t with awaiting := tset t.awaiting a s.now } } }
  let s := bump (setAgent s a { x with snoops := x.snoops + 1 }) (cDIR_SNOOPS_SENT (h / 2 ^ 27))
  let s := if bi then bump s (cDIR_BACK_INVAL (h / 2 ^ 27)) else s
  sendCoh s (agentPort a) opSNOOP m (skind + flag bi * 16) h 0 []

/-- A snoop is sent while the agent has room for one, else it waits (R196). -/
def sendSnoop (s : State) (a h skind : Nat) (bi : Bool) : State :=
  if (agentOf s a).snoops < (agentOf s a).snpCap then emitSnoop s a h skind bi
  else { s with coh := { s.coh with snoopQueue := s.coh.snoopQueue ++ [(a, h, skind, bi)] } }

/-- A transaction of a home line is one of its directory controller's handshakes (R49). -/
def dirTurn (s : State) (h : Nat) : State := handshake s .dir (dirController h) 1 false

/-- A line becomes busy with snoops to agents (R198). -/
def startSnoops (s : State) (h : Nat) (tgt : List Nat) (share bi : Bool) (cont : Then) : State :=
  let t : Tracker := { awaiting := tgt.map fun a => (a, s.now), tgt := tgt, share := share, cont := cont }
  tgt.foldl (fun st a => sendSnoop st a h (flag share) bi) { dirTurn s h with coh := { s.coh with busy := tset s.coh.busy h t } }

/-! ### Backing and poison -/

/-- The line's backing is gone: its resident frame was on a failed stack or a retired bank pair, or its tray is lost (R232, R234, R459). -/
def lineGone (s : State) (l : Nat) : Bool :=
  if isTrayLine s l then
    decide (nodeOf (l * 128) ∈ s.pool.traysLost) && !s.pool.revived.any fun r => decide (r.1 ≤ l * 128) && decide (l * 128 < r.1 + r.2)
  else match lineChannel s l with
    | some c => decide (c / 16 ∈ s.pool.stacksLost) || decide (16 * c + frameOfLine l % 16 ∈ s.spares.bankRetired)
    | none => true

/-- A line is Lost, and by which node (R210). -/
def lostBy (s : State) (l : Nat) : Option Nat :=
  match hlnOf s l with
  | some h => match dirOf s h with
    | some d => match d.st with
      | .lost n => some n
      | _ => none
    | none => none
  | none => none

/-- Bytes 124 to 127 of a line hold the CRC-32C of the rest (R126). -/
def lineCheck (d : List Byte) : Bool := decide (field d 124 4 = crc32c (d.take 124))

/-- A line's 128 bytes. -/
def lineBytes (s : State) (l : Nat) : List Byte := getBytes s (l * 128) 128

/-- The 4 KiB block of the resident space that a line lies in. -/
def blockOfLine (l : Nat) : Nat := offOf (l * 128) / 4096

/-- What a reader of a line gets instead of its data: the code and its detail (R107, R126, R210, R234). -/
def lineBad (s : State) (l leaf : Nat) : Option (Nat × Nat) :=
  match lostBy s l with
  | some n => some (kPOISONED_LOST_OWNER, n)
  | none =>
    if lineGone s l then some (kPOISONED_POOL_LOSS, 0)
    else if (lineInfo s l).poison ≠ 0 then some ((lineInfo s l).poison, 0)
    else if leafE2e leaf && !lineCheck (lineBytes s l) then some (kPOISONED_DATA, 0)
    else none

/-! ### Trays: fills, marks, budget -/

/-- A tray can be reached: it has a route and was not found unreachable (R233). -/
def trayReachable (s : State) (node : Nat) : Bool :=
  routeSet s s.map.comp node ≠ [] && !(node ∈ s.pool.unreachable)

/-- A quarter fetches and holds tray data as 4 KiB blocks (R218). -/
def blockMode (s : State) (n : Nat) : Bool :=
  let c := regField s aNEAR_CFG 15 2
  c = 1 || (c = 2 && s.pool.stacksLost.any fun k => k / 2 = n)

/-- The cache channels of a quarter: neither resident, nor a tally ring's, nor of a failed stack. -/
def cacheChannels (s : State) (n : Nat) : List Nat :=
  ((List.range 32).map (32 * n + ·)).filter fun c =>
    !(c ∈ residentChannels s) && !(c / 16 ∈ s.pool.stacksLost)
      && !(regField s (aTALLY_CFG n) 1 1 = 1 && regField s (aTALLY_CFG n) 2 5 = c % 32)

/-- The slots of a cache channel that hold cached lines: the translation region takes an equal share of each stack, from the top of its highest-numbered cache channel downward (R156, R214). -/
def cacheSlots (s : State) (n c : Nat) : Nat :=
  let above := ((cacheChannels s n).filter fun x => x / 16 = c / 16 && c < x).length
  2 ^ 22 - min (2 ^ 22) (ttSize s / 8 / 128 - above * 2 ^ 22)

/-- The first free cache slot of some channels, each with its number of slots, from `k` on in the first; past those of retired bank pairs. -/
def freeSlot (retired used : List Nat) : Nat → List (Nat × Nat) → Nat → Option Nat
  | fuel + 1, (c, lim) :: r, k =>
    let h := c / 32 * 2 ^ 27 + c % 32 * 2 ^ 22 + k
    if lim ≤ k then freeSlot retired used fuel r 0
    else if pairOfHln h ∈ retired then freeSlot retired used fuel ((c, lim) :: r) (k / 512 * 512 + 512)
    else if h ∈ used then freeSlot retired used fuel ((c, lim) :: r) (k + 1) else some h
  | _, _, _ => none

/-- A clean cached line that may be evicted (R217): the choice is internal (log entry 13). -/
def evictable (s : State) (n l h : Nat) : Bool :=
  let i := lineInfo s l
  h / 2 ^ 27 = n && i.cached && !i.dirty && !i.filling && i.writing = 0 && i.poison = 0
    && (dirOf s h).isNone && !thas s.coh.busy h && !(l ∈ s.pool.marked)

/-- A tray line takes a slot of its home quarter, evicting a clean line when none is free. -/
def takeSlot (s : State) (l : Nat) : State :=
  if (tget s.pool.slots l).isSome then s
  else
    let n := lineQuarter s l
    let used := (s.pool.slots.map (·.2)).filter fun h => h / 2 ^ 27 = n
    match freeSlot s.spares.bankRetired used (used.length + 33 + 512 * s.spares.bankRetired.length) ((cacheChannels s n).map fun c => (c, cacheSlots s n c)) 0 with
    | some h => { s with pool := { s.pool with slots := tset s.pool.slots l h } }
    | none => match s.pool.slots.find? fun e => evictable s n e.1 e.2 with
      | some (v, h) =>
        let s := setLine s v { cached := false }
        { s with pool := { s.pool with slots := tset (tdel s.pool.slots v) l h } }
      | none => s

/-- A LOAD of bytes of a tray (R217). -/
def trayLoad (s : State) (purpose : Purpose) (addr n : Nat) : State :=
  sendOwn s purpose { tc := 0, op := opLOAD, dst := nodeOf addr, oparg := 2 + (n / 8 - 1) * 4, addr := addr }

/-- The metadata word of a tray address (Table 8-4). -/
def metaAddr (a : Nat) : Nat := poolAddr (nodeOf a) (2 ^ 49 + offOf a / 16)

/-- A tray fill starts: of the line, or of its 4 KiB block, with the metadata of a protected page (R217, R218, R409). -/
def startFill (s : State) (l leaf : Nat) : State :=
  let blk := blockMode s (lineQuarter s l)
  let l0 := if blk then l / 32 * 32 else l
  let n := if blk then 32 else 1
  let slot := if leafProt leaf then some (leafSlot leaf) else none
  let s := (List.range n).foldl (fun st i =>
    let k := l0 + i
    if (lineInfo st k).cached || (lineInfo st k).filling then st
    else
      let st := if k = l then takeSlot st k else st
      setLine st k { lineInfo st k with filling := true, slot := slot }) s
  let s := bump s (cNEAR_MISS (lineQuarter s l))
  let s := trayLoad s (.fill l0 n) (l0 * 128) (128 * n)
  if leafProt leaf then trayLoad s (.fillTag l0 n) (metaAddr (l0 * 128)) (8 * n) else s

/-- The dirty lines of a quarter. -/
def dirtyOf (s : State) (n : Nat) : List Nat := (s.pool.lines.filter fun e => e.2.dirty && lineQuarter s e.1 = n).map (·.1)

/-- The dirty lines of a quarter that count against the budget: those of trays that can be reached (R222, R233). -/
def dirtyLines (s : State) (n : Nat) : List Nat := (dirtyOf s n).filter fun l => trayReachable s (nodeOf (l * 128))

/-- A quarter's share of the budget, in lines (R222). -/
def budgetShare (s : State) : Nat :=
  max 1 (regField s aNEAR_CFG 0 8) * 2 ^ 24 / 4 / 128

/-- A line joins those to be marked (R220). -/
def queueMark (s : State) (l : Nat) : State :=
  let page := l / 512
  let (ls, t) := tgetD s.pool.toMark page ([], s.now)
  if l ∈ ls then s else { s with pool := { s.pool with toMark := tset s.pool.toMark page (ls ++ [l], t) } }

/-- A mark of a line is on its way. -/
def markSent (s : State) (l : Nat) : Bool :=
  s.net.own.any fun e => match e.2.purpose with
    | .mark _ ls => decide (l ∈ ls)
    | _ => false

/-- A write has made a line dirty. -/
def dirtyLine (s : State) (l : Nat) : State :=
  if isTrayLine s l then
    let i := lineInfo s l
    let s := { s with pool := { s.pool with marked := s.pool.marked.filter (· ≠ l) } }
    setLine s l { i with cached := true, dirty := true, dirtyAt := if i.dirty then i.dirtyAt else s.now }
  else s

/-! ### What stands in the way -/

/-- Why an access cannot go on at a line. -/
inductive Hold where
  /-- The channel computes (R344): BUSY with its hint. -/
  | busy (ch hint : Nat)
  | wait (why : Why)
  /-- As `wait`, with the transaction on a home line begun: what comes to that line waits for its end (R198). -/
  | keep (why : Why) (h : Option Nat)
  /-- Agents must give the line up, or share it. -/
  | snoop (h : Nat) (tgt : List Nat) (share : Bool)
  deriving DecidableEq, Repr

/-- How an access touches a line. -/
inductive Touch where
  | read
  | part
  | whole
  deriving DecidableEq, Repr

/-- A bead channel. -/
def beadCh (s : State) (c : Nat) : BeadCh := tgetD s.bead.channels c {}

/-- The bank of a resident line within its channel: frame k lies in bank pair k mod 16, line j in its bank j mod 2 (R337). -/
def bankOf (l : Nat) : Nat := frameOfLine l % 16 * 2 + l % 2

/-- A MODE that leaves COMPUTE is queued on a channel (R344, Table 12-4). -/
def leavesCompute (c : BeadCh) : Bool :=
  c.queue.any fun b => !b.ended && decide (field b.req.pkt.payload 0 4 % 16 = 0 ∧ bits (field b.req.pkt.payload 0 4) 5 4 ≠ 1)

/-- HINT of BUSY (R344): the expected time until a queued MODE takes effect is a free value (log entry 3), else BEAD_CFG.BUSY_HINT, as it stood before the channel's unit in progress (R9). -/
def busyHint (s : State) (c : Nat) : Nat × State :=
  if leavesCompute (beadCh s c) then let (v, s) := drawFree s; (v % 65536, s) else (max 1 ((((beadCh s c).oldCfg.getD (regWord s aBEAD_CFG)).toNat) >>> 7 % 256), s)

/-- A line is busy for a request: a transaction or a write-back holds it, or an earlier request waits for it (R198, R221). -/
def lineBusy (s : State) (l h order : Nat) : Bool :=
  thas s.coh.busy h || (lineInfo s l).writing ≠ 0
    || s.pool.waiters.any fun w => decide (w.holds = some h) || decide (w.why = .line h) && (order = 0 || decide (w.req.order < order))

/-- The hold of the coherence directory on an access (Table 7-7). -/
def dirHold (s : State) (h : Nat) (t : Touch) : Option Hold :=
  match dirOf s h with
  | some d => match d.st, t with
    | .owned o, .read => some (.snoop h [o] true)
    | .owned o, _ => some (.snoop h [o] false)
    | .shared _, .read => none
    | .shared v, _ => some (.snoop h v false)
    | .lost _, _ => none
  | none => none

/-- The hold of marks and of the dirty budget on a write to a tray line (R220, R222); `k` lines before it in the same access are to become dirty with it. -/
def markHold (s : State) (l k : Nat) : Option Hold × State :=
  let n := lineQuarter s l
  let isMarked := decide (l ∈ s.pool.marked)
  if (lineInfo s l).dirty then (none, s)
  else if !trayReachable s (nodeOf (l * 128)) then (if isMarked then none else some (.wait (.tray (nodeOf (l * 128)))), s)
  else if budgetShare s ≤ (dirtyLines s n).length + k then (some (.keep (.budget n) (hlnOf s l)), setEvt s aNEAR_CFG 19)
  else if isMarked then (none, s)
  else if markSent s l || decide (l ∈ (tgetD s.pool.toMark (l / 512) ([], 0)).1) then (some (.keep (.mark (l / 512)) (hlnOf s l)), s)
  else (some (.keep (.mark (l / 512)) (hlnOf s l)), queueMark s l)

/-- The hold on a tray line that must be brought in (R217, R233). -/
def fillHold (s : State) (l leaf : Nat) (t : Touch) : Option Hold × State :=
  let i := lineInfo s l
  if i.filling then (some (.wait (.fill l)), s)
  else if i.cached then (none, s)
  else if t = .whole then (none, takeSlot s l)
  else if !trayReachable s (nodeOf (l * 128)) then (some (.wait (.tray (nodeOf (l * 128)))), s)
  else (some (.wait (.fill l)), startFill s l leaf)

/-- A line whose backing is gone and that is not Lost: it is answered at once (R232, R234). -/
def deadLine (s : State) (l : Nat) : Bool := lineGone s l && (lostBy s l).isNone

/-- The mode of the channel a line lies in (Table 12-2). -/
def channelMode (s : State) (l : Nat) : BeadMode :=
  match lineChannel s l with
  | some c => (beadCh s c).mode
  | none => .memory

/-- What stands in the way of an access to a line before the directory is asked: a hand-off, the channel's mode, an earlier transaction, a fill (R198, R217, R344, R444). -/
def placeHold (s : State) (order : Nat) (t : Touch) (p : Part) : Option Hold × State :=
  let l := p.line
  let c := (lineChannel s l).getD 0
  if isTrayLine s l && takingOver s (nodeOf (l * 128)) then (some (.wait (.handoff (nodeOf (l * 128)))), s)
  else if deadLine s l then (none, s)
  else if channelMode s l = .compute then (some (.busy c (busyHint s c).1), (busyHint s c).2)
  else if channelMode s l = .shared && decide (bankOf l / 2 ∈ (beadCh s c).active) then (some (.wait (.bank c)), s)
  else match (match hlnOf s l with
      | some h => if lineBusy s l h order then some (Hold.wait (.line h)) else none
      | none => none) with
    | some hd => (some hd, s)
    | none => if isTrayLine s l then fillHold s l p.leaf t else (none, s)

/-- A directory lookup: counted, and rid of agents that are being reclaimed (R209). -/
def lookupDir (s : State) (h : Nat) : State := settleDir (bump s (cDIR_LOOKUPS (h / 2 ^ 27))) h

/-- What stands in the way of an access to one line, with what was begun to remove it. -/
def lineHold (s : State) (order : Nat) (t : Touch) (p : Part) (k : Nat := 0) : Option Hold × State :=
  let l := p.line
  match placeHold s order t p with
  | (some hd, s) => (some hd, s)
  | (none, s) =>
    if deadLine s l then (none, s)
    else
      let s := match hlnOf s l with
        | some h => lookupDir s h
        | none => s
      match (match hlnOf s l with
          | some h => dirHold s h t
          | none => none) with
      | some hd => (some hd, s)
      | none => if isTrayLine s l && t ≠ .read then markHold s l k else (none, s)

/-- How a write of some bytes touches a line. -/
def touchOf (wr : Bool) (p : Part) : Touch := if !wr then .read else if p.len = 128 then .whole else .part

/-- The first hold on the lines of an access; the lines before it are ready, and `k` of them are to become dirty. -/
def linesHold (s : State) (order : Nat) (wr : Bool) (l : List Part) (k : Nat := 0) : Option Hold × State :=
  match l with
  | [] => (none, s)
  | p :: r => match lineHold s order (touchOf wr p) p k with
    | (some h, s) => (some h, s)
    | (none, s) => linesHold s order wr r (k + flag (wr && isTrayLine s p.line && !(lineInfo s p.line).dirty))

/-- A held access waits, snoops, or is turned away (R198, R344). -/
def holdAccess (s : State) (w : Waiter) (h : Hold) : State :=
  match h with
  | .busy c hint => failWith (bump s (cBEAD_BUSY_REFUSED (c / 32))) w kBUSY 0 hint
  | .wait why => waitFor s w why
  | .keep why h => waitFor s { w with holds := h } why
  | .snoop hl tgt share =>
    let (w, s) := accept s w
    startSnoops s hl tgt share false (.access w)

/-- A hold that lets the other lines of its access be made ready meanwhile. -/
def worksAhead (h : Hold) : Bool :=
  match h with
  | .snoop _ _ _ => true
  | .wait why | .keep why _ => !parks why
  | .busy _ _ => false

/-- What the other lines of a held access need is begun as well: each line is a unit of its own (R123, R196). -/
def readyAhead (s : State) (order : Nat) (wr : Bool) : List Part → State
  | [] => s
  | p :: r => match lineHold s order (touchOf wr p) p with
    | (some (.snoop h tgt share), s) => readyAhead (startSnoops s h tgt share false (.backInval none)) order wr r
    | (_, s) => readyAhead s order wr r

end Sys2Proof.Machine
end

