-- ==== Sys2Proof/Machine/Codec.lean ====
section
/-! DEFINITION. Compressed images (R225 to R228): decoding, encoding, and the blocks of the resident space that are held as images. -/

namespace Sys2Proof.Machine

/-- Mode and width code of a line in an image header (Table 8-2). -/
def lineMode (img : List Byte) (i : Nat) : Nat := field img 0 8 / 4 ^ i % 4
def lineWidth (img : List Byte) (i : Nat) : Nat := field img 8 8 / 4 ^ i % 4

/-- Body bytes of a line by mode and delta width (R226). -/
def lineBody (mode d : Nat) : Nat := if mode = 1 then 8 + 15 * d else if mode = 2 then 128 else 0

/-- A width code as bytes. -/
def deltaBytes (w : Nat) : Nat := 2 ^ w

/-- The 128 bytes of a line from its body (R226). -/
def decodeLine (mode d : Nat) (body : List Byte) : List Byte :=
  if mode = 2 then body.take 128
  else if mode = 1 then
    let w0 := field body 0 8
    le 8 w0 ++ (List.range 15).flatMap fun j => le 8 (ofSigned 64 ((w0 : Int) + toSigned (8 * d) (field body (8 + d * j) d)))
  else zeros 128

/-- Body bytes of each line of an image. -/
def bodySizes (img : List Byte) : List Nat :=
  (List.range 32).map fun i => lineBody (lineMode img i) (deltaBytes (lineWidth img i))

/-- The 32 lines from an image's body. -/
def decodeLines (img : List Byte) : Nat → Nat → List Byte → List Byte
  | 0, _, _ => []
  | n + 1, i, body =>
    let d := deltaBytes (lineWidth img i)
    let k := lineBody (lineMode img i) d
    decodeLine (lineMode img i) d (body.take k) ++ decodeLines img n (i + 1) (body.drop k)

/-- The header of an image keeps the rules of R228. -/
def headerOk (img : List Byte) : Bool :=
  field img 0x12 2 = 0 && field img 0x18 8 = 0
    && (List.range 32).all (fun i => lineMode img i ≠ 3 && (if lineMode img i = 1 then lineWidth img i ≠ 3 else lineWidth img i = 0))
    && decide (field img 0x10 2 = (bodySizes img).foldl (· + ·) 0)

/-- The 4,096 bytes of a valid image (R228). -/
def decodeImage (img : List Byte) : Option (List Byte) :=
  if headerOk img && decide (32 + field img 0x10 2 ≤ img.length) then
    let d := decodeLines img 32 0 (img.drop 32)
    if crc32c d = field img 0x14 4 then some d else none
  else none

/-- The bytes an image takes in its parts: header and body in whole sectors, the tail zero. -/
def imageSize (img : List Byte) : Nat := ceilDiv (32 + field img 0x10 2) 128 * 128

/-- The mode and delta bytes the module gives a line (R227). -/
def encodeMode (d : List Byte) : Nat × Nat :=
  if d.all (· = 0) then (0, 0)
  else
    let w0 := field d 0 8
    let fits (b : Nat) : Bool := (List.range 15).all fun j =>
      let x := toSigned 64 (gap 64 (field d (8 * (j + 1)) 8) w0)
      decide (-(2 ^ (8 * b - 1) : Nat) ≤ x) && decide (x ≤ (2 ^ (8 * b - 1) : Nat) - 1)
    if fits 1 then (1, 0) else if fits 2 then (1, 1) else if fits 4 then (1, 2) else (2, 0)

/-- A line's body in the mode it is given. -/
def encodeLine (d : List Byte) : List Byte :=
  match encodeMode d with
  | (1, w) =>
    let w0 := field d 0 8
    le 8 w0 ++ (List.range 15).flatMap fun j => le (deltaBytes w) (gap 64 (field d (8 * (j + 1)) 8) w0)
  | (2, _) => d
  | _ => []

/-- The image of a 4 KiB block, its tail sector filled with zeros. -/
def encodeImage (d : List Byte) : List Byte :=
  let ls := chunks 128 32 d
  let modes := ls.map encodeMode
  let body := ls.flatMap encodeLine
  let packed (f : Nat × Nat → Nat) : Nat := modes.foldr (fun m a => f m + 4 * a) 0
  let img := le 8 (packed (·.1)) ++ le 8 (packed (·.2)) ++ le 2 body.length ++ le 2 0 ++ le 4 (crc32c d) ++ zeros 8 ++ body
  padTo (ceilDiv img.length 128 * 128) img

/-- A block is held compressed only if its image fits in 24 sectors (R227). -/
def compressible (d : List Byte) : Bool := decide ((encodeImage d).length ≤ 3072)

/-- A line of a COMPRESSED page whose held image is invalid (R228). -/
def imageBad (s : State) (l leaf : Nat) : Bool :=
  leafTier leaf = tierCOMPRESSED && (match tget s.pool.images (blockOfLine l) with
    | some img => (decodeImage img).isNone
    | none => false)

/-- A read that meets an invalid image reports it (R228). -/
def reportImage (s : State) (l leaf : Nat) : State :=
  if imageBad s l leaf then
    event (setEvt (bump s (cNEAR_DECODE_ERR (lineQuarter s l))) aNEAR_CFG 20) eDECODE_ERROR sevDEGRADED 15 0 (l / 32 * 4096) 0
  else s

/-! ### Compressed pages (R216) -/

/-- A block whose image is invalid is expanded as poison in each of its lines, as its readers have seen it (R228; log entry 40). -/
def spoilBlock (s : State) (block : Nat) : State :=
  let l := lineOf (ownAddr s (block * 4096))
  (List.range 32).foldl (fun st i => poisonLine st (l + i) kPOISONED_DATA) (reportImage s l (tierCOMPRESSED * 4))

/-- A resident page's images are gone and its leaf is PRESENT: its content stands in its frame (R216; log entry 15). -/
def expandPage (s : State) (job va leaf : Nat) : State :=
  if leafTier leaf = tierCOMPRESSED then
    let find := [3, 2, 1].findSome? fun l => match coveringEntry s job va l with
      | some (off, e) => if ttKind e = 2 then some (l, off, e) else none
      | none => none
    match find with
    | some (l, off, e) =>
      let e' := setBits e 2 2 tierPRESENT
      let first := leafPfn e * 65536 / 4096
      let n := pageSize l / 4096
      let bad := (s.pool.images.filter fun i => decide (first ≤ i.1) && decide (i.1 < first + n) && (decodeImage i.2).isNone).map (·.1)
      let s := bad.foldl spoilBlock s
      { s with pool := { s.pool with
          tt := tset s.pool.tt (off / 8) e'
          xlate := s.pool.xlate.map fun x =>
            if x.1.2.1 = job ∧ x.1.2.2.1 = l ∧ x.1.2.2.2 = va / pageSize l then (x.1, e') else x
          images := s.pool.images.filter fun i => !(decide (first ≤ i.1) && decide (i.1 < first + n)) } }
    | none => s
  else s

/-- Every compressed page that an access writes is expanded first. -/
def expandAll (s : State) (job : Nat) (l : List Piece) : State := l.foldl (fun st p => expandPage st job p.va p.leaf) s

/-! ### Blocks of tray pages held as images (R218) -/

/-- A 4 KiB block of a tray that the cache holds as a compressed image: every line cached, clean and good, in a quarter that compresses, and its image fits (R218, R227).
A write makes a line of it dirty, and the block stands expanded; a line holds the same bytes either way. -/
def blockPacked (s : State) (b : Nat) : Bool :=
  blockMode s (lineQuarter s (32 * b)) && isTrayLine s (32 * b)
    && (List.range 32).all (fun i => let x := lineInfo s (32 * b + i); x.cached && !x.dirty && !x.filling && x.writing = 0 && x.poison = 0)
    && compressible (getBytes s (4096 * b) 4096)

/-- The blocks of tray pages that a quarter holds as compressed images. -/
def packedBlocks (s : State) (n : Nat) : List Nat :=
  ((s.pool.lines.map fun e => e.1).filter fun l => decide (l % 32 = 0) && decide (lineQuarter s l = n) && blockPacked s (l / 32)).map (· / 32)

end Sys2Proof.Machine
end

