-- ==== Sys2Proof/Machine/Home.lean ====
section
/-! DEFINITION. The memory operations at their home: LOAD, STORE, ATOMIC, combined lists, FENCE and REDUCE_WRITE, once their fields and their window have been checked (R123 to R130, R133, R148, R151, R210, R234, R263). -/

namespace Sys2Proof.Machine

/-! ### Where a request's bytes lie -/

/-- The job under whose table a request is translated (R165). -/
def accessJob (s : State) (w : Waiter) : Nat :=
  match w.win with
  | some i => (windowAt s i).ownerJob
  | none => w.req.pkt.job

/-- The job-virtual address of a request's first byte (R165). -/
def accessVa (s : State) (w : Waiter) : Nat :=
  match w.win with
  | some i => (windowAt s i).base + w.req.pkt.addr
  | none => w.req.pkt.addr

/-- What became of an access: it can be served now on these pieces and parts, or it has been turned away or made to wait. -/
inductive Access where
  | now (l : List Piece) (ps : List Part) (s : State)
  | held (s : State)

/-- An access of a request: translation and rights, its lookups counted once (R134), parking, and the holds on its lines. -/
def access (s : State) (w : Waiter) (right va len : Nat) (wr : Bool) : Access :=
  let r := reach s w.quarter (accessJob s w) w.req.pkt.job right va len w.looked w.admitted
  let w := { w with looked := max w.looked (lookedTo r.1 va len), admitted := match r.1 with
    | .ok _ => va + len
    | _ => w.admitted }
  match r with
  | (.fail c d, s) => .held (failWith s w c d (if c = kREROUTE then 1 else 0))
  | (.absent page psize, s) => .held (parkOnFault s w (accessJob s w) page psize wr)
  | (.ok l, s) =>
    match linesHold s w.req.order wr (partsOf l 0) with
    | (some h, s) =>
      let s := holdAccess s w h
      .held (if worksAhead h then readyAhead s w.req.order wr (partsOf l 0) else s)
    | (none, s) => .now l (partsOf l 0) s

/-! ### Reading -/

/-- What a reader of a part gets instead of its data. -/
def partBad (s : State) (p : Part) : Option (Nat × Nat) :=
  if (lostBy s p.line).isNone && !lineGone s p.line && imageBad s p.line p.leaf then some (kPOISONED_DATA, 0)
  else lineBad s p.line p.leaf

/-- The bytes of a part. -/
def partBytes (s : State) (p : Part) : List Byte := getBytes s (p.line * 128 + p.off) p.len

/-- The payload lines that a part of an access overlaps (R107). -/
def payloadLines (p : Part) : List Nat :=
  (List.range ((p.pos + p.len - 1) / 128 + 1 - p.pos / 128)).map (p.pos / 128 + ·)

/-- The data of an access with its poisoned payload lines. -/
def gatherData (s : State) (ps : List Part) : DataOut :=
  { data := ps.flatMap (partBytes s)
    bad := ps.flatMap fun p => match partBad s p with
      | some (c, d) => (payloadLines p).map fun i => (i, c, d)
      | none => [] }

/-- The counts and reports that reading parts leaves (R228, R238). -/
def countRead (s : State) (fresh : Bool) (ps : List Part) : State :=
  ps.foldl (fun st p =>
    let st := reportImage st p.line p.leaf
    let st := if fresh then bump st (cNEAR_HIT (lineQuarter st p.line)) else st
    match partBad st p with
    | some (c, _) => if c = kPOISONED_POOL_LOSS then bump st (cPOOL_LOSS_LINES (lineQuarter st p.line)) else st
    | none => st) s

/-- The bytes a LOAD asks for (Table 5-1). -/
def loadSize (p : Packet) : Nat := (bits p.oparg 22 2 + 1) * 8

/-- A LOAD at its home (R129). -/
def attemptLoad (s : State) (w : Waiter) : State :=
  match access s w rightRead (accessVa s w) (loadSize w.req.pkt) false with
  | .held s => s
  | .now _ ps s =>
    let s := countRead s (w.req.order = 0) ps
    respondData (leaveWindow s w) w.req.pkt (gatherData s ps)

/-! ### Writing -/

/-- The CRC of a LINE_CRC line rewritten over its bytes (R126, R127). -/
def rewriteCheck (s : State) (l : Nat) : State := putBytes s (l * 128 + 124) (le 4 (crc32c (getBytes s (l * 128) 124)))

/-- Poison and the Lost state are cleared by a write of the whole line from good data with CLRPSN (R210, R469). -/
def clearPoison (s : State) (l : Nat) : State :=
  let s := match hlnOf s l with
    | some h => if (lostBy s l).isSome then setDir s h none else s
    | none => s
  setLine s l { lineInfo s l with poison := 0 }

/-- One line's part of a write: its bytes, its poison, its check and its dirty state, as one update (R123). -/
def writePart (s : State) (p : Part) (d : List Byte) (clr poison check : Bool) : State :=
  let s := putBytes s (p.line * 128 + p.off) d
  let s := dirtyLine s p.line
  let s := if isTrayLine s p.line then setLine s p.line { lineInfo s p.line with slot := if leafProt p.leaf then some (leafSlot p.leaf) else none } else s
  let s := if check && leafE2e p.leaf then rewriteCheck s p.line else s
  if poison then poisonLine s p.line kPOISONED_DATA
  else if clr && p.len = 128 then clearPoison s p.line
  else s

/-- The parts of a write, with the payload lines that are poison. -/
def writeParts (s : State) (ps : List Part) (d : List Byte) (clr : Bool) (bad : List Nat) (check : Bool) : State :=
  ps.foldl (fun st p => writePart st p ((d.drop p.pos).take p.len) clr ((payloadLines p).any (· ∈ bad)) check) s

/-- The first of the write's lines whose backing is gone (R234). -/
def goneIn (s : State) (ps : List Part) : Bool := ps.any fun p => lineGone s p.line && (lostBy s p.line).isNone

/-- Every packet of the message has been accepted and none of them waits any more (R91, R129). -/
def messageWhole (s : State) (p : Packet) : Bool :=
  (match assemblyOf s p with
   | some e => decide (p.pcnt < e.2.got.length)
   | none => false)
    && !s.pool.waiters.any (fun w => w.req.pkt.src = p.src && w.req.pkt.msg = p.msg)

/-- A write packet has taken effect: its message is answered once whole, which acknowledges every packet, and until then the packet is acknowledged (R91, R95, R105, R129). -/
def writeDone (s : State) (w : Waiter) : State :=
  let p := w.req.pkt
  let s := leaveWindow s w
  if p.pcnt = 0 then respondOk s w.req.lport p []
  else
    let whole := messageWhole s p
    if whole && !hasFlag p fPOSTED then respondOk (endMessage s p) w.req.lport p []
    else
      let s := if w.req.order = 0 || hasFlag p fPOSTED then
          gatherEntry s false (quarterOf w.req.lport) p.src { emsg := p.msg, epidx := p.pidx, estatus := kSUCCESS, ece := hasFlag p fCE }
        else s
      if whole then endMessage s p else s

/-- A STORE at its home (R122, R126, R129, R210, R234). -/
def attemptStore (s : State) (w : Waiter) : State :=
  let p := w.req.pkt
  match access s w rightWrite (accessVa s w) (lenOf p) true with
  | .held s => s
  | .now l ps s =>
    if ps.any (fun x => leafE2e x.leaf && x.len ≠ 128) then failWith s w kMISALIGNED 0 0
    else if ps.any (fun x => leafE2e x.leaf && !lineCheck ((p.payload.drop x.pos).take 128)) then failWith s w kMALFORMED 0 0
    else if goneIn s ps then
      if messageOver s p then leaveWindow s w else respondPoison (endMessage (leaveWindow (openDedup s p) w) p) p 0 0 kPOISONED_POOL_LOSS 0
    else writeDone (writeParts (expandAll s (accessJob s w) l) ps p.payload (hasFlag p fCLRPSN) [] false) w

/-- The payload lines that a REDUCE_WRITE marks as poison (R263). -/
def maskLines (m : Nat) : List Nat := (List.range 32).filter (bit m)

/-- A REDUCE_WRITE placed at this home (R127, R263). -/
def attemptReduceWrite (s : State) (w : Waiter) : State :=
  let p := w.req.pkt
  match access s w rightWrite (accessVa s w) (lenOf p) true with
  | .held s => s
  | .now l ps s =>
    if goneIn s ps then
      if messageOver s p then leaveWindow s w else respondPoison (endMessage (leaveWindow s w) p) p 0 0 kPOISONED_POOL_LOSS 0
    else writeDone (writeParts (expandAll s (accessJob s w) l) ps p.payload false (maskLines p.oparg) true) w

/-! ### Atomics -/

/-- An atomic operation applied to memory: the old value, and the state after (R124, R125, R126). -/
def applyAtomic (s : State) (x : Part) (aop n a swap : Nat) : Nat × State :=
  let addr := x.line * 128 + x.off
  let old := unle (getBytes s addr n)
  let new := (atomicResult aop (8 * n) old a swap).getD old
  let s := dirtyLine (putBytes s addr (le n new)) x.line
  (old, if leafE2e x.leaf then rewriteCheck s x.line else s)

/-- What an atomic meets on its line: why it is not applied (R126, R210, R234). -/
def atomicBad (s : State) (x : Part) : Option (Nat × Nat) := partBad s x

/-- The result of one atomic, zero-extended to 8 bytes. -/
def oldBytes (v : Nat) : List Byte := le 8 v

/-- The dedup entries of a request on a line backed by a tray say so (R442). -/
def noteTray (s : State) (keys : List (Nat × Nat)) (l : Nat) : State :=
  if isTrayLine s l then { s with net := { s.net with dedup := keys.foldl (fun t k => tmod t k fun d => { d with tray := some (nodeOf (l * 128)) }) s.net.dedup } }
  else s

/-- A single ATOMIC on a line that is ready (R124). -/
def serveAtomic (s : State) (w : Waiter) (l : List Piece) (x : Part) : State :=
  let p := w.req.pkt
  if leafE2e x.leaf && decide (124 < x.off + x.len) then failWith s w kMISALIGNED 0 0
  else
    let s := noteTray (leaveWindow (openDedup s p) w) [(p.src, p.msg)] x.line
    match atomicBad s x with
    | some (c, d) => respondPoison (reportImage s x.line x.leaf) p 8 1 c d
    | none =>
      let s := expandAll s (accessJob s w) l
      let (old, s) := applyAtomic s x (atomicOp p) (atomicBytes p) (field p.payload 0 8) (field p.payload 8 8)
      respondOk s w.req.lport p (oldBytes old)

/-! ### Combined lists (R147, R148) -/

/-- What a stored answer holds for a list: status and value (R148). -/
def storedResult (d : Dedup) : Nat × Nat :=
  match d.rsp, d.ack with
  | some r, _ => (r.status, if r.status = kSUCCESS then field r.payload 0 8 else 0)
  | none, some e => (e.estatus, 0)
  | none, none => (kSUCCESS, 0)

/-- The list applied from joiner `i` on (R148): it stops at a joiner whose own copy has no result yet. -/
def applyList (s : State) (p : Packet) (x : Part) (mine : List Nat) : Nat → List Joiner → List (Nat × Nat) → Option Joiner × List (Nat × Nat) × State
  | _, [], acc => (none, acc, s)
  | i, j :: r, acc =>
    if i ∈ mine then
      match atomicBad s x with
      | some (c, _) => applyList (storeJoiner s p j c 0) p x mine (i + 1) r (acc ++ [(c, 0)])
      | none =>
        let (old, s) := applyAtomic s x (atomicOp p) (atomicBytes p) j.value 0
        applyList (storeJoiner s p j kSUCCESS old) p x mine (i + 1) r (acc ++ [(kSUCCESS, old)])
    else match tget s.net.dedup (j.src, j.msg) with
      | some d => if d.done then applyList s p x mine (i + 1) r (acc ++ [storedResult d]) else (some j, acc, s)
      | none => applyList s p x mine (i + 1) r (acc ++ [(kSUCCESS, 0)])

/-- A combined list on a line that is ready (R148, R572). -/
def serveList (s : State) (w : Waiter) (l : List Piece) (x : Part) : State :=
  let p := w.req.pkt
  let js := joinersOf p.payload
  if leafE2e x.leaf && decide (124 < x.off + x.len) then failWith s w kMISALIGNED 0 0
  else
    let s := noteTray (expandAll s (accessJob s w) l) ((p.src, p.msg) :: js.map fun j => (j.src, j.msg)) x.line
    match applyList s p x w.mine w.done.length (js.drop w.done.length) w.done with
    | (some j, acc, s) => waitFor s { w with done := acc } (.copy j.src j.msg)
    | (none, acc, s) =>
      let data := (List.zipWith (fun j r => joinerBytes j r.1 r.2) js acc).flatten
      respondData (leaveWindow s w) p { data := data }

/-! ### Ranked epochs (R151, R152) -/

/-- The epoch has already been applied (R152). -/
def epochApplied (j : Job) (r : Nat) : Bool := gap 8 j.lastApplied r < 128

/-- What R121 and R152 refuse an atomic or a FENCE of a REPOCH for; a FENCE does not open a third epoch either (log entry 37). -/
def epochRefusal (s : State) (p : Packet) (r : Nat) : Option Nat :=
  match tget s.pool.jobs p.job with
  | none => if r ≠ 0 then some kJOB_UNKNOWN else none
  | some j =>
    if !j.ranked then (if r ≠ 0 then some kMALFORMED else none)
    else if epochApplied j r then some kMALFORMED
    else if p.op = opATOMIC && (!hasFlag p fORDERED || atomicCmb p) then some kMALFORMED
    else if !thas j.epochs r && 2 ≤ j.epochs.length then some kPARK_FULL
    else none

/-- A ranked atomic is held in its epoch (R151); one that waited behind its flow meets the checks of its epoch as it enters it (R152). -/
def holdRanked (s : State) (w : Waiter) : State :=
  let p := w.req.pkt
  let r := atomicEpoch p
  if w.req.order = 0 && parkFull s w.quarter then refuseAtHome s w kPARK_FULL 0 0
  else match epochRefusal s p r with
  | some c => failWith s w c 0 0
  | none =>
    let s := match tget s.pool.jobs p.job with
      | some j =>
        let (t, c) := tgetD j.epochs r (none, [])
        setJob s p.job { j with epochs := tset j.epochs r (some (t.getD s.now), c) }
      | none => s
    waitFor s { w with held := true } (.ranked p.job r)

/-- An ATOMIC at its home, once its epoch, if it has one, lets it run. -/
def runAtomic (s : State) (w : Waiter) : State :=
  let p := w.req.pkt
  match access s w rightAtomic (accessVa s w) (atomicBytes p) true with
  | .held s => s
  | .now l ps s =>
    match ps with
    | x :: _ =>
      if atomicCmb p then
        let (w, s) := accept s w
        serveList s w l x
      else serveAtomic s w l x
    | [] => s

/-- An ATOMIC at its home (R124, R148, R151). -/
def attemptAtomic (s : State) (w : Waiter) : State :=
  if rankedJob s w.req.pkt.job && !w.held then holdRanked s w else runAtomic s w

/-! ### FENCE (R130, R151) -/

/-- A request of a job's source that a FENCE covers: accepted before it. -/
def coveredBy (p : Packet) (order : Nat) (r : Req) : Bool :=
  decide (r.pkt.src = p.src ∧ r.pkt.job = p.job ∧ r.order ≠ 0) && (order = 0 || decide (r.order < order))

/-- A ranked atomic of a job's source that its epoch has let run and that waits for its line: it has a new place in the order, and a FENCE that waits covers it. -/
def rankedRuns (p : Packet) (w : Waiter) : Bool :=
  decide (w.req.pkt.src = p.src ∧ w.req.pkt.job = p.job ∧ w.req.pkt.op = opATOMIC) && w.held && (match w.why with
    | .ranked _ _ => false
    | _ => true)

/-- An earlier request of the FENCE's (SRC, JOB) has not taken effect (R130). -/
def fencePending (s : State) (p : Packet) (order : Nat) : Bool :=
  s.pool.waiters.any (fun w => coveredBy p order w.req || rankedRuns p w)
    || s.coh.busy.any (fun t => match t.2.cont with
        | .access w => coveredBy p order w.req || rankedRuns p w
        | _ => false)
    || s.sieve.reqs.any (fun e => coveredBy p order e.2.req)
    || s.bead.channels.any (fun c => c.2.queue.any fun b => coveredBy p order b.req)
    || s.pool.fences.any (fun f => match f.2.publish with
        | some w => coveredBy p order w.1.req
        | none => false)

/-- A FENCE with REPOCH closes its epoch for its source (R151). -/
def closeEpoch (s : State) (p : Packet) : State :=
  let r := bits p.oparg 15 8
  match tget s.pool.jobs p.job with
  | some j =>
    if j.ranked then
      let (t, c) := tgetD j.epochs r (none, [])
      setJob s p.job { j with epochs := tset j.epochs r (t, if p.src ∈ c then c else c ++ [p.src]) }
    else s
  | none => s

/-- A FENCE at its target (R130). -/
def attemptFence (s : State) (w : Waiter) : State :=
  let p := w.req.pkt
  match (if w.held then none else epochRefusal s p (bits p.oparg 15 8)) with
  | some c => failWith s w c 0 0
  | none =>
    let s := if w.held then s else closeEpoch s p
    if fencePending s p w.req.order then waitFor s { w with held := true } .fence else respondOk s w.req.lport p []

/-! ### One attempt -/

/-- An attempt of a memory operation, first or again; an ordered one waits behind earlier packets of its flow (R128, R139). -/
def attemptMem (s : State) (w : Waiter) : State :=
  let p := w.req.pkt
  if waitsBehind s w then waitFor s w .behind
  else if p.op = opLOAD then attemptLoad s w
  else if p.op = opSTORE then attemptStore s w
  else if p.op = opATOMIC then attemptAtomic s w
  else if p.op = opFENCE then attemptFence s w
  else if p.op = opREDUCE_WRITE then attemptReduceWrite s w
  else s

end Sys2Proof.Machine
end

