-- ==== Sys2Proof/Machine/Ingress.lean ====
section
/-! DEFINITION. A packet as it comes in: policing (R381), the field checks of the memory operations (R118 to R122), the check of an access through a window and its report (R162 to R170), and the entry of a memory request into its home. -/

namespace Sys2Proof.Machine

/-! ### Policing (R381) -/

/-- A bucket of `size` bytes filled at `rate` × 10 MB/s, that is rate / 100 bytes per ns, in hundredths of a byte (Table 13-11). -/
def refill (tok size rate dt : Nat) : Nat := min (size * 100) (tok + rate * dt)

/-- The bytes of a bucket field: 64 bytes a unit, 128 in legacy mode (R388). -/
def bucketBytes (s : State) (q v : Nat) : Nat := v * (if regField s (aQUEUE_CFG (quarterOf q)) 0 1 = 1 then 128 else 64)

/-- The colour of an arriving packet, and the port's buckets after it. -/
def police (s : State) (q : Nat) (p : Packet) : Colour × State :=
  if lossless p.tc then (.green, s)
  else
    let a := 8 * q + p.tc
    let cir := regField s (aPOLICE_RATE a) 0 16
    let pir := regField s (aPOLICE_RATE a) 16 16
    if pir = 0 then (.green, s)
    else
      let cbs := bucketBytes s q (regField s (aPOLICE_BURST a) 0 16)
      let pbs := bucketBytes s q (regField s (aPOLICE_BURST a) 16 16)
      let (tc, tp, t) := tgetD (sched s q).police p.tc (cbs * 100, pbs * 100, s.now)
      let tc := refill tc cbs cir (s.now - t)
      let tp := refill tp pbs pir (s.now - t)
      let b := 100 * packetSize p
      let put (tc tp : Nat) : State := setSched s q { sched s q with police := tset (sched s q).police p.tc (tc, tp, s.now) }
      if tp < b then (.red, put tc tp)
      else if tc < b then (.yellow, put tc (tp - b))
      else (.green, put (tc - b) (tp - b))

/-! ### Field checks (R118 to R122) -/

/-- The address space of a memory operation. -/
def aspaceOf (p : Packet) : Nat := p.oparg % 4

/-- Reserved bits, undefined values and a CAP that does not match, of LOAD, STORE, ATOMIC and FENCE (R118, R119, R122, R124). -/
def malformedMem (p : Packet) : Bool :=
  let a := aspaceOf p
  let cap := if a = 1 then decide (p.cap = 0) else decide (p.cap ≠ 0)
  if p.op = opLOAD then decide (2 ^ 23 ≤ p.oparg) || cap || decide (p.pcnt ≠ 0 ∨ lenOf p ≠ 0)
  else if p.op = opSTORE then decide (4 ≤ p.oparg) || cap || (decide (p.pcnt ≠ 0) && decide (p.tc = 0)) || decide (p.pcnt < p.pidx)
  else if p.op = opATOMIC then
    decide (2 ^ 16 ≤ p.oparg) || decide (a = 3) || cap || decide (10 < atomicOp p) || decide (p.pcnt ≠ 0)
      || (if atomicCmb p then
            decide (lenOf p = 0 ∨ lenOf p % 16 ≠ 0 ∨ 4096 < lenOf p ∨ atomicOp p = 2 ∨ atomicOp p = 10 ∨ atomicEpoch p ≠ 0)
              || (chunks 16 256 p.payload).any (fun b => decide (128 ≤ field b 3 1 * 64 ∨ field b 6 2 ≠ 0))
          else decide (lenOf p ≠ (if atomicOp p = 2 then 16 else 8))
              || (!atomicW64 p && decide (field p.payload 4 4 ≠ 0 ∨ field p.payload 12 4 ≠ 0)))
  else if p.op = opFENCE then decide (p.oparg / 2 ^ 16 ≠ 0 ∨ p.oparg % 256 ≠ 0 ∨ p.cap ≠ 0 ∨ p.pcnt ≠ 0)
  else decide (p.pcnt < p.pidx)

/-- Sizes and alignments of Table 5-2. -/
def misalignedMem (p : Packet) : Bool :=
  let inBlock (n : Nat) : Bool := decide (p.addr % 4096 + n ≤ 4096)
  if p.op = opLOAD then
    if p.tc = 0 then decide (p.addr % 8 ≠ 0) || !inBlock (loadSize p) else decide (p.addr % 8 ≠ 0)
  else if p.op = opSTORE then
    decide (lenOf p = 0 ∨ lenOf p % 8 ≠ 0 ∨ 4096 < lenOf p ∨ p.addr % 8 ≠ 0)
      || !inBlock (lenOf p) || decide (p.pidx < p.pcnt ∧ lenOf p ≠ 4096)
  else if p.op = opATOMIC then decide (p.addr % atomicBytes p ≠ 0)
  else if p.op = opFENCE then decide (p.addr ≠ 0 ∨ lenOf p ≠ 0)
  else false

/-- The first field check that a memory operation fails, on a port (R118 to R122, R147). -/
def memFieldCheck (s : State) (q : Nat) (p : Packet) : Option Nat :=
  if malformedMem p then some kMALFORMED
  else if p.op = opATOMIC && atomicCmb p && decide (q ≠ selfPort ∧ roleOf s q ≠ roleSWITCH) then some kMALFORMED
  else if p.op ≠ opFENCE && p.op ≠ opREDUCE_WRITE && decide (aspaceOf p = 2) then some kACCESS_DENIED
  else if p.op ≠ opFENCE && (p.op = opREDUCE_WRITE || decide (aspaceOf p = 0)) && p.cap = 0 && decide (2 ^ 48 ≤ p.addr) then
    some kADDRESS_INVALID
  else if misalignedMem p then some kMISALIGNED
  else none

/-! ### Windows (R157 to R170) -/

/-- Fields of a capability (Table 6-1). -/
def capIndex (c : Nat) : Nat := c % 2 ^ 20
def capGen (c : Nat) : Nat := c / 2 ^ 20 % 2 ^ 12
def capTag (c : Nat) : Nat := c / 2 ^ 32

/-- Rights through a window, as bits of RIGHTS. -/
def wRead : Nat := 0
def wWrite : Nat := 1
def wAtomic : Nat := 2
def wReduce : Nat := 3
def wGather : Nat := 4

/-- The quarter of a window (R159). -/
def windowQuarter (i : Nat) : Nat := i % 4

/-- The check of R163, as the code of its refusal. -/
def windowCode (s : State) (cap addr size right : Nat) : Option Nat :=
  let w := windowAt s (capIndex cap)
  if w.state = .free ∨ w.tag ≠ capTag cap then some kWINDOW_TAG_MISMATCH
  else if w.tenantGone then some kTENANT_GONE
  else if w.state ≠ .open_ ∨ w.gen ≠ capGen cap then some kWINDOW_REVOKED
  else if w.length < addr + size then some kWINDOW_BOUNDS
  else if !bit w.rights right then some kWINDOW_RIGHTS
  else none

/-- E_DETAIL of a window refusal (R167). -/
def windowDetail (cap : Nat) (p : Packet) : Nat := capIndex cap + flag (hasFlag p fRETX) * 2 ^ 20

/-- ROD_WINDOW_CFG.EVT_GAP in ns; 0 is taken as 1 µs (Table 6-8). -/
def evtGap (s : State) : Ns := us (max 1 (regField s aROD_WINDOW_CFG 0 8))

/-- The WINDOW_VIOLATION record of a refused packet (R464, R169): `need` is the mask of the right required. -/
def violationRecord (s : State) (i seq suppressed code cap addr size need : Nat) (p : Packet) : EventRec :=
  { etype := eWINDOW_VIOLATION, sev := sevINFO, uclass := 15, node := myNode s, time := timeNow s, seq := seq, status := code
    arg0 := i + capGen cap * 2 ^ 20 + p.src % 65536 * 2 ^ 32 + p.job % 65536 * 2 ^ 48
    arg1 := p.op % 256 + need % 32 * 2 ^ 8 + flag (hasFlag p fRETX) * 2 ^ 13 + p.msg % 2 ^ 24 * 2 ^ 32
    tail := le 8 addr ++ le 4 size ++ le 4 suppressed ++ zeros 8 }

/-- An event record for a window's owner, written at most once in EVT_GAP (R169, R170). -/
def windowEvent (s : State) (i : Nat) (mk : Nat → Nat → EventRec) : State :=
  let w := windowAt s i
  if w.evtCap = 0 then s
  else match (match w.lastEvt with
      | some t => decide (s.now < t + evtGap s)
      | none => false) with
    | true => modWindow s i fun x => { x with suppressed := x.suppressed + 1 }
    | false =>
      let seq := (w.evSeq + 1) % 2 ^ 32
      let s := modWindow s i fun x => { x with evSeq := seq, suppressed := 0, lastEvt := some s.now }
      sendRecord s (.windowEvent i) w.evtNode w.evtCap (64 * (seq % 2 ^ w.evtLog2)) (eventBytes (mk seq w.suppressed))

/-- A refusal through a window sets VIOLATION_EVT (R183), and is counted and reported to the owner (R168, R573). -/
def reportRefusal (s : State) (code cap addr size need : Nat) (p : Packet) : State :=
  let i := capIndex cap
  let n := windowQuarter i
  let s := setEvt s aROD_WINDOW_CFG 8
  if code = kTENANT_GONE ∨ p.job = 0 then s
  else
    let s := bump s (cWINDOW_VIOLATIONS n)
    if (windowAt s i).state = .free then s
    else
      let s := modWindow s i fun x => { x with violations := x.violations + 1 }
      windowEvent s i fun seq sup => violationRecord s i seq sup code cap addr size need p

/-- A check of an access through a window (R162 to R168): the code and detail of its refusal, counted and reported. -/
def checkWindow (s : State) (p : Packet) (cap addr size right : Nat) : Option (Nat × Nat) × State :=
  let s := bump s (cWINDOW_CHECKS (windowQuarter (capIndex cap)))
  match windowCode s cap addr size right with
  | some c => (some (c, if c = kTENANT_GONE then 0 else windowDetail cap p), reportRefusal s c cap addr size (2 ^ right) p)
  | none => (none, s)

/-- The right a memory operation needs through a window (Table 6-4), and its size (R163). -/
def memRight (p : Packet) : Nat :=
  if p.op = opLOAD then wRead else if p.op = opSTORE then wWrite else if p.op = opATOMIC then wAtomic else wReduce
def memSize (p : Packet) : Nat :=
  if p.op = opLOAD then loadSize p else if p.op = opATOMIC then atomicBytes p else lenOf p

/-- Whether a memory operation goes through a window. -/
def throughWindow (p : Packet) : Bool :=
  if p.op = opFENCE then false else if p.op = opREDUCE_WRITE then p.cap ≠ 0 else aspaceOf p = 1

/-! ### Messages of several packets (R90 to R93) -/

/-- The fields that every packet of a message shares (R90). -/
def sameMessage (a b : Packet) : Bool :=
  decide (a.tc = b.tc ∧ a.op = b.op ∧ a.dst = b.dst ∧ a.src = b.src ∧ a.job = b.job ∧ a.pcnt = b.pcnt ∧ a.oparg = b.oparg)
    && [fORDERED, fCOMBINABLE, fPOSTED, fCLRPSN].all fun i => hasFlag a i = hasFlag b i

/-- What R90 to R93 say of a packet. -/
inductive Place where
  /-- Accepted into its message. -/
  | fresh
  /-- Acknowledged and discarded. -/
  | again
  /-- The message completes with this code. -/
  | odd (code : Nat)
  /-- No bitmap is free. -/
  | full
  deriving DecidableEq, Repr

/-- A packet of a message of several packets that is over (R93). A copy carries RETX, and its sender has stopped 10 ms after the first transmission;
a packet without RETX whose original has been seen begins a new message under the same MSG (R94; log entry 16). -/
def closedMessage (s : State) (p : Packet) : Bool :=
  match tget s.net.closed (p.src, p.msg) with
  | some c =>
    if hasFlag p fRETX then decide (s.now < c.at_ + copiesLast)
    else !(p.pidx ∈ c.orig) && decide (s.now < c.at_ + ms 4)
  | none => false

/-- A PIDX that came without RETX is remembered with its message. -/
def noteOrig (s : State) (p : Packet) : State :=
  if hasFlag p fRETX then s
  else { s with net := { s.net with
    assembly := s.net.assembly.map fun e => if e.1.2.1 = p.src ∧ e.1.2.2 = p.msg then (e.1, { e.2 with orig := e.2.orig ++ [p.pidx] }) else e
    closed := tmod s.net.closed (p.src, p.msg) fun c => { c with orig := c.orig ++ [p.pidx] } } }

/-- The address of a packet of a bulk STORE fits its message (Table 5-2). -/
def bulkAddrOk (a : Assembly) (p : Packet) : Bool :=
  decide ((a.first.addr : Int) - 4096 * a.first.pidx = (p.addr : Int) - 4096 * p.pidx) || decide (p.op ≠ opSTORE)

/-- The place of a packet in its message. -/
def placeOf (s : State) (n : Nat) (p : Packet) : Place :=
  if p.pcnt = 0 then .fresh
  else if closedMessage s p then .again
  else match assemblyOf s p with
    | some (_, a) => if !sameMessage a.first p then .odd kMALFORMED else if !bulkAddrOk a p then .odd kMISALIGNED else if p.pidx ∈ a.got then .again else .fresh
    | none => if 16384 ≤ (s.net.assembly.filter fun e => decide (e.1.1 = n) && decide (e.2.got.length ≤ e.2.first.pcnt)).length then .full else .fresh

/-- An accepted packet is entered in its message's bitmap; the first of a new message allocates it. -/
def notePacket (s : State) (n : Nat) (p : Packet) : State :=
  if p.pcnt = 0 then s
  else
    let s := match assemblyOf s p with
      | some (k, a) => { s with net := { s.net with assembly := tset s.net.assembly k { a with got := a.got ++ [p.pidx], lastAt := s.now } } }
      | none => { s with net := { s.net with
          closed := tdel s.net.closed (p.src, p.msg)
          assembly := tset s.net.assembly (n, p.src, p.msg) { first := p, got := [p.pidx], lastAt := s.now } } }
    noteOrig s p

/-! ### Entry of a memory request -/

/-- A copy of a packet that waits here (R101, R138). -/
def waitingCopy (s : State) (p : Packet) : Bool :=
  s.pool.waiters.any (fun w => decide (w.req.pkt.src = p.src ∧ w.req.pkt.msg = p.msg ∧ w.req.pkt.pidx = p.pidx))
    || s.coh.busy.any (fun t => match t.2.cont with
        | .access w => decide (w.req.pkt.src = p.src ∧ w.req.pkt.msg = p.msg ∧ w.req.pkt.pidx = p.pidx)
        | _ => false)

/-- The first accepted packet of a request message that this module assembles or that waits here. -/
def heldPacket (s : State) (p : Packet) : Option Packet :=
  let mine (x : Packet) : Bool := decide (x.src = p.src ∧ x.msg = p.msg) && !isCohOp x.op
  match assemblyOf s p with
  | some (_, a) => some a.first
  | none => match s.pool.waiters.find? fun w => mine w.req.pkt with
    | some w => some w.req.pkt
    | none => s.coh.busy.findSome? fun t => match t.2.cont with
      | .access w => if mine w.req.pkt then some w.req.pkt else none
      | _ => none

/-- A packet with the (SRC, MSG) of a message in progress here that differs from its first packet (R90). -/
def oddPacket (s : State) (p : Packet) : Bool :=
  (p.tc ∈ [0, 3, 4]) && isRequestOp p.op && !isCohOp p.op && (match heldPacket s p with
    | some x => !sameMessage x p
    | none => false)

/-- A message with an odd packet completes with MALFORMED: that packet is discarded, and what waits of the message ends (R90). -/
def endOdd (s : State) (q : Nat) (p first : Packet) : State :=
  let mine (w : Waiter) : Bool := decide (w.req.pkt.src = p.src ∧ w.req.pkt.msg = p.msg)
  let s := (s.pool.waiters.filter mine).foldl leaveWindow s
  let s := { s with
    pool := { s.pool with waiters := s.pool.waiters.filter fun w => !mine w }
    coh := { s.coh with busy := s.coh.busy.map fun t => match t.2.cont with
      | .access w => if mine w then (t.1, { t.2 with cont := .backInval none }) else t
      | _ => t } }
  let s := closeDedup (endMessage s first) first kMALFORMED none (some { emsg := p.msg, epidx := p.pidx, estatus := kMALFORMED })
  nakPacket s q p kMALFORMED 0 0

/-- The dedup entries a non-idempotent request needs: one, and for a combined list one for each joiner that has none (R148). -/
def dedupNeed (s : State) (p : Packet) : Nat := 1 + if p.op = opATOMIC && atomicCmb p then (newJoiners s (joinersOf p.payload)).length else 0

/-- The first attempt of a memory request that has passed its checks: JOB and epoch, the dedup table, its message, its flow (R90, R101, R121, R152). -/
def enterMem (s : State) (w : Waiter) : State :=
  let p := w.req.pkt
  let n := w.quarter
  match (if p.op = opATOMIC then epochRefusal s p (atomicEpoch p)
         else if p.op = opFENCE then epochRefusal s p (bits p.oparg 15 8) else none) with
  | some c => refuseAtHome s w c 0 0
  | none =>
    if w.win.isNone && p.op ≠ opFENCE && !thas s.pool.jobs p.job then refuseAtHome s w kJOB_UNKNOWN 0 0
    else if nonIdempotent p && decide (1048576 < s.net.dedup.length + dedupNeed s p) then refuseAtHome (bump s (cDEDUP_FULL_COUNT n)) w kDEDUP_FULL 0 0
    else match placeOf s n p with
      | .again => ackPacket (noteOrig s p) w.req.lport p
      | .odd k => endMessage (nakPacket s w.req.lport p k 0 0) p
      | .full => refuseAtHome s w kASSEMBLY_FULL 0 0
      | .fresh => attemptMem (notePacket s n p) w

/-- A request that has passed its checks: a copy of one that waits here is acknowledged, another enters (R101, R162). -/
def enterOnce (s : State) (w : Waiter) : State :=
  let p := w.req.pkt
  if waitingCopy s p then (if hasFlag p fPOSTED then s else ackPacket s w.req.lport p) else enterMem s w

/-- A memory request at its home (R162, R570 step 5): the stored response of a non-idempotent one, field checks, window check, entry. -/
def serveMem (s : State) (r : Req) : State :=
  let p := r.pkt
  let w : Waiter := { req := r, why := .behind, quarter := quarterOf r.lport }
  match dedupOf s p with
  | some d => if nonIdempotent p then absorbCopy s r.lport p d else s
  | none =>
    match memFieldCheck s r.lport p with
    | some c => refuseAtHome s w c 0 0
    | none =>
      if throughWindow p then
        match checkWindow s p p.cap p.addr (memSize p) (memRight p) with
        | (some (c, d), s) => refuseAtHome s w c d 0
        | (none, s) => enterOnce s { w with win := some (capIndex p.cap) }
      else enterOnce s w

end Sys2Proof.Machine
end

