-- ==== Sys2Proof/Machine/WindowOps.lean ====
section
/-! DEFINITION. Opening and revoking windows (R158, R161, R171 to R180). -/

namespace Sys2Proof.Machine

/-- The next generation, skipping 0 (Table 6-3). -/
def nextGen (g : Nat) : Nat := if (g + 1) % 4096 = 0 then 1 else (g + 1) % 4096

/-- The tenant recorded for a job: that of the lowest slot whose grant names it, else 0 (Table 6-2; log entry 17). -/
def tenantOf (s : State) (job : Nat) : Nat :=
  match (sortBy (·.1) s.ten.slots).find? fun e => decide (e.2.state = .active) && decide (job ∈ e.2.jobs) with
  | some e => e.2.tenant
  | none => 0

/-- A window's parameters, from a WOPEN or an OPEN_WINDOW. -/
structure OpenAsk where
  job : Nat
  rights : Nat
  base : Nat
  length : Nat
  evtCap : Nat
  evtNode : Nat
  evtLog2 : Nat
  via : Bool
  deriving DecidableEq, Repr

/-- The parameters that R171 refuses. -/
def openMalformed (a : OpenAsk) : Bool :=
  decide (32 ≤ a.rights ∨ a.length = 0 ∨ a.length % 128 ≠ 0 ∨ 2 ^ 48 < a.base + a.length)
    || (if a.evtCap = 0 then decide (a.evtNode ≠ 0 ∨ a.evtLog2 ≠ 0) else decide (a.evtLog2 < 4 ∨ 16 < a.evtLog2))

/-- A tag from a quarter's generator: a free value that is never 0 (R158; log entry 3). -/
def drawTag (s : State) : Nat × State := let (v, s) := drawFree s; (v % (2 ^ 32 - 1) + 1, s)

/-- The windows of a job in OPEN and REVOKING (R172). -/
def openCount (s : State) (job : Nat) : Nat :=
  (s.win.table.filter fun e => e.2.ownerJob = job && (e.2.state = .open_ || e.2.state = .revoking)).length

/-- WINDOW_QUOTA of a job (R173). -/
def quotaOf (s : State) (job : Nat) : Nat := tgetD s.win.quota job 4096

/-- The lowest FREE index of a quarter from its k-th on. -/
def freeIndex (s : State) (n : Nat) : Nat → Nat → Option Nat
  | 0, _ => none
  | fuel + 1, k =>
    let i := 4 * k + n
    if 2 ^ 20 ≤ i then none else if (windowAt s i).state = .free then some i else freeIndex s n fuel (k + 1)

/-- The lowest REVOKED index of a quarter whose 8 ms have passed (Table 6-3). -/
def agedIndex (s : State) (n : Nat) : Option Nat :=
  ((sortBy (·.1) s.win.table).find? fun e => e.1 % 4 = n && decide (e.2.state = .revoked) && due s e.2.revokedAt (ms 8)).map (·.1)

/-- The index that R172 allocates, searching from a quarter. -/
def pickIndex (s : State) (n : Nat) : Option Nat :=
  let qs := (List.range 4).map fun i => (n + i) % 4
  match qs.findSome? fun m => freeIndex s m (s.win.table.length + 1) 0 with
  | some i => some i
  | none => qs.findSome? (agedIndex s)

/-- The answer to an opening: the code and detail of its refusal or of TABLE_FULL, or the capability. -/
inductive Opened where
  | no (code detail : Nat)
  | cap (c : Nat)
  deriving DecidableEq, Repr

/-- A window opened for a job that is installed here (R172). -/
def openWindowAt (s : State) (n : Nat) (a : OpenAsk) : Opened × State :=
  if quotaOf s a.job ≤ openCount s a.job then (.no kWINDOW_TABLE_FULL 1, setEvt s aROD_WINDOW_CFG 10)
  else match pickIndex s n with
    | none => (.no kWINDOW_TABLE_FULL 0, setEvt s aROD_WINDOW_CFG 10)
    | some i =>
      let (tag, s) := drawTag s
      let old := windowAt s i
      let gen := if old.state = .free then 1 else nextGen old.gen
      let w : Window :=
        { state := .open_, rights := a.rights, viaMailbox := a.via, gen := gen, tag := tag, ownerJob := a.job,
          ownerTenant := tenantOf s a.job, base := a.base, length := a.length, evtCap := a.evtCap, evtNode := a.evtNode,
          evtLog2 := a.evtLog2, openTime := timeNow s }
      (.cap (i + gen * 2 ^ 20 + tag * 2 ^ 32), { s with win := { s.win with table := tset s.win.table i w } })

/-- A WOPEN's parameters (Tables 6-5, 6-6). -/
def wopenAsk (p : Packet) : OpenAsk :=
  { job := p.job, rights := p.oparg % 32, base := p.addr, length := field p.payload 0 6, evtCap := field p.payload 8 8,
    evtNode := field p.payload 16 2, evtLog2 := field p.payload 18 1 % 32, via := false }

/-- Fields of a WOPEN that must be zero, and its LEN (R171). -/
def wopenMalformed (p : Packet) : Bool :=
  decide (32 ≤ p.oparg ∨ p.cap ≠ 0 ∨ lenOf p ≠ 24 ∨ p.pcnt ≠ 0)
    || decide (field p.payload 6 2 ≠ 0 ∨ field p.payload 18 6 / 32 ≠ 0) || openMalformed (wopenAsk p)

/-- A WOPEN at its home (R171, R172). -/
def serveWopen (s : State) (r : Req) : State :=
  let p := r.pkt
  let w : Waiter := { req := r, why := .behind, quarter := quarterOf r.lport }
  match dedupOf s p with
  | some d => absorbCopy s r.lport p d
  | none =>
    if wopenMalformed p then refuseAtHome s w kMALFORMED 0 0
    else if p.addr % 128 ≠ 0 then refuseAtHome s w kMISALIGNED 0 0
    else if !thas s.pool.jobs p.job then refuseAtHome s w kJOB_UNKNOWN 0 0
    else if dedupFull s then refuseAtHome (bump s (cDEDUP_FULL_COUNT w.quarter)) w kDEDUP_FULL 0 0
    else match openWindowAt (openDedup s p) w.quarter (wopenAsk p) with
      | (.no c d, s) => respond s r.lport p c d 0 0 []
      | (.cap c, s) => respondOk s r.lport p (le 8 c)

/-- Requests parked through a window are released without effect (R143, R177). -/
def releaseParked (s : State) (keep : Waiter → Bool) (fail : State → Waiter → State) : State :=
  let out := s.pool.waiters.filter fun w => !keep w
  out.foldl fail { s with pool := { s.pool with waiters := s.pool.waiters.filter keep } }

/-- The windows that a SIEVE names for its operands: the capabilities of its parameter block that are not 0 (Table 10-2). -/
def sieveWindows (p : Packet) : List Nat :=
  ((List.range 4).map fun o => field p.payload (16 * o + 8) 8).filterMap fun c => if c = 0 then none else some (capIndex c)

/-- Whether a revoke of a window releases a waiting request (R177, R575): one parked through it, or a SIEVE that waits behind its flow with an operand in it. -/
def releasedByRevoke (i : Nat) (w : Waiter) : Bool :=
  match w.why with
  | .fault _ _ | .tray _ | .handoff _ => decide (w.win = some i)
  | .behind => decide (w.win = some i) || (decide (w.req.pkt.op = opSIEVE) && decide (i ∈ sieveWindows w.req.pkt))
  | _ => false

/-- The generation bump of an OPEN window (R174, R175, R177). -/
def startRevoke (s : State) (i : Nat) : State :=
  let s := modWindow s i fun w => { w with state := .revoking, gen := nextGen w.gen }
  let s := bump s (cWINDOW_REVOKES (windowQuarter i))
  releaseParked s (fun w => !releasedByRevoke i w)
    fun st w => failWith st w kWINDOW_REVOKED (windowDetail w.req.pkt.cap w.req.pkt) 0

/-- What a revoke of a capability meets (R174). -/
inductive Revoke where
  | refused (code : Nat)
  | start
  | join
  | done
  deriving DecidableEq, Repr

/-- The case of R174 for a capability; `owner` is none for a caller who may revoke any window. -/
def revokeCase (s : State) (cap : Nat) (owner : Option Nat) : Revoke :=
  let w := windowAt s (capIndex cap)
  if w.state = .free ∨ w.tag ≠ capTag cap then .refused kWINDOW_TAG_MISMATCH
  else if (match owner with
      | some j => decide (w.ownerJob ≠ j)
      | none => false) then .refused kWINDOW_NOT_OWNER
  else if w.state = .open_ ∧ w.gen = capGen cap then .start
  else if (w.state = .revoking ∨ w.state = .revoked) ∧ capGen cap ≠ 0 ∧ nextGen (capGen cap) = w.gen then
    (if w.state = .revoking then .join else .done)
  else .refused kWINDOW_REVOKED

/-- A WREVOKE at its home (R174, R178, R573). -/
def serveWrevoke (s : State) (r : Req) : State :=
  let p := r.pkt
  let w : Waiter := { req := r, why := .behind, quarter := quarterOf r.lport }
  let i := capIndex p.cap
  match dedupOf s p with
  | some d => absorbCopy s r.lport p d
  | none =>
    if p.addr ≠ 0 ∨ p.oparg ≠ 0 ∨ lenOf p ≠ 0 ∨ p.pcnt ≠ 0 then refuseAtHome s w kMALFORMED 0 0
    else if dedupFull s then refuseAtHome (bump s (cDEDUP_FULL_COUNT w.quarter)) w kDEDUP_FULL 0 0
    else match revokeCase s p.cap (some p.job) with
      | .refused c => refuseAtHome (reportRefusal s c p.cap 0 0 0 p) w c (windowDetail p.cap p) 0
      | .done => respondOk (openDedup s p) r.lport p []
      | .start =>
        let (w, s) := accept s w
        startRevoke (modWindow s i fun x => { x with waitReq := x.waitReq ++ [w.req] }) i
      | .join =>
        let (w, s) := accept s w
        modWindow s i fun x => { x with waitReq := x.waitReq ++ [w.req] }

/-- A forced revoke (R180): an OPEN window's bump; anything else is left as it is. -/
def forceRevoke (s : State) (i : Nat) : State := if (windowAt s i).state = .open_ then startRevoke s i else s

/-- The drain of a window is over (R178): REVOKED, and every revoke that waited is answered. -/
def drained (s : State) (i : Nat) : State :=
  let w := windowAt s i
  let s := modWindow s i fun x => { x with state := .revoked, revokedAt := s.now, waitReq := [], waitCmd := [] }
  let s := w.waitReq.foldl (fun st r => respondOk st r.lport r.pkt []) s
  w.waitCmd.foldl (fun st c => answerOk st c mbREVOKE_WINDOW []) s

end Sys2Proof.Machine
end

