-- ==== Sys2Proof/Machine/Creq.lean ====
section
/-! DEFINITION. What the home does with an agent's CREQ (R188, R191 to R199, R204, R205, R208 to R211). -/

namespace Sys2Proof.Machine

/-- The agent index of a port (R188). -/
def creqAgent (r : Req) : Nat := r.lport / 8

/-- CKIND of a CREQ (Table 7-2). -/
def ckind (p : Packet) : Nat := p.oparg % 16

/-- The CREQs of an agent that are unanswered here (R188, R196). -/
def creqCount (s : State) (a : Nat) : Nat :=
  (s.pool.waiters.filter fun w => w.req.pkt.op = opCREQ && creqAgent w.req = a).length
    + (s.coh.busy.filter fun t => match t.2.cont with
        | .creq r => decide (creqAgent r = a)
        | _ => false).length

/-- A coherence packet of an agent being reclaimed is discarded (R209). -/
def lateDrop (s : State) (q : Nat) : State := bump s (cCOH_LATE_DROP (quarterOf q))

/-- CRSP to a CREQ (Table 7-3). -/
def crspTo (s : State) (r : Req) (h rkind : Nat) : State := sendCoh s r.lport opCRSP r.pkt.msg rkind h 0 []

/-- CDAT to a CREQ: the line's data, or poison with its code (Table 7-4, R210, R211). -/
def fillTo (s : State) (r : Req) (h l leaf dkind : Nat) : State :=
  match lineBad s l leaf with
  | none => sendCoh s r.lport opCDAT r.pkt.msg dkind h kSUCCESS (lineBytes s l)
  | some (c, d) =>
    sendCoh s r.lport opCDAT r.pkt.msg (dkind + 16 + (if c = kPOISONED_LOST_OWNER then d % 2 ^ 14 * 2 ^ 16 else 0)) h c (zeros 128)

/-! ### Keys of protected lines (R408) -/

def slotK1 (k : KeySlot) : List Byte := k.keys.take 32
def slotK2 (k : KeySlot) : List Byte := (k.keys.drop 32).take 32
def slotKM (k : KeySlot) : List Byte := (k.keys.drop 64).take 32

/-- A line as its tray holds it under a slot: ciphertext and tag. -/
def sealLine (k : KeySlot) (a : Nat) (d : List Byte) : List Byte × List Byte :=
  let c := xtsEncrypt (slotK1 k) (slotK2 k) a d
  (c, lineTag (slotKM k) a c)

/-! ### What an agent returns -/

/-- A line whose data an agent returns: memory takes it and its poison is cleared, or it is kept as poison (R192, R199, R211).
A line whose frame is gone, or whose tenant was removed, keeps nothing (R422); of a tray line whose slot was on a failed stack the data goes to the tray at once, that of a protected page encrypted and with its tag (R232, R409). -/
def takeAgentData (s : State) (h l : Nat) (poison : Bool) (d : List Byte) : State :=
  if isTrayLine s l && hlnGone s h then
    if poison then s
    else
      let put (s : State) (a : Nat) (d : List Byte) : State := sendOwn s .plain { tc := 0, op := opSTORE, dst := nodeOf (l * 128), oparg := 2, addr := a, payload := d }
      match (lineInfo s l).slot with
      | some k =>
        let x := sealLine (keySlot s k) (l * 128) d
        put (put s (l * 128) x.1) (metaAddr (l * 128)) x.2
      | none => put s (l * 128) d
  else if deadLine s l || decide (h ∈ s.pool.discard) then s
  else if poison then poisonLine (dirtyLine s l) l kPOISONED_DATA
  else
    let s := dirtyLine (putBytes s (l * 128) (padTo 128 d)) l
    setLine s l { lineInfo s l with poison := 0 }

/-- The state with a grant recorded. -/
def grantDir (s : State) (h : Nat) (st : DirState) : State := setDir s h (some { st := st, grantAt := s.now })

/-- Whether an address lies in a view of a publish region (R229). -/
def inView (s : State) (job va : Nat) : Bool :=
  s.pool.regions.any fun g => g.job = job && decide (g.view ≤ va) && decide (va < g.view + g.span)

/-- The entries of a line's directory set (R197). -/
def setOf (s : State) (h : Nat) : List (Nat × DirEntry) :=
  s.coh.dir.filter fun e => e.1 / 2 ^ 27 = h / 2 ^ 27 && e.1 % 2 ^ 21 = h % 2 ^ 21

/-- Whether an entry is the Lost state of its line. -/
def isLostEntry (d : DirEntry) : Bool :=
  match d.st with
  | .lost _ => true
  | _ => false

/-- The way to free in a full set: neither busy nor Lost, with the fewest sharers, then granted longest ago (R204). -/
def victimOf (s : State) (h : Nat) : Option (Nat × DirEntry) :=
  let c := (setOf s h).filter fun e => !thas s.coh.busy e.1 && !isLostEntry e.2
  (sortBy (fun e => (holders e.2).length) (sortBy (fun e => e.2.grantAt) c)).head?

/-- An exclusive grant: owner, and a tray line counts as dirty from then on (R186, R199, R220, R522). -/
def grantOwner (s : State) (r : Req) (h l leaf : Nat) : State :=
  let s := grantDir (dirtyLine s l) h (.owned (creqAgent r))
  fillTo s r h l leaf 1

/-- DIR_CFG as a line's transaction in progress sees it: as it stood when it began (R9, R13). -/
def dirCfg (s : State) (h : Nat) : Word := (tget s.coh.oldCfg h).getD (regWord s aDIR_CFG)

/-- A read or UPGRADE of a line found Uncached, or owned by the agent itself (Table 7-6); a share granted after a snoop is S. -/
def grantFresh (s : State) (w : Waiter) (h l leaf : Nat) : State :=
  let s := dirTurn s h
  let r := w.req
  if ckind r.pkt = 0 && (w.share || bit (dirCfg s h).toNat 8 = false || !bit (leafRights leaf) rightWrite) then
    fillTo (grantDir s h (.shared [creqAgent r])) r h l leaf 0
  else match (if isTrayLine s l then markHold s l 0 else (none, s)) with
    | (some hd, s) => holdAccess s w hd
    | (none, s) => grantOwner s r h l leaf

/-- A CREQ of a line with no entry: it takes a way, frees one, or is answered FILL_NC (R204, R205). -/
def creqUncached (s : State) (w : Waiter) (h l leaf : Nat) : State :=
  let s := (setOf s h).foldl (fun st e => settleDir st e.1) s
  if (setOf s h).length < 16 then grantFresh s w h l leaf
  else match victimOf s h with
    | none => fillTo (setEvt (bump s (cDIR_NC_GRANTS (h / 2 ^ 27))) aDIR_CFG 11) w.req h l leaf 2
    | some (v, d) =>
      let (w, s) := accept s w
      let s := { s with coh := { s.coh with busy := tset s.coh.busy h { awaiting := [], share := w.share, cont := .creq w.req } } }
      startSnoops s v (holders d) false true (.backInval (some h))

/-- The snoops of a CREQ. -/
def creqSnoop (s : State) (w : Waiter) (h : Nat) (tgt : List Nat) (share : Bool) : State :=
  let (w, s) := accept s w
  startSnoops s h tgt share false (.creq w.req)

/-- A CREQ for a line against its directory entry (Table 7-6). -/
def creqOnEntry (s : State) (w : Waiter) (h l leaf : Nat) : State :=
  let r := w.req
  let a := creqAgent r
  let ck := ckind r.pkt
  match dirState s h with
  | none => creqUncached s w h l leaf
  | some (.lost _) => fillTo s r h l leaf 2
  | some (.owned o) =>
    if o = a then grantFresh s w h l leaf else creqSnoop s w h [o] (ck = 0)
  | some (.shared v) =>
    if ck = 0 then fillTo (grantDir s h (.shared (if a ∈ v then v else sortAsc (v ++ [a])))) r h l leaf 0
    else if v.filter (· ≠ a) ≠ [] then creqSnoop s w h (v.filter (· ≠ a)) false
    else match (if isTrayLine s l then markHold s l 0 else (none, s)) with
      | (some hd, s) => holdAccess s w hd
      | (none, s) =>
        if ck = 2 then crspTo (grantDir (dirtyLine s l) h (.owned a)) r h 0 else grantOwner s r h l leaf

/-- A read or UPGRADE whose line has been found (R186, R187, R205, R229, Table 12-3); the line of an invalid image is poison, and its leaf stays COMPRESSED (R228). -/
def creqOnLine (s : State) (w : Waiter) (x : Part) : State :=
  let r := w.req
  let l := x.line
  match placeHold s r.order .read x with
  | (some hd, s) => holdAccess s w hd
  | (none, s) =>
    if deadLine s l then fillTo s r ((hlnOf s l).getD 0) l x.leaf 2
    else if (lostBy s l).isNone && imageBad s l x.leaf then
      sendCoh (countRead s (r.order = 0) [x]) r.lport opCDAT r.pkt.msg (2 + 16) ((hlnOf s l).getD 0) kPOISONED_DATA (zeros 128)
    else
      let s := countRead (expandPage s r.pkt.job r.pkt.addr x.leaf) (r.order = 0) [x]
      match hlnOf s l with
      | none => fillTo s r 0 l x.leaf 2
      | some h =>
        let s := lookupDir s h
        if (lostBy s l).isNone && (leafBeadWr x.leaf || inView s r.pkt.job r.pkt.addr || channelMode s l = .shared) then
          fillTo s r h l x.leaf 2
        else creqOnEntry s w h l x.leaf

/-- RD_SHARED, RD_OWN and UPGRADE (R185, R186, R192). -/
def creqRead (s : State) (w : Waiter) : State :=
  let p := w.req.pkt
  match reach s w.quarter p.job p.job rightRead p.addr 128 with
  | (.fail c d, s) => failWith s w c d (if c = kREROUTE then 1 else 0)
  | (.absent page psize, s) => parkOnFault s w p.job page psize (ckind p ≠ 0)
  | (.ok l, s) =>
    match partsOf l 0 with
    | x :: _ =>
      if ckind p ≠ 0 && !bit (leafRights x.leaf) rightWrite then failWith s w kACCESS_DENIED 0 0 else creqOnLine s w x
    | [] => s

/-- WB_DIRTY and EVICT_CLEAN of a home line number (Table 7-6). -/
def creqGiveUp (s : State) (w : Waiter) : State :=
  let r := w.req
  let p := r.pkt
  let a := creqAgent r
  let h := p.addr
  match lineOfHln s h with
  | none => if ckind p = 3 then crspTo (bump s (cDIR_WB_STALE (h / 2 ^ 27))) r h 2 else crspTo s r h 3
  | some l =>
    if lineBusy s l h r.order then waitFor s w (.line h)
    else
      let s := lookupDir s h
      match dirState s h with
      | some (.owned o) =>
        if o = a then
          if ckind p = 3 then crspTo (setDir (takeAgentData s h l (bit p.oparg 4) p.payload) h none) r h 1
          else crspTo (setDir s h none) r h 3
        else if ckind p = 3 then crspTo (bump s (cDIR_WB_STALE (h / 2 ^ 27))) r h 2 else crspTo s r h 3
      | some (.shared v) =>
        if ckind p = 3 then crspTo (bump s (cDIR_WB_STALE (h / 2 ^ 27))) r h 2
        else crspTo (setDir s h (sharedBy (v.filter (· ≠ a)) (((dirOf s h).map (·.grantAt)).getD 0))) r h 3
      | _ => if ckind p = 3 then crspTo (bump s (cDIR_WB_STALE (h / 2 ^ 27))) r h 2 else crspTo s r h 3

/-- An attempt of a CREQ, first or again, by its agent's state; one whose agent began to be reclaimed while it waited is treated as one that came afterwards (R188, R208, R209). -/
def attemptCreq (s : State) (w : Waiter) : State :=
  let st := (agentOf s (creqAgent w.req)).state
  if (st = .reclaiming ∨ w.req.gone) ∧ ckind w.req.pkt = 3 then lateDrop s w.req.lport
  else if w.req.gone then failWith s w kUNSUPPORTED_OPERATION 0 0
  else if st = .attached ∨ (st = .detaching ∧ 3 ≤ ckind w.req.pkt) then
    if 3 ≤ ckind w.req.pkt then creqGiveUp s w else creqRead s w
  else failWith s w kUNSUPPORTED_OPERATION 0 0

/-- Fields of a CREQ that must be as R191, R192 and Table 7-2 give them. -/
def creqMalformed (p : Packet) : Bool :=
  decide (p.flags / 2 % 256 ≠ 0 ∨ p.flow ≠ 0 ∨ p.fseq ≠ 0 ∨ p.pidx ≠ 0 ∨ p.pcnt ≠ 0 ∨ p.cap ≠ 0)
    || decide (4 < ckind p ∨ 2 ^ 5 ≤ p.oparg) || (bit p.oparg 4 && decide (ckind p ≠ 3))
    || decide (lenOf p ≠ if ckind p = 3 then 128 else 0) || (decide (3 ≤ ckind p) && decide (2 ^ 29 ≤ p.addr))

/-- A CREQ as it arrives at its home (R188, R192). -/
def serveCreq (s : State) (r : Req) : State :=
  let p := r.pkt
  let a := creqAgent r
  let ag := agentOf s a
  let w : Waiter := { req := r, why := .behind, quarter := quarterOf r.lport }
  if creqMalformed p || decide (p.src ≠ (lport s r.lport).partnerNode) then refuseAtHome s w kMALFORMED 0 0
  else if (ag.state = .attached ∨ ag.state = .detaching) ∧ ag.creqCredits ≤ creqCount s a then refuseAtHome s w kMALFORMED 0 0
  else if (ag.state = .attached) ∧ ckind p < 3 ∧ p.addr % 128 ≠ 0 then refuseAtHome s w kMISALIGNED 0 0
  else attemptCreq s w

end Sys2Proof.Machine
end

