-- ==== Sys2Proof/Machine/Publish.lean ====
section
/-! DEFINITION. Back-invalidation and translation fences (R135, R206), and PUBLISH (R229 to R231). -/

namespace Sys2Proof.Machine

/-! ### Back-invalidation and fences -/

/-- The home line numbers with a directory entry whose line lies in a range of pool addresses (R206). -/
def heldLines (s : State) (base size : Nat) : List Nat :=
  (s.coh.dir.filter fun e => match lineOfHln s e.1 with
    | some l => decide (base ≤ l * 128) && decide (l * 128 < base + size)
    | none => false).map (·.1)

/-- The held lines of the page of a leaf. -/
def heldOfLeaf (s : State) (level leaf : Nat) : List Nat :=
  if leafTier leaf = tierABSENT then [] else heldLines s (leafAddr level leaf 0) (pageSize level)

/-- A line's transaction or write-back is under way. -/
def underWay (s : State) (h : Nat) : Bool :=
  thas s.coh.busy h || s.pool.waiters.any (fun w => w.holds = some h) || (match lineOfHln s h with
    | some l => decide ((lineInfo s l).writing ≠ 0)
    | none => false)

/-- The agents a back-invalidation of a line snoops: none when it is Uncached or Lost (R206). -/
def snoopable (s : State) (h : Nat) : List Nat :=
  match dirOf s h with
  | some d => holders d
  | none => []

/-- Every line of a list that is held and at rest is back-invalidated. -/
def probeLines (s : State) (hs : List Nat) : State :=
  hs.foldl (fun st h =>
    let st := settleDir st h
    if underWay st h || snoopable st h = [] then st else startSnoops st h (snoopable st h) false true (.backInval none)) s

/-- No line of a list is held or under way any more. -/
def probeDone (s : State) (hs : List Nat) : Bool := hs.all fun h => !thas s.coh.busy h && snoopable s h = []

/-- A change of translation entries waits for R135. -/
def startFence (s : State) (f : Fence) : State :=
  let n := s.pool.nextFence
  probeLines { s with pool := { s.pool with
    fences := tset s.pool.fences n { f with since := s.now }, nextFence := n + 1 } } f.probe

/-- The leaves under an entry at a level, with their levels; `n` is the number of levels below it. -/
def leavesUnder (s : State) : Nat → Nat → List (Nat × Nat)
  | 0, e => if ttKind e = 2 then [(3, e)] else []
  | n + 1, e =>
    if ttKind e = 2 then [(2 - n, e)]
    else if ttKind e = 1 then
      (List.range (2 ^ levelBits (3 - n))).flatMap fun i => leavesUnder s n ((ttEntry s (ttNext e + 8 * i)).getD 0)
    else []

/-- The held lines of the pages an entry at a level maps. -/
def heldUnder (s : State) (level e : Nat) : List Nat :=
  (leavesUnder s (3 - level) e).flatMap fun x => heldOfLeaf s x.1 x.2

/-! ### PUBLISH -/

/-- The level whose entries cover a span. -/
def spanLevel (span : Nat) : Nat := if span = 2 ^ 30 then 1 else 2

/-- The region a PUBLISH names: by its view, under a window the owner's, else one that has JOB as publisher where there is one (R230). -/
def regionOf (s : State) (w : Waiter) : Option Region :=
  let p := w.req.pkt
  match w.win with
  | some i => s.pool.regions.find? fun g => g.job = (windowAt s i).ownerJob && g.view = (windowAt s i).base + p.addr
  | none =>
    match s.pool.regions.find? fun g => g.view = p.addr && decide (p.job ∈ g.pubs) with
    | some g => some g
    | none => s.pool.regions.find? fun g => g.view = p.addr

/-- Two spans overlap. -/
def overlap (a n b m : Nat) : Bool := decide (a < b + m) && decide (b < a + n)

/-- A publication: the NEXT fields of the two covering entries are exchanged and the version moves (R230, R231). -/
def publishNow (s : State) (w : Waiter) (g : Region) (stage vo ve so se : Nat) (ps : List Part) : State :=
  let lv := spanLevel g.span
  let ver := (g.version + 1) % 2 ^ 64
  let (w, s) := accept s w
  let probe := heldUnder s lv ve ++ heldUnder s lv se
  let s := writeParts s ps (le 8 ver) false [] true
  let s := { s with pool := { s.pool with
    tt := tset (tset s.pool.tt (vo / 8) (setBits ve 12 25 (bits se 36 12))) (so / 8) (setBits se 12 25 (bits ve 36 12))
    regions := s.pool.regions.map fun x => if x = g then { x with version := ver } else x } }
  let s := dropXlate (dropXlate s g.job g.view g.span) g.job stage g.span
  startFence s { probe := probe, publish := some (w, ver), spans := [(g.job, g.view, g.span), (g.job, stage, g.span)] }

/-- A PUBLISH at its home (R230). -/
def attemptPublish (s : State) (w : Waiter) : State :=
  let p := w.req.pkt
  if flowBlocked s p then waitFor s w .behind
  else match regionOf s w with
  | none => failWith s w kADDRESS_INVALID 0 0
  | some g =>
    if w.win.isNone && !(p.job ∈ g.pubs) then failWith s w kACCESS_DENIED 0 0
    else
      let stage := field p.payload 8 6
      if stage % g.span ≠ 0 then failWith s w kMISALIGNED 0 0
      else if s.pool.regions.any fun x => x.job = g.job && overlap stage g.span x.view x.span then failWith s w kADDRESS_INVALID 0 0
      else match coveringEntry s g.job g.view (spanLevel g.span), coveringEntry s g.job stage (spanLevel g.span) with
        | some (vo, ve), some (so, se) =>
          if ttKind ve ≠ 1 ∨ ttKind se ≠ 1 then failWith s w kADDRESS_INVALID 0 0
          else if field p.payload 0 8 ≠ g.version then
            respond (openDedup (leaveWindow s w) p) w.req.lport p kVERSION_CONFLICT 0 0 g.version []
          else match reach s w.quarter g.job p.job rightWrite g.vword 8 with
            | (.fail c d, s) => failWith s w c d (if c = kREROUTE then 1 else 0)
            | (.absent page psize, s) => parkOnFault s w g.job page psize true
            | (.ok l, s) => match linesHold s w.req.order true (partsOf l 0) with
              | (some h, s) => holdAccess s w h
              | (none, s) => publishNow (expandAll s g.job l) w g stage vo ve so se (partsOf l 0)
        | _, _ => failWith s w kADDRESS_INVALID 0 0

/-- Fields of a PUBLISH that must be as R230 and Table 8-3 give them. -/
def publishMalformed (p : Packet) : Bool :=
  decide (2 ≤ p.oparg ∨ lenOf p ≠ 16 ∨ p.pcnt ≠ 0 ∨ field p.payload 14 2 ≠ 0)
    || (if p.oparg = 1 then decide (p.cap = 0) else decide (p.cap ≠ 0))

/-- The span a PUBLISH through a window covers, for its check. -/
def publishSpan (s : State) (p : Packet) : Nat :=
  let x := windowAt s (capIndex p.cap)
  ((s.pool.regions.find? fun g => g.job = x.ownerJob && g.view = x.base + p.addr).map (·.span)).getD 1

/-- A PUBLISH as it arrives at its home (R101, R121, R230). -/
def servePublish (s : State) (r : Req) : State :=
  let p := r.pkt
  let w : Waiter := { req := r, why := .behind, quarter := quarterOf r.lport }
  match dedupOf s p with
  | some d => absorbCopy s r.lport p d
  | none =>
    if waitingCopy s p then ackPacket s r.lport p
    else if publishMalformed p then refuseAtHome s w kMALFORMED 0 0
    else if dedupFull s then refuseAtHome (bump s (cDEDUP_FULL_COUNT w.quarter)) w kDEDUP_FULL 0 0
    else if p.oparg = 1 then
      match (if (regionOf s { w with win := some (capIndex p.cap) }).isNone && (windowAt s (capIndex p.cap)).tag = capTag p.cap then
          (none, s) else checkWindow s p p.cap p.addr (publishSpan s p) wWrite) with
      | (some (c, d), s) => refuseAtHome s w c d 0
      | (none, s) => attemptPublish s { w with win := some (capIndex p.cap) }
    else if !thas s.pool.jobs p.job then refuseAtHome s w kJOB_UNKNOWN 0 0
    else attemptPublish s w

end Sys2Proof.Machine
end

