-- ==== Sys2Proof/Machine/Carry.lean ====
section
/-! DEFINITION. Reduction groups at a switch (R240 to R270, R358 to R365): staging, contributions, partials, delivery, aborts. -/

namespace Sys2Proof.Machine

/-! ### Geometry and staging (R242, R243, R361) -/

/-- The engine of a slice of a group. -/
def engineOf (rid slice : Nat) : Nat := (rid + slice / 8) % 96

/-- The quarter of a slice's engine. -/
def sliceQuarter (rid slice : Nat) : Nat := engineOf rid slice / 24

/-- The slices of a group, and the elements of one. -/
def sliceCount (a : OpenReductionArgs) : Nat := ceilDiv a.length 32
def sliceElems (a : OpenReductionArgs) (i : Nat) : Nat := min 32 (a.length - 32 * i)

/-- This switch is the group's root (R240). -/
def isRoot (s : State) (a : OpenReductionArgs) : Bool := a.parent = myNode s

/-- The class of a group. -/
def classOf (a : OpenReductionArgs) : CarryClass := carryClass a.cop a.fmt

/-- A switch that forwards contributions and keeps no round: any but the root of an FP64 or ATTN_MERGE group (R259, R360). -/
def forwardsOnly (s : State) (a : OpenReductionArgs) : Bool := !isRoot s a && (classOf a = .fp64 || classOf a = .attn)

/-- The slices of a group whose engines lie in a quarter. -/
def slicesIn (rid n slices : Nat) : Nat :=
  let stripes := ceilDiv slices 8
  let here := stripes / 96 * 24 + ((List.range (stripes % 96)).filter fun k => (rid + k) % 96 / 24 = n).length
  8 * here - (if slices % 8 ≠ 0 ∧ (rid + (stripes - 1)) % 96 / 24 = n then 8 * stripes - slices else 0)

/-- E of R361. -/
def attnRecords (dh : Nat) : Nat := ceilDiv (8 + 4 * dh) 96

/-- The records a group takes in a quarter (R243, R361). -/
def groupRecords (s : State) (a : OpenReductionArgs) (n : Nat) : Nat :=
  let desc := if a.rid % 4 = n then ceilDiv (64 + 4 * a.inputs.length) 96 else 0
  let own := match classOf a with
    | .attn =>
      if isRoot s a ∧ a.rid % 4 = n then
        a.ntotal * a.qn * attnRecords a.length + a.qn * attnRecords a.length + ceilDiv (a.ntotal * a.qn) 512
      else 0
    | .fp64 => if isRoot s a then slicesIn a.rid n (sliceCount a) * (ceilDiv (32 * a.ntotal * 8) 96 + 1) else 0
    | _ => 33 * slicesIn a.rid n (sliceCount a)
  desc + own

/-- The carry staging in use in a quarter, of 2,097,152 records: groups, and COMBINE requests (R280). -/
def stagingUsed (s : State) (n : Nat) : Nat :=
  s.carry.groups.foldl (fun t g => t + groupRecords s g.2.a n) 0
    + s.sieve.reqs.foldl (fun t r => t + (if r.2.quarter = n then r.2.staging else 0)) 0

/-- STAGING_WARN_EVT where a quarter's staging has reached the threshold (R270). -/
def warnStaging (s : State) : State :=
  if (List.range 4).any fun n => clamp 50 100 (regField s aCARRY_CFG 0 7) * 2097152 ≤ 100 * stagingUsed s n then setEvt s aCARRY_CFG 7
  else s

/-- A group. -/
def groupOf (s : State) (rid : Nat) : Option Group := tget s.carry.groups rid

/-- The state with a group replaced. -/
def setGroup (s : State) (rid : Nat) (g : Group) : State := { s with carry := { s.carry with groups := tset s.carry.groups rid g } }

/-- The state with a group changed. -/
def modGroup (s : State) (rid : Nat) (f : Group → Group) : State :=
  { s with carry := { s.carry with groups := tmod s.carry.groups rid f } }

/-! ### Inputs and covered slices (R249, R250) -/

/-- The index of an input in INPUTS. -/
def inputIndex (a : OpenReductionArgs) (kind node rank : Nat) : Option Nat :=
  a.inputs.findIdx? fun x => x.kind = kind && x.node = node && x.rank = rank

/-- The child switches of a group. -/
def children (a : OpenReductionArgs) : List Nat := (a.inputs.filter fun x => x.kind = 1).map (·.node)

/-- The input index of a contribution: in an FP64 group at the root its rank, sent by the rank's node or by a child switch (R259);
elsewhere in such a group a child's forwarded contribution has none of its own. -/
def contribIndex (s : State) (a : OpenReductionArgs) (src rank : Nat) : Option Nat :=
  if classOf a = .fp64 then
    if (inputIndex a 0 src rank).isSome || src ∈ children a then (if isRoot s a && decide (a.ntotal ≤ rank) then none else some rank)
    else none
  else inputIndex a 0 src rank

/-- What one covered slice brings. -/
inductive SliceIn where
  | skip
  | contrib (rank : Nat) (d : List Byte)
  | recs (l : List Elem)
  deriving DecidableEq, Repr

/-- The slices that a payload covers from slice `i` on, whole and matching the group's (R250). -/
def coverFrom (a : OpenReductionArgs) (rank : Nat) : Nat → Nat → List Byte → Option (List (Nat × SliceIn))
  | 0, _, d => if d = [] then some [] else none
  | fuel + 1, i, d =>
    if d = [] then some []
    else if sliceCount a ≤ i then none
    else
      let n := contribBytes a.cop a.fmt (sliceElems a i)
      if d.length < n then none
      else (coverFrom a rank fuel (i + 1) (d.drop n)).map fun l => (i, .contrib rank (d.take n)) :: l

/-- A payload is some whole slices of a format, the last of them possibly short (check 1 of R250); a code that Table 9-4 does not list gives no
slice size, and check 3 refuses it. -/
def wholeSlices (cop fmt len : Nat) : Bool :=
  if 19 < fmt then decide (0 < len) else
  let full := contribBytes cop fmt 32
  let w := if cop = 1 then 4 else 0
  let rest := len % full
  decide (0 < len) && (rest = 0 || (!isMxFmt fmt && decide (w < rest) && decide ((rest - w) % max 1 (inBytes fmt) = 0)))

/-! ### Leaving a switch (R261, R263, R264, R362, R363) -/

/-- The extension of a carry partial (Table 9-8). -/
def partialExt (rid kind round elem nslice abseq : Nat) : List Byte :=
  le 1 1 ++ le 3 (rid % 2 ^ 20 + kind % 16 * 2 ^ 20) ++ le 2 round ++ le 3 elem ++ le 1 nslice ++ le 1 abseq ++ zeros 5

/-- A PARTIAL of a group leaves (R260). -/
def sendPartial (s : State) (purpose : Purpose) (a : OpenReductionArgs) (dst kind round elem nslice abseq : Nat) (body : List Byte) : State :=
  sendOwn s purpose { tc := 5, op := opPARTIAL, flags := 2 ^ fEXT + 2 ^ fPOSTED, dst := dst, job := a.job,
                      oparg := a.cop + a.fmt * 16, ext := partialExt a.rid kind round elem nslice abseq, payload := body }

/-- A slice joins the newest of an engine's packets, or starts a new one when it would take that beyond 4,080 bytes or 255 slices (R261). -/
def packSlice (l : List (Nat × Nat × List Byte)) (x : Nat × List Byte) : List (Nat × Nat × List Byte) :=
  match l with
  | (j, n, e) :: t => if x.1 = j + n ∧ n < 255 ∧ e.length + x.2.length ≤ 4080 then (j, n + 1, e ++ x.2) :: t else (x.1, 1, x.2) :: l
  | [] => [(x.1, 1, x.2)]

/-- Consecutive slices of one engine gathered into packets, in ascending order (R261): first slice, count, bytes. -/
def packSlices (l : List (Nat × List Byte)) : List (Nat × Nat × List Byte) := (l.foldl packSlice []).reverse

/-- The slices that completed leave for the parent, and the switch moves to the next round once all have (R252, R261). -/
def sendSlices (s : State) (rid : Nat) (done : List Nat) : State :=
  match groupOf s rid with
  | none => s
  | some g =>
    let cls := classOf g.a
    let recs (i : Nat) : List Byte := (tgetD g.slices i {}).elems.flatMap (elemRecord cls)
    let engines := sortAsc (done.map (engineOf rid))
    let s := engines.foldl (fun st e =>
      (packSlices ((sortAsc (done.filter fun i => engineOf rid i = e)).map fun i => (i, recs i))).foldl
        (fun st x => bump (sendPartial st (.partialUp rid) g.a g.a.parent 0 g.round (32 * x.1) x.2.1 g.abseq x.2.2)
          (cCARRY_PARTIAL_SENT (e / 24))) st) s
    let slices := g.slices.map fun e => if e.1 ∈ done then (e.1, { e.2 with left := true }) else e
    if (slices.filter fun e => e.2.left).length = sliceCount g.a then
      setGroup s rid { g with round := (g.round + 1) % 65536, abseq := 0, slices := [], first := none }
    else setGroup s rid { g with slices := slices }

/-- A packet to a group's result place (R263). -/
def sendResult (s : State) (purpose : Purpose) (a : OpenReductionArgs) (tc op oparg addr : Nat) (d : List Byte) : State :=
  sendOwn s purpose { tc := tc, op := op, flags := 2 ^ fPOSTED, dst := if a.dmode = 0 then a.dnode else a.dgroup, job := a.job,
                      oparg := oparg, addr := addr, cap := if a.dmode = 0 then a.dcap else 0, payload := d }

/-- The mask of the 128-byte lines that poisoned elements of `w` bytes lie in. -/
def poisonMask (w : Nat) (l : List (Option (List Byte))) : Nat :=
  (List.range l.length).foldl (fun m i => match l[i]? with
    | some none => m ||| 2 ^ (i * w / 128)
    | _ => m) 0

/-- The result elements of a slice at the root. -/
def sliceResults (a : OpenReductionArgs) (i : Nat) (x : Slice) : List (Option (List Byte)) :=
  match classOf a with
  | .fp64 =>
    if x.lostReceipt then List.replicate (sliceElems a i) none
    else (List.range (sliceElems a i)).map fun e =>
      let vs := (List.range a.ntotal).map fun r => match tgetD x.ranks r none with
        | some l => some (l.getD e 0)
        | none => none
      if (x.elems.getD e {}).psn then none else some (le 8 (fp64Result (a.rmode = 1) vs))
  | _ => x.elems.map (resultElem a.cop a.fmt a.rfmt (a.rmode = 1) (a.sat = 1))

/-- The root sends a stripe's results (R263). -/
def sendStripe (s : State) (rid t : Nat) : State :=
  match groupOf s rid with
  | none => s
  | some g =>
    let w := resultBytes g.a.cop g.a.rfmt
    let is := (List.range 8).map (8 * t + ·) |>.filter (· < sliceCount g.a)
    let els := is.flatMap fun i => sliceResults g.a i (tgetD g.slices i {})
    let d := els.flatMap fun e => e.getD (zeros w)
    let bad := (els.filter (·.isNone)).length
    let slices := g.slices.map fun e => if e.1 ∈ is then (e.1, { e.2 with left := true }) else e
    let s := setGroup s rid { g with slices := slices, outstanding := g.outstanding + 1, psnElems := g.psnElems + bad
                                     sentAll := (slices.filter fun e => e.2.left).length = sliceCount g.a }
    let s := bumpBy s (cCARRY_RESULT_BYTES (engineOf rid (8 * t) / 24)) d.length
    sendResult s (.resultWrite rid g.round g.abseq) g.a g.a.dtc opREDUCE_WRITE (poisonMask w els) (g.a.resBase + 256 * t * w) d

/-- A slice of a round is complete (R251, R269). -/
def sliceDone (s : State) (a : OpenReductionArgs) (x : Slice) : Bool :=
  x.lostReceipt || decide ((if classOf a = .fp64 && isRoot s a then a.ntotal else a.inputs.length) ≤ x.got.length)

/-- The stripes that are complete and have not left. -/
def readyStripes (s : State) (g : Group) (touched : List Nat) : List Nat :=
  (sortAsc (touched.map (· / 8))).filter fun t =>
    ((List.range 8).map (8 * t + ·) |>.filter (· < sliceCount g.a)).all fun i => match tget g.slices i with
      | some x => sliceDone s g.a x && !x.left
      | none => false

/-- What completed slices set off: partials to the parent, or results at the root, where a round being aborted starts again only once its abort is
recorded (R266 step 4; log entry 42). -/
def advanceRound (s : State) (rid : Nat) (touched : List Nat) : State :=
  match groupOf s rid with
  | none => s
  | some g =>
    if isRoot s g.a && g.abtWait ≠ [] then s
    else if isRoot s g.a then (readyStripes s g touched).foldl (fun st t => sendStripe st rid t) s
    else
      let done := touched.filter fun i => match tget g.slices i with
        | some x => sliceDone s g.a x && !x.left
        | none => false
      if done = [] then s else sendSlices s rid done

/-! ### Taking inputs in (R251) -/

/-- One covered slice of an input is accumulated, or absorbed when its receipt is set (R251, R269); its engine handshakes once for 128 bytes (R49). -/
def takeSlice (s : State) (rid idx : Nat) (c : Nat × SliceIn) : State :=
  match groupOf s rid with
  | none => s
  | some g =>
    let (i, d) := c
    let n := sliceElems g.a i
    let x := tgetD g.slices i { elems := freshElems (classOf g.a) n }
    if idx ∈ x.got || x.lostReceipt then bump s (cCARRY_DUP (sliceQuarter rid i))
    else
      let s := handshake s .carry (engineOf rid i) (ceilDiv (contribBytes g.a.cop g.a.fmt n) 128) false
      let x := { x with got := x.got ++ [idx] }
      let x := match d with
        | .skip => if classOf g.a = .fp64 then { x with ranks := tset x.ranks idx none } else x
        | .contrib rank b =>
          if classOf g.a = .fp64 then { x with ranks := tset x.ranks idx (some ((List.range n).map fun e => field b (8 * e) 8)) }
          else { x with elems := addContribution g.a.cop g.a.fmt rank x.elems b }
        | .recs l => { x with elems := List.zipWith (mergeElem g.a.cop g.a.fmt) x.elems l }
      setGroup s rid { g with slices := tset g.slices i x, first := some (g.first.getD s.now) }

/-- An accepted input's slices taken in, and what they complete. -/
def takeIn (s : State) (rid idx : Nat) (l : List (Nat × SliceIn)) : State :=
  advanceRound (l.foldl (fun st c => takeSlice st rid idx c) s) rid (l.map (·.1))

/-- Check 4 of R250: the code of a later round, or that the round has ended. -/
inductive RoundCheck where
  | now | later | over
  deriving DecidableEq, Repr

/-- A packet's round against the group's. -/
def roundCheck (g : Group) (round : Nat) : RoundCheck :=
  let d := gap 16 round g.round
  if d = 0 then .now else if d < 32768 then .later else .over

/-- A packet of an ended round is acknowledged, discarded and counted. -/
def staleInput (s : State) (q : Nat) (p : Packet) : State := bump (ackPacket s q p) (cCARRY_STALE (quarterOf q))

/-- Flags and CAP of a REDUCE or PARTIAL that check 1 of R250 asks for (R248, R260). -/
def carryHeader (p : Packet) (ext : Bool) : Bool :=
  let want := 2 ^ fPOSTED + (if ext then 2 ^ fEXT else 0)
  decide (p.flags = want ∨ p.flags = want + 2 ^ fRETX) && decide (p.cap = 0)

/-! ### Inputs held back while a spare takes up an engine (R268) -/

/-- An engine whose switch-in runs. -/
def engineAway (s : State) (e : Nat) : Bool :=
  match (tgetD s.spares.switching (e / 24) []).head? with
  | some w => w.kind = .carry && w.index = e
  | none => false

/-- One of some engines is away. -/
def enginesAway (s : State) (l : List Nat) : Bool := l.any (engineAway s)

/-- An input to an engine being switched in waits, and its credits with it (R41, R268). -/
def holdInput (s : State) (r : Req) : State := { s with carry := { s.carry with held := s.carry.held ++ [r] } }

/-- The engine of an attention group's root (R361). -/
def attnEngine (rid : Nat) : Nat := 24 * (rid % 4) + rid / 4 % 24

/-! ### REDUCE (R248 to R250, R259) -/

/-- Fields of a REDUCE. -/
def rdCop (p : Packet) : Nat := bits p.oparg 3 0
def rdFmt (p : Packet) : Nat := bits p.oparg 8 4
def rdSkip (p : Packet) : Bool := bit p.oparg 9
def rdSkipN (p : Packet) : Nat := bits p.oparg 15 10
def rdRound (p : Packet) : Nat := bits p.oparg 31 16
def rdRid (p : Packet) : Nat := bits p.addr 19 0
def rdRank (p : Packet) : Nat := bits p.addr 35 20
def rdElem (p : Packet) : Nat := bits p.addr 58 36

/-- Check 1 of R250. -/
def reduceMalformed (p : Packet) : Bool :=
  !carryHeader p false || decide (2 ^ 59 ≤ p.addr)
    || (if rdSkip p then decide (lenOf p ≠ 0) else !wholeSlices (rdCop p) (rdFmt p) (lenOf p))

/-- The slices a REDUCE covers in a group (check 3 of R250). -/
def reduceCover (a : OpenReductionArgs) (p : Packet) : Option (List (Nat × SliceIn)) :=
  let s0 := rdElem p / 32
  if rdElem p % 32 ≠ 0 then none
  else if rdSkip p then
    if 1 < a.cop ∨ sliceCount a ≤ s0 + rdSkipN p then none
    else some ((List.range (rdSkipN p + 1)).map fun i => (s0 + i, .skip))
  else coverFrom a (rdRank p) (lenOf p) s0 p.payload

/-- A contribution or partial forwarded to the parent unchanged, with a new SRC and MSG (R259, R360). -/
def forwardUp (s : State) (a : OpenReductionArgs) (p : Packet) : State :=
  sendOwn s (.partialUp a.rid) { p with dst := a.parent, src := 0, msg := 0, flags := p.flags - (p.flags &&& 2 ^ fRETX), rsv := 0, status := 0 }

/-- A REDUCE at a switch of its group (R250, R251, R259). -/
def serveReduce (s : State) (r : Req) : State :=
  let p := r.pkt
  let q := r.lport
  if reduceMalformed p then refuse s q p kMALFORMED 0 0
  else match groupOf s (rdRid p) with
    | none => refuse s q p kREDUCTION_UNKNOWN 0 0
    | some g =>
      if p.job ≠ g.a.job then refuse s q p kREDUCTION_UNKNOWN 0 0
      else if rdCop p ≠ g.a.cop ∨ rdFmt p ≠ g.a.fmt then refuse s q p kREDUCTION_MISMATCH 0 0
      else if classOf g.a = .attn then refuse s q p kREDUCTION_MISMATCH 0 0
      else match contribIndex s g.a p.src (rdRank p), reduceCover g.a p with
        | some idx, some l =>
          if forwardsOnly s g.a then
            forwardUp (bump (ackPacket s q p) (cCARRY_CONTRIB (quarterOf q))) g.a p
          else match roundCheck g (rdRound p) with
            | .later => refuse s q p kSTAGING_FULL 0 20
            | .over => staleInput s q p
            | .now =>
              if enginesAway s (l.map fun x => engineOf (rdRid p) x.1) then holdInput s r
              else takeIn (bump (ackPacket s q p) (cCARRY_CONTRIB (quarterOf q))) (rdRid p) idx l
        | _, _ => refuse s q p kREDUCTION_MISMATCH 0 0

/-! ### The results of an attention group (R362, R363) -/

/-- One result of an attention group: its bytes up to QSTR, or none when it is poison (R362, R363). -/
def attnResult (a : OpenReductionArgs) (attn : Table (Nat × Nat) (List Byte)) (q : Nat) : Option (List Byte) :=
  let st := (List.range a.ntotal).foldl (fun st b =>
    let d := tgetD attn (b, q) []
    mergeBlock st d (d = [])) ({ o := List.replicate a.length 0 } : Merge)
  mergeResult a.rfmt (a.rmode = 1) st

/-- QSTR of R363. -/
def qstr (a : OpenReductionArgs) : Nat := ceilDiv (a.length * inBytes a.rfmt + 8) 128 * 128

/-- The root delivers an attention group's results once every receipt is set (R362, R363). -/
def deliverAttn (s : State) (rid : Nat) : State :=
  match groupOf s rid with
  | none => s
  | some g =>
    if g.sentAll || g.abtWait ≠ [] || decide (classOf g.a ≠ .attn ∨ g.attn.length < g.a.ntotal * g.a.qn) then s
    else
      let w := qstr g.a
      let s := setGroup s rid { g with sentAll := true, outstanding := g.a.qn }
      (List.range g.a.qn).foldl (fun st q =>
        let res := attnResult g.a g.attn q
        let st := modGroup st rid fun x => { x with psnElems := x.psnElems + (if res.isNone then g.a.length else 0) }
        let st := bumpBy st (cCARRY_RESULT_BYTES (rid % 4)) w
        sendResult st (.resultWrite rid g.round g.abseq) g.a g.a.dtc opREDUCE_WRITE (if res.isNone then 2 ^ (w / 128) - 1 else 0)
          (g.a.resBase + q * w) (padTo w (res.getD []))) s

/-! ### Aborts (R265 to R267, R578) -/

/-- The round's accumulators and receipts are cleared (R266). -/
def clearRound (s : State) (rid round abseq : Nat) : State :=
  let s := modGroup s rid fun g => { g with
    round := round, abseq := abseq, slices := [], first := none, outstanding := 0, sentAll := false, psnElems := 0
    cplSent := false, attn := [], aborts := g.aborts + 1 }
  setEvt (bump s (cCARRY_ABORTS (rid % 4))) aCARRY_CFG 10

/-- The completion record of a round (Table 9-10). -/
def sendCompletion (s : State) (a : OpenReductionArgs) (round abseq psn status : Nat) (abort : Bool) : State :=
  sendResult s (.completionRecord a.rid round abort) a 0 opSTORE (if a.dmode = 0 then 1 else 0) (a.resBase + a.cplOffset)
    (le 4 a.rid ++ le 2 round ++ le 2 status ++ le 4 (abseq % 256) ++ le 4 psn)

/-- Every child has sent ABT_DONE, or there is none: the root records the abort and its round starts again, another switch answers its parent (R266). -/
def abortDone (s : State) (rid round abseq : Nat) : State :=
  match groupOf s rid with
  | none => s
  | some g =>
    let s := setGroup s rid { g with abtWait := tdel g.abtWait (round, abseq) }
    if isRoot s g.a then
      deliverAttn (advanceRound (sendCompletion s g.a round abseq 0 kREDUCTION_ABORTED true) rid (g.slices.map (·.1))) rid
    else sendPartial s (.partialUp rid) g.a g.a.parent 3 round 0 0 abseq []

/-- ABT_DOWN goes to every child (R266). -/
def abortDown (s : State) (rid : Nat) : State :=
  match groupOf s rid with
  | none => s
  | some g =>
    let kids := children g.a
    if kids = [] then abortDone s rid g.round g.abseq
    else kids.foldl (fun st c => sendPartial st (.partialUp rid) g.a c 2 g.round 0 0 g.abseq [])
      (setGroup s rid { g with abtWait := tset g.abtWait (g.round, g.abseq) kids })

/-- The root aborts its current round (R266). -/
def abortRoot (s : State) (rid : Nat) : State :=
  match groupOf s rid with
  | none => s
  | some g => abortDown (clearRound s rid g.round ((g.abseq + 1) % 256)) rid

/-- An abort asked for at this switch: at the root done, elsewhere sent up (R265). -/
def askAbort (s : State) (purpose : Purpose) (rid : Nat) : State :=
  match groupOf s rid with
  | none => s
  | some g => if isRoot s g.a then abortRoot s rid else sendPartial s purpose g.a g.a.parent 1 g.round 0 0 g.abseq []

/-- Pairs of rounds that can still be heard of: the group's round and the one before. -/
def recentPairs (round : Nat) (l : List (Nat × Nat)) : List (Nat × Nat) :=
  l.filter fun x => x.1 = round || (x.1 + 1) % 65536 = round

/-- An ABT_UP (R266, R578). -/
def takeAbtUp (s : State) (rid round abseq : Nat) : State :=
  match groupOf s rid with
  | none => s
  | some g =>
    if isRoot s g.a then (if g.round = round ∧ g.abseq = abseq then abortRoot s rid else s)
    else if (round, abseq) ∈ g.upSeen then s
    else sendPartial (setGroup s rid { g with upSeen := (round, abseq) :: recentPairs g.round g.upSeen }) (.partialUp rid) g.a g.a.parent
      1 round 0 0 abseq []

/-- An ABT_DOWN (R266): once for each round and sequence, of this round or of the one before; a switch that keeps no round takes any. -/
def takeAbtDown (s : State) (rid round abseq : Nat) : State :=
  match groupOf s rid with
  | none => s
  | some g =>
    if (round, abseq) ∈ g.handled then s
    else if !forwardsOnly s g.a && !(g.round = round || (round + 1) % 65536 = g.round) then s
    else
      let s := setGroup s rid { g with handled := (round, abseq) :: recentPairs round g.handled }
      abortDown (clearRound s rid round abseq) rid

/-- An ABT_DONE of a child (R266), also when this switch has moved on since it cleared the round. -/
def takeAbtDone (s : State) (rid src round abseq : Nat) : State :=
  match groupOf s rid with
  | none => s
  | some g =>
    match tget g.abtWait (round, abseq) with
    | some l =>
      let l := l.filter (· ≠ src)
      let s := setGroup s rid { g with abtWait := tset g.abtWait (round, abseq) l }
      if l = [] then abortDone s rid round abseq else s
    | none => s

/-! ### PARTIAL (R260 to R262) -/

/-- Fields of a carry partial's extension (Table 9-8). -/
def pxRid (p : Packet) : Nat := field p.ext 1 3 % 2 ^ 20
def pxKind (p : Packet) : Nat := field p.ext 1 3 / 2 ^ 20
def pxRound (p : Packet) : Nat := field p.ext 4 2
def pxElem (p : Packet) : Nat := field p.ext 6 3
def pxSlices (p : Packet) : Nat := field p.ext 9 1
def pxAbseq (p : Packet) : Nat := field p.ext 10 1

/-- Check 1 of R260. -/
def partialMalformed (p : Packet) : Bool :=
  !carryHeader p true || decide (p.addr ≠ 0 ∨ 2 ^ 9 ≤ p.oparg ∨ field p.ext 0 1 ≠ 1 ∨ p.ext.length ≠ 16 ∨ 3 < pxKind p ∨ 2 ^ 23 ≤ pxElem p)
    || decide (field p.ext 11 5 ≠ 0)
    || (if pxKind p = 0 then decide (pxSlices p = 0 ∨ lenOf p = 0) else decide (pxElem p ≠ 0 ∨ pxSlices p ≠ 0 ∨ lenOf p ≠ 0))

/-- The records of a DATA partial, slice by slice, with nothing left over (R260, R262). -/
def readSlices (a : OpenReductionArgs) : Nat → Nat → List Byte → Option (List (Nat × SliceIn))
  | 0, _, d => if d = [] then some [] else none
  | n + 1, i, d =>
    match readRecords (classOf a) (sliceElems a i) d with
    | some (l, rest) => (readSlices a n (i + 1) rest).map fun t => (i, .recs l) :: t
    | none => none

/-- A carry partial at a switch of its group (R260). -/
def servePartial (s : State) (r : Req) : State :=
  let p := r.pkt
  let q := r.lport
  if partialMalformed p then refuse s q p kMALFORMED 0 0
  else match groupOf s (pxRid p) with
    | none => refuse s q p kREDUCTION_UNKNOWN 0 0
    | some g =>
      if p.job ≠ g.a.job then refuse s q p kREDUCTION_UNKNOWN 0 0
      else if p.oparg ≠ g.a.cop + g.a.fmt * 16 then refuse s q p kREDUCTION_MISMATCH 0 0
      else if pxKind p = 2 then
        if isRoot s g.a || decide (p.src ≠ g.a.parent) then refuse s q p kREDUCTION_MISMATCH 0 0
        else takeAbtDown (ackPacket s q p) (pxRid p) (pxRound p) (pxAbseq p)
      else match inputIndex g.a 1 p.src 0 with
        | none => refuse s q p kREDUCTION_MISMATCH 0 0
        | some idx =>
          if pxKind p = 1 then takeAbtUp (ackPacket s q p) (pxRid p) (pxRound p) (pxAbseq p)
          else if pxKind p = 3 then takeAbtDone (ackPacket s q p) (pxRid p) p.src (pxRound p) (pxAbseq p)
          else if classOf g.a = .fp64 ∨ classOf g.a = .attn ∨ pxElem p % 32 ≠ 0 ∨ sliceCount g.a < pxElem p / 32 + pxSlices p then
            refuse s q p kREDUCTION_MISMATCH 0 0
          else match roundCheck g (pxRound p) with
            | .later => refuse s q p kSTAGING_FULL 0 20
            | .over => staleInput s q p
            | .now =>
              match readSlices g.a (pxSlices p) (pxElem p / 32) p.payload with
              | none => refuse s q p kMALFORMED 0 0
              | some l =>
                if enginesAway s (l.map fun x => engineOf (pxRid p) x.1) then holdInput s r
                else takeIn (bump (ackPacket s q p) (cCARRY_CONTRIB (quarterOf q))) (pxRid p) idx l

/-! ### Attention partials (R358 to R363) -/

/-- Fields of a bead partial's extension (Table 12-7). -/
def bxRound (p : Packet) : Nat := field p.ext 4 2
def bxBidx (p : Packet) : Nat := field p.ext 6 2
def bxQbase (p : Packet) : Nat := field p.ext 8 1 % 4
def bxQn (p : Packet) : Nat := bits (field p.ext 8 1) 3 2 + 1
def bxDhc (p : Packet) : Nat := bits (field p.ext 8 1) 5 4
def bxPsn (p : Packet) : Nat := field p.ext 9 1 % 16

/-- DH of a DHC code. -/
def dhOf (dhc : Nat) : Nat := 64 * 2 ^ dhc

/-- Check 1 of R360. -/
def beadPartialMalformed (p : Packet) : Bool :=
  !carryHeader p true || decide (p.addr ≠ 0 ∨ 2 ^ 9 ≤ p.oparg ∨ p.ext.length ≠ 16 ∨ field p.ext 0 1 ≠ 2)
    || decide (16 ≤ field p.ext 3 1 ∨ 64 ≤ field p.ext 8 1 ∨ 16 ≤ field p.ext 9 1 ∨ field p.ext 10 6 ≠ 0 ∨ lenOf p = 0)

/-- The queries of a bead partial with their bytes, empty for a poisoned one. -/
def partialQueries (p : Packet) : List (Nat × List Byte) :=
  let w := 8 + 4 * dhOf (bxDhc p)
  (List.range (bxQn p)).map fun i => (bxQbase p + i, if bit (bxPsn p) i then [] else (p.payload.drop (w * i)).take w)

/-- A bead partial at a switch of its group (R360). -/
def serveBeadPartial (s : State) (r : Req) : State :=
  let p := r.pkt
  let q := r.lport
  if beadPartialMalformed p then refuse s q p kMALFORMED 0 0
  else match groupOf s (pxRid p) with
    | none => refuse s q p kREDUCTION_UNKNOWN 0 0
    | some g =>
      if p.job ≠ g.a.job then refuse s q p kREDUCTION_UNKNOWN 0 0
      else if classOf g.a ≠ .attn ∨ p.oparg ≠ 10 + 10 * 16 ∨ (g.a.inputs.find? fun x => x.node = p.src).isNone ∨ g.a.ntotal ≤ bxBidx p
          ∨ g.a.qn < bxQbase p + bxQn p ∨ dhOf (bxDhc p) ≠ g.a.length ∨ lenOf p ≠ bxQn p * (8 + 4 * dhOf (bxDhc p)) then
        refuse s q p kREDUCTION_MISMATCH 0 0
      else if forwardsOnly s g.a then forwardUp (bump (ackPacket s q p) (cCARRY_CONTRIB (quarterOf q))) g.a p
      else match roundCheck g (bxRound p) with
        | .later => refuse s q p kSTAGING_FULL 0 20
        | .over => staleInput s q p
        | .now =>
          if enginesAway s [attnEngine (pxRid p)] then holdInput s r else
          let s := bump (ackPacket s q p) (cCARRY_CONTRIB (quarterOf q))
          let s := (partialQueries p).foldl (fun st x =>
            match groupOf st (pxRid p) with
            | none => st
            | some g =>
              if thas g.attn (bxBidx p, x.1) then bump st (cCARRY_DUP (pxRid p % 4))
              else setGroup st (pxRid p) { g with attn := tset g.attn (bxBidx p, x.1) x.2, first := some (g.first.getD st.now) }) s
          deliverAttn s (pxRid p)

/-- A REDUCE or PARTIAL at this switch, by its kind. -/
def serveCarry (s : State) (r : Req) : State :=
  if r.pkt.op = opREDUCE then serveReduce s r
  else if r.pkt.ext.length = 16 ∧ field r.pkt.ext 0 1 = 2 then serveBeadPartial s r
  else servePartial s r

/-- The engines that an input goes to. -/
def inputEngines (s : State) (p : Packet) : List Nat :=
  let rid := if p.op = opREDUCE then rdRid p else pxRid p
  match groupOf s rid with
  | none => []
  | some g =>
    if classOf g.a = .attn then [attnEngine rid]
    else if p.op = opREDUCE then ((reduceCover g.a p).getD []).map fun x => engineOf rid x.1
    else (List.range (pxSlices p)).map fun i => engineOf rid (pxElem p / 32 + i)

/-- The copies of a packet that are held back (R268). -/
def heldCopies (s : State) (q : Nat) (p : Packet) : Nat := (s.carry.held.filter fun r => r.lport = q && r.pkt = p).length

/-- A held input is taken in, and its credits return, but after its port went DOWN (R66, R77, R268). -/
def enterHeld (s : State) (r : Req) : State :=
  let s := serveCarry s r
  if lossless r.pkt.tc && decide ((lport s r.lport).since ≤ r.at_) then returnCredits s r.lport r.pkt.tc (cellsOf r.pkt) else s

/-- The held inputs whose engines serve again are taken in, in order of arrival (R268). -/
def releaseHeld (s : State) : State :=
  let stay (r : Req) : Bool := enginesAway s (inputEngines s r.pkt)
  (s.carry.held.filter fun r => !stay r).foldl enterHeld { s with carry := { s.carry with held := s.carry.held.filter stay } }

/-! ### Delivery done (R252, R264) -/

/-- A result packet or the completion record of a round was refused or abandoned: one event record for the round, whether it goes on, was aborted or its group is closed (R264). -/
def deliveryFailed (s : State) (rid round : Nat) : State :=
  let l := tgetD s.carry.failed rid []
  let s := setEvt s aCARRY_CFG 12
  if round ∈ l then s
  else event { s with carry := { s.carry with failed := tset s.carry.failed rid (round :: l.filter fun r => (r + 1) % 65536 = round) } }
    eDELIVERY_FAILED sevINFO 15 0 rid round

/-- A result packet of a round has completed, or was refused or abandoned. -/
def resultDone (s : State) (rid round abseq : Nat) (ok : Bool) : State :=
  modGroup (if ok then s else deliveryFailed s rid round) rid fun g =>
    if g.round = round ∧ g.abseq = abseq then { g with outstanding := g.outstanding - 1 } else g

/-- The completion record of a round has completed: the round ends (R252, R264). -/
def recordDone (s : State) (rid round : Nat) (abort ok : Bool) : State :=
  let s := if ok then s else deliveryFailed s rid round
  match groupOf s rid with
  | none => s
  | some g =>
    if abort || g.round ≠ round || !g.cplSent then s
    else setGroup s rid { g with round := (round + 1) % 65536, abseq := 0, slices := [], first := none, outstanding := 0
                                 sentAll := false, psnElems := 0, cplSent := false, attn := [] }

/-- The round's results have all completed and its record is due (R264). -/
def recordDue (g : Group) : Bool := g.sentAll && g.outstanding = 0 && !g.cplSent

/-- The completion record of a finished round leaves (R264). -/
def finishRound (s : State) (rid : Nat) : State :=
  match groupOf s rid with
  | none => s
  | some g =>
    if recordDue g then
      sendCompletion (setGroup s rid { g with cplSent := true }) g.a g.round g.abseq g.psnElems (if g.psnElems = 0 then kSUCCESS else kPOISONED_DATA) false
    else s

/-- The round at the root has run out of time (R265). -/
def roundOverdue (s : State) (g : Group) : Bool :=
  isRoot s g.a && !g.sentAll && (match g.first with
    | some t => due s t (ms g.a.roundTimeout)
    | none => false)

end Sys2Proof.Machine
end

