-- ==== Sys2Proof/Machine/Engine.lean ====
section
/-! DEFINITION. What the engines of a home share: sieve engines, movers and beads work unit by unit, and a unit reads and writes lines of the home as any other access does. -/

namespace Sys2Proof.Machine

/-- What an engine's work comes to: a value, no progress for now (`hint` when a channel computes, R319), an absent page, or a stop with, where it is not the count of units done, its place. -/
inductive Eng (α : Type) where
  | ok (a : α) (s : State)
  | hold (s : State)
  | absent (job page psize : Nat) (win : Option Nat) (wr : Bool) (s : State)
  | stop (code : Nat) (at_ : Option Nat) (s : State)

/-- Work that follows on the value of other work. -/
def Eng.andThen {α β : Type} (x : Eng α) (f : α → State → Eng β) : Eng β :=
  match x with
  | .ok a s => f a s
  | .hold s => .hold s
  | .absent j g z i w s => .absent j g z i w s
  | .stop c d s => .stop c d s

/-- Where an engine's accesses stand: the engine and its unit, the quarter whose translation cache serves it, the job it acts for, its order among requests (0 for none). -/
structure EngAt where
  who : Nat × Nat × Nat
  quarter : Nat
  job : Nat
  order : Nat := 0
  deriving DecidableEq, Repr

/-- The engines by kind, in `who`. -/
def engSIEVE : Nat := 0
def engMOVER : Nat := 1
def engBEAD : Nat := 2

/-- An access of the unit in hand is noted. -/
def noteLook (s : State) (x : Look) : State := { s with pool := { s.pool with looks := s.pool.looks ++ [x] } }

/-- A unit is done, or given up: its lookups are forgotten, and its accesses leave their windows (R176, R333). -/
def endUnit (s : State) (who : Nat × Nat × Nat) : State :=
  let s := ((s.pool.looks.filter fun x => x.who = who && x.cap ≠ 0).map fun x => capIndex x.cap).foldl
    (fun st i => modWindow st i fun w => { w with inflight := w.inflight - 1 }) s
  { s with pool := { s.pool with looks := s.pool.looks.filter fun x => x.who ≠ who } }

/-- An operand's place: the job whose table translates it, the address of its first byte, its window. -/
structure Spot where
  job : Nat
  va : Nat
  win : Option Nat := none
  deriving DecidableEq, Repr

/-- The place of an address with a capability, or none (R165). -/
def placeAt (s : State) (job cap addr : Nat) : Spot :=
  if cap = 0 then { job := job, va := addr }
  else
    let i := capIndex cap
    { job := (windowAt s i).ownerJob, va := (windowAt s i).base + addr, win := some i }

/-- An engine's access to bytes: translation, looked up once for a unit (R134), all of `rights`, and the holds on its lines. Memory of another home has no address here (R271). -/
def engReach (s : State) (e : EngAt) (x : Spot) (off len : Nat) (right : Nat) (also : List Nat) (wr : Bool) : Eng (List Piece) :=
  let k : Look := { who := e.who, job := x.job, cap := 0, addr := x.va + off, len := len }
  let known := decide (k ∈ s.pool.looks)
  match reach (if known then s else noteLook s k) e.quarter x.job e.job right (x.va + off) len (if known then x.va + off + len else 0) with
  | (.fail c _, s) => .stop (if c = kREROUTE then kADDRESS_INVALID else c) none s
  | (.absent page psize, s) => .absent x.job page psize x.win wr s
  | (.ok l, s) =>
    if l.any fun p => elsewhere s (leafNode p.leaf) then .stop kADDRESS_INVALID none s
    else if l.any fun p => also.any fun r => !bit (leafRights p.leaf) r then .stop kACCESS_DENIED none s
    else match linesHold s e.order wr (partsOf l 0) with
      | (none, s) => .ok l s
      | (some (.snoop h tgt share), s) => .hold (startSnoops s h tgt share false (.backInval none))
      | (some _, s) => .hold s

/-- What an engine reads: the bytes, and the runs of them that are poison, as place, length and code. -/
structure Read where
  d : List Byte
  bad : List (Nat × Nat × Nat) := []
  deriving DecidableEq, Repr

/-- The code of the first poisoned run. -/
def Read.code (x : Read) : Option Nat := x.bad.head?.map (·.2.2)

/-- Whether some of the bytes from a place on are poison. -/
def Read.badIn (x : Read) (off len : Nat) : Bool := x.bad.any fun b => decide (b.1 < off + len) && decide (off < b.1 + b.2.1)

/-- The bytes of an access that is ready. -/
def readPieces (s : State) (l : List Piece) : Read × State :=
  let ps := partsOf l 0
  ({ d := ps.flatMap (partBytes s), bad := ps.filterMap fun x => (partBad s x).map fun e => (x.pos, x.len, e.1) }, countRead s true ps)

/-- An engine reads bytes. -/
def engFetch (s : State) (e : EngAt) (x : Spot) (off len right : Nat) : Eng Read :=
  (engReach s e x off len right [] false).andThen fun l s => .ok (readPieces s l).1 (readPieces s l).2

/-- A part's line has lost its backing: what is written to it is kept nowhere (R234). -/
def partDead (s : State) (x : Part) : Bool := lineGone s x.line && (lostBy s x.line).isNone

/-- Bytes written over an access that is ready, as poison over every line they touch where they are poison, with CLRPSN, keeping the check of LINE_CRC pages (R127). -/
def writePieces (s : State) (job : Nat) (l : List Piece) (d : List Byte) (clr poison : Bool) : State :=
  let s := expandAll s job l
  let ps := partsOf l 0
  writeParts s (ps.filter fun x => !partDead s x) d clr (if poison then ps.flatMap payloadLines else []) true

end Sys2Proof.Machine
end

