-- ==== Sys2Proof/Machine/BeadMath.lean ====
section
/-! DEFINITION. Bead commands as data: the header of Table 12-4 and its checks, the list entries of Table 12-6, and the arithmetic of R352 to R357. -/

namespace Sys2Proof.Machine

/-! ### The header (Table 12-4) -/

def bhWord (p : Packet) (off : Nat) : Nat := field p.payload off 4
def bhBop (p : Packet) : Nat := bits (bhWord p 0) 3 0
def bhNewMode (p : Packet) : Nat := bits (bhWord p 0) 5 4
def bhDhc (p : Packet) : Nat := bits (bhWord p 0) 7 6
def bhQn (p : Packet) : Nat := bits (bhWord p 0) 9 8 + 1
def bhQfmt (p : Packet) : Nat := bits (bhWord p 0) 13 10
def bhKfmt (p : Packet) : Nat := bits (bhWord p 0) 17 14
def bhVfmt (p : Packet) : Nat := bits (bhWord p 0) 21 18
def bhCausal (p : Packet) : Bool := bit (bhWord p 0) 22
def bhScale (p : Packet) : Nat := bhWord p 4
def bhSrcA (p : Packet) : Nat := field p.payload 0x08 8
def bhSrcB (p : Packet) : Nat := field p.payload 0x10 8
def bhN (p : Packet) : Nat := field p.payload 0x18 2
def bhL (p : Packet) : Nat := field p.payload 0x1A 2
def bhRid (p : Packet) : Nat := bhWord p 0x1C
def bhRound (p : Packet) : Nat := bits (bhWord p 0x20) 15 0
def bhQbase (p : Packet) : Nat := bits (bhWord p 0x20) 17 16
def bhQpos (p : Packet) (q : Nat) : Nat := bhWord p (0x24 + 4 * q)
def bhCpl (p : Packet) : Nat := field p.payload 0x38 8

/-- The operations of BOP. -/
def bopMODE : Nat := 0
def bopATTN : Nat := 1
def bopDOT : Nat := 2
def bopAXPY : Nat := 3
def bopSCAN : Nat := 4

/-- A format of bead elements: BF16, E4M3 or E5M2. -/
def beadFmt (f : Nat) : Bool := f ∈ [9, 12, 13]

/-- VL: the elements of a query vector (R345). -/
def bhVl (p : Packet) : Nat := if bhBop p = bopATTN then dhOf (bhDhc p) else if bhBop p = bopDOT then bhL p else 0

/-- A field that a command does not use is zero, one that it uses is in range. -/
def used (b : Bool) (ok : Bool) (v : Nat) : Bool := if b then ok else decide (v = 0)

/-- Check 1 of R346. -/
def beadMalformed (p : Packet) : Bool :=
  let w := bhWord p 0
  let op := bhBop p
  let attn := decide (op = bopATTN)
  let mode := decide (op = bopMODE)
  let dot := decide (op = bopDOT)
  let axpy := decide (op = bopAXPY)
  !(decide (op ≤ 4 ∧ w < 2 ^ 23 ∧ p.pcnt = 0 ∧ p.tc = 0 ∧ p.cap = 0)
    && used mode (decide (bhNewMode p ≤ 2)) (bhNewMode p)
    && used attn (decide (bhDhc p ≤ 2)) (bhDhc p)
    && used (attn || dot) true (bhQn p - 1)
    && used (attn || dot) (beadFmt (bhQfmt p)) (bhQfmt p)
    && used (!mode) (beadFmt (bhKfmt p)) (bhKfmt p)
    && used (attn || axpy) (if attn then beadFmt (bhVfmt p) else decide (bhVfmt p = 9 ∨ bhVfmt p = 10)) (bhVfmt p)
    && used attn true (flag (bhCausal p))
    && used (attn || axpy) true (bhScale p)
    && used (!mode) (decide (bhSrcA p < 2 ^ 48)) (bhSrcA p)
    && used (!mode && !attn) (decide (bhSrcB p < 2 ^ 48)) (bhSrcB p)
    && used (!mode) (if attn then decide (1 ≤ bhN p ∧ bhN p ≤ 4096) else true) (bhN p)
    && used dot (decide (32 ≤ bhL p ∧ bhL p ≤ 4096 ∧ bhL p % 32 = 0)) (bhL p)
    && used attn (decide (bhRid p < 2 ^ 20)) (bhRid p)
    && used attn (decide (bhWord p 0x20 < 2 ^ 18)) (bhWord p 0x20)
    && (List.range 4).all (fun q => used (attn && decide (q < bhQn p)) (decide (bhQpos p q < 2 ^ 24)) (bhQpos p q))
    && decide (bhWord p 0x34 = 0 ∧ bhCpl p < 2 ^ 48)
    && decide (lenOf p = 64 + bhQn p * bhVl p * inBytes (bhQfmt p) ∧ lenOf p ≤ 4096))

/-- An operand: its address and length, its alignment, the rights it needs, and whether a bead touches it. -/
structure BeadOp where
  va : Nat
  len : Nat
  align : Nat
  rd : Bool
  wr : Bool
  bead : Bool
  deriving DecidableEq, Repr

/-- The operands of a command (R347). -/
def beadOps (p : Packet) : List BeadOp :=
  let n := bhN p
  let k := inBytes (bhKfmt p)
  let own :=
    if bhBop p = bopATTN then [{ va := bhSrcA p, len := 32 * n, align := 1, rd := true, wr := false, bead := false }]
    else if bhBop p = bopDOT then
      [{ va := bhSrcA p, len := n * bhL p * k, align := 128, rd := true, wr := false, bead := true },
       { va := bhSrcB p, len := n * bhQn p * 4, align := 128, rd := false, wr := true, bead := true }]
    else if bhBop p = bopAXPY then
      [{ va := bhSrcA p, len := n * k, align := 128, rd := true, wr := false, bead := true },
       { va := bhSrcB p, len := n * inBytes (bhVfmt p), align := 128, rd := true, wr := true, bead := true }]
    else if bhBop p = bopSCAN then
      [{ va := bhSrcA p, len := n * k, align := 128, rd := true, wr := false, bead := true },
       { va := bhSrcB p, len := n * 4, align := 128, rd := false, wr := true, bead := true }]
    else []
  if bhCpl p = 0 then own else own ++ [{ va := bhCpl p, len := 16, align := 16, rd := false, wr := true, bead := false }]

/-! ### List entries (Table 12-6) -/

def beK (b : List Byte) : Nat := field b 0 8
def beV (b : List Byte) : Nat := field b 8 8
def beBidx (b : List Byte) : Nat := field b 0x10 2
def beNvalid (b : List Byte) : Nat := field b 0x12 2
def beBpos (b : List Byte) : Nat := field b 0x14 4

/-- The bytes of an entry's keys and of its values. -/
def keyBytes (p : Packet) (b : List Byte) : Nat := beNvalid b * bhVl p * inBytes (bhKfmt p)
def valueBytes (p : Packet) (b : List Byte) : Nat := beNvalid b * bhVl p * inBytes (bhVfmt p)

/-- The fields of an entry that break R354: the code. -/
def entryBad (b : List Byte) (ntotal : Nat) : Option Nat :=
  if 2 ^ 48 ≤ beK b ∨ 2 ^ 48 ≤ beV b ∨ 2 ^ 24 ≤ beBpos b ∨ field b 0x18 8 ≠ 0 ∨ beNvalid b = 0 ∨ 2 ^ 24 < beBpos b + beNvalid b
      ∨ ntotal ≤ beBidx b then some kMALFORMED
  else if beK b % 128 ≠ 0 ∨ beV b % 128 ≠ 0 then some kMISALIGNED
  else none

/-! ### Exact sums (R352) -/

/-- A zero without a sign: the rounding of the real number zero is +0. -/
def plainZero (x : Num) : Num :=
  match x with
  | .fin _ 0 e => .fin false 0 e
  | x => x

/-- A product of an infinity and a zero: the spec states no value for it. -/
def openProduct (a b : Num) : Bool :=
  match a, b with
  | .inf _, .fin _ m _ | .fin _ m _, .inf _ => decide (m = 0)
  | _, _ => false

/-- RNE32 of the exact sum gathered in an element. -/
def rneSum (f : FloatFmt) (r : Elem) : Nat :=
  if r.nan || (r.pinf && r.ninf) then canonNan f
  else if r.pinf || r.ninf then encodeInf f r.ninf
  else if r.acc = 0 then 0
  else roundFloat f false false (decide (r.acc < 0)) r.acc.natAbs (-298) false

/-- The value that the spec leaves open for some operands: a free value, the same whenever the operands are (R30, R31; log entry 3). -/
def openResult (l : List Num) : Nat := Config.openProduct (l.map (encodeNum fFP32 false false))

/-- RNE32 of an exact sum of exact products; free where an infinity meets a zero and no operand is NaN. -/
def dot32 (a b : List Num) : Nat :=
  let pairs := a.zip b
  if pairs.any (fun x => decide (x.1 = .nan ∨ x.2 = .nan)) then canonNan fFP32
  else if pairs.any (fun x => openProduct x.1 x.2) then openResult (a ++ b) % 2 ^ 32
  else rneSum fFP32 (pairs.foldl (fun r x => accumulate r (termOf (mulNum x.1 x.2))) {})

/-- a × x rounded by RNE32, both binary32. -/
def scale32 (a x : Nat) : Nat :=
  let u := decodeFloat fFP32 a
  let v := decodeFloat fFP32 x
  if openProduct u v then openResult [u, v] % 2 ^ 32 else mul32 a x

/-- AXPY of one element (R357). -/
def axpy1 (fy : FloatFmt) (a x y : Num) : Nat :=
  if openProduct a x && y ≠ .nan then openResult [a, x, y] % 2 ^ fmtWidth fy
  else encodeNum fy false false (plainZero (addNum (mulNum a x) y))

/-- The elements of bytes in a format. -/
def elemsOf (fmt : Nat) (d : List Byte) : List Num :=
  let w := inBytes fmt
  (chunks w (d.length / max 1 w) d).map fun b => decodeFloat (floatFmt fmt) (unle b)

/-! ### Attention over one block (R355) -/

/-- The partial (m, s, o) of one query over the unmasked keys' scores and their value rows. -/
def attnPartial (dh : Nat) (xs : List Nat) (vs : List (List Num)) : List Byte :=
  let nan32 := canonNan fFP32
  let bad := xs.any (fun x => decide (x / 2 ^ 23 % 256 = 255))
    || vs.any fun r => r.any fun v => match v with
      | .fin _ _ _ => false
      | _ => true
  match xs with
  | [] => le 4 0xFF800000 ++ le 4 0 ++ zeros (4 * dh)
  | x0 :: _ =>
    if bad then (List.replicate (2 + dh) (le 4 nan32)).flatten
    else
      let top := xs.foldl (fun m x => if gt32 x m then x else m) x0
      let m := if top % 2 ^ 31 = 0 then 0 else top
      let ps := xs.map fun x => exp2 (add32 x (neg32 m))
      let pn := ps.map (decodeFloat fFP32)
      let s := rneSum fFP32 (pn.foldl (fun r x => accumulate r (termOf x)) {})
      let o (e : Nat) : Nat :=
        rneSum fFP32 ((pn.zip vs).foldl (fun r x => accumulate r (termOf (mulNum x.1 (x.2.getD e (.fin false 0 0))))) {})
      le 4 m ++ le 4 s ++ (List.range dh).flatMap fun e => le 4 (o e)

/-- A key is unmasked for a query (R355). -/
def unmasked (p : Packet) (b : List Byte) (q i : Nat) : Bool := !bhCausal p || decide (beBpos b + i ≤ bhQpos p q)

/-- The query vectors of a command. -/
def queryVec (p : Packet) (q : Nat) : List Num :=
  let w := bhVl p * inBytes (bhQfmt p)
  elemsOf (bhQfmt p) ((p.payload.drop (64 + q * w)).take w)

/-- The partial of a query of an entry, from its keys and values. -/
def entryPartial (p : Packet) (b keys values : List Byte) (q : Nat) : List Byte :=
  let dh := bhVl p
  let kw := dh * inBytes (bhKfmt p)
  let vw := dh * inBytes (bhVfmt p)
  let qv := queryVec p q
  let is := (List.range (beNvalid b)).filter (unmasked p b q)
  let xs := is.map fun i =>
    scale32 (dot32 qv (elemsOf (bhKfmt p) ((keys.drop (i * kw)).take kw))) (bhScale p)
  attnPartial dh xs (is.map fun i => elemsOf (bhVfmt p) ((values.drop (i * vw)).take vw))

end Sys2Proof.Machine
end

