-- ==== Sys2Proof/Machine/Bead.lean ====
section
/-! DEFINITION. Bead channels at this module: the checks and the queue of bead commands (R345 to R348), bead units and their commit points (R342, R355 to R357), modes (R341, R343), completion (R350), and what ends commands early (R340, R367, R368). -/

namespace Sys2Proof.Machine

/-- The state with a bead channel replaced. -/
def setBead (s : State) (c : Nat) (x : BeadCh) : State := { s with bead := { s.bead with channels := tset s.bead.channels c x } }

/-- The state with a bead channel changed. -/
def modBead (s : State) (c : Nat) (f : BeadCh → BeadCh) : State := setBead s c (f (beadCh s c))

/-- A command of a channel changed, by its order. -/
def modCmd (s : State) (c order : Nat) (f : BeadCmd → BeadCmd) : State :=
  modBead s c fun x => { x with queue := x.queue.map fun b => if b.req.order = order then f b else b }

/-- The channel of a bead queue's address (R345). -/
def beadQueueOf (addr : Nat) : Option Nat :=
  if 0x600000 ≤ addr ∧ addr < 0x600000 + 0x1000 * 128 ∧ addr % 0x1000 = 0 then some ((addr - 0x600000) / 0x1000) else none

/-! ### Checks (R346, R347) -/

/-- The pages of an operand, whatever their rights; `fuel` bounds them. -/
def spanFrom (s : State) (n job : Nat) : Nat → Nat → Nat → Reach × State
  | 0, _, _ => (.ok [], s)
  | fuel + 1, va, len =>
    if len = 0 then (.ok [], s)
    else if 2 ^ 48 ≤ va then (.fail kADDRESS_INVALID 0, s)
    else match translate s n job va with
      | (.invalid, s) => (.fail kADDRESS_INVALID 0, s)
      | (.poison, s) => (.fail kADDRESS_INVALID 2, s)
      | (.leaf l e, s) =>
        if leafTier e = tierABSENT then (.absent (va / pageSize l * pageSize l) (3 - l), s)
        else
          let k := min len (pageSize l - va % pageSize l)
          let p : Piece := { va := va, pa := leafAddr l e va, len := k, level := l, leaf := e }
          match spanFrom s n job fuel (va + k) (len - k) with
          | (.ok ps, s) => (.ok (p :: ps), s)
          | r => r

/-- An operand's pages. -/
def spanOf (s : State) (n job va len : Nat) : Reach × State := spanFrom s n job (len / 65536 + 2) va len

/-- What check 3 of R346 finds over the operands: their pages, a refusal, or the first absent page. -/
inductive Spans where
  | ok (l : List (BeadOp × List Piece))
  | fail (code detail : Nat)
  | absent (page psize : Nat) (wr : Bool)

/-- Check 3 of R346 over the operands: translation, alignment, whole lines on LINE_CRC pages (R349). -/
def spansOf (s : State) (n job : Nat) : List BeadOp → Spans × State
  | [] => (.ok [], s)
  | o :: r =>
    match spanOf s n job o.va o.len with
    | (.fail c d, s) => (.fail c d, s)
    | (.absent page psize, s) =>
      if o.va % o.align ≠ 0 then (.fail kMISALIGNED 0, s)
      else match spansOf s n job r with
        | (.fail c d, s) => (.fail c d, s)
        | (_, s) => (.absent page psize o.wr, s)
    | (.ok ps, s) =>
      if o.va % o.align ≠ 0 ∨ (o.wr ∧ (o.len % 128 ≠ 0 ∨ o.va % 128 ≠ 0) ∧ ps.any fun p => leafE2e p.leaf) then (.fail kMISALIGNED 0, s)
      else match spansOf s n job r with
        | (.ok l, s) => (.ok ((o, ps) :: l), s)
        | x => x

/-- Check 4 of R346: the code of the first operand page without its rights or its key. -/
def rightsBad (s : State) (job : Nat) (l : List (BeadOp × List Piece)) : Option Nat :=
  l.findSome? fun x => x.2.findSome? fun p =>
    if (x.1.rd && !bit (leafRights p.leaf) rightRead) || (x.1.wr && !bit (leafRights p.leaf) rightWrite) then some kACCESS_DENIED
    else keyRefusal s p.leaf job false

/-- Check 5 of R346: a page that a bead writes has BEAD_WR clear. -/
def beadWrBad (l : List (BeadOp × List Piece)) : Option (Nat × Nat) :=
  l.findSome? fun x => if x.1.bead && x.1.wr then (x.2.find? fun p => !leafBeadWr p.leaf).map fun p => (x.1.va, p.pa) else none

/-- The frame of a run of bytes that lies within one frame of a channel of this module. -/
def frameIn (s : State) (c pa len : Nat) : Option Nat :=
  if nodeOf pa = myNode s ∧ frameChannel s (offOf pa / 65536) = some c ∧ offOf pa % 65536 + len ≤ 65536 then some (offOf pa / 65536) else none

/-- The bead of a frame (R337). -/
def pairOf (frame : Nat) : Nat := frame % 16

/-- A page is homed at this module: its own, or a tray's whose pages it has not given up. -/
def homedHere (s : State) (p : Piece) : Bool := leafNode p.leaf = myNode s || !gaveUp s (leafNode p.leaf)

/-- The runs of an operand joined: its first address and length when they are contiguous. -/
def joined : List Piece → Option (Nat × Nat)
  | [] => none
  | [p] => some (p.pa, p.len)
  | p :: r => match joined r with
    | some (a, n) => if a = p.pa + p.len then some (p.pa, p.len + n) else none
    | none => none

/-- Check 6 of R346: the placement rules of R347. -/
def placementOk (s : State) (c : Nat) (l : List (BeadOp × List Piece)) : Bool :=
  let own := l.filter fun x => x.1.bead && x.2 ≠ []
  let runs := own.map fun x => joined x.2
  let frames := runs.map fun r => match r with
    | some (a, n) => frameIn s c a n
    | none => none
  frames.all (fun f => f.isSome)
    && frames.all (fun f => decide (f.map pairOf = (frames.headD none).map pairOf))
    && (match runs with
        | [some (a, n), some (b, m)] => !overlap a n b m
        | _ => true)
    && (l.filter fun x => !x.1.bead).all fun x => x.2.all (homedHere s)

/-- Check 7 of R346 for an ATTN command. -/
def groupBad (s : State) (p : Packet) : Option Nat :=
  match groupOf s (bhRid p) with
  | none => some kREDUCTION_UNKNOWN
  | some g =>
    if g.a.cop ≠ 10 ∨ g.a.job ≠ p.job then some kREDUCTION_UNKNOWN
    else if g.a.length ≠ bhVl p ∨ g.a.qn ≠ bhQn p ∨ g.a.qn < bhQbase p + bhQn p ∨ (g.a.inputs.all fun x => x.node ≠ myNode s) then
      some kREDUCTION_MISMATCH
    else none

/-! ### The bead that a command or an entry needs -/

/-- The place of an operand as its bead keeps it: the pool address, and the leaf, expanded. -/
def opPlace (x : BeadOp × List Piece) : Option (Nat × Nat) :=
  match x.1.bead, x.2 with
  | true, p :: _ => some (p.pa, setBits p.leaf 2 2 tierPRESENT)
  | _, _ => none

/-- An entry of a command's list as it stands. -/
def peekEntry (s : State) (c : Nat) (b : BeadCmd) (e : Nat) : Option (List Byte) :=
  match (spanOf s (c / 32) b.req.pkt.job (bhSrcA b.req.pkt + 32 * e) 32).1 with
  | .ok ps => some ((partsOf ps 0).flatMap (partBytes s))
  | _ => none

/-- A run of bytes that an entry names, where it lies in one frame of the channel with the read right and its key: address and leaf, or the code of what is wrong. -/
def entryRun (s : State) (c job va len : Nat) : (Nat × Nat) ⊕ Nat :=
  match (spanOf s (c / 32) job va len).1 with
  | .fail k _ => .inr k
  | .absent _ _ => .inr kADDRESS_INVALID
  | .ok ps =>
    match ps.findSome? (fun p => if !bit (leafRights p.leaf) rightRead then some kACCESS_DENIED else keyRefusal s p.leaf job false) with
    | some k => .inr k
    | none =>
      match joined ps, ps with
      | some (a, n), p :: _ => if (frameIn s c a n).isSome then .inl (a, setBits p.leaf 2 2 tierPRESENT) else .inr kADDRESS_INVALID
      | _, _ => .inr kADDRESS_INVALID

/-- Where an entry's keys and values lie, on one bead, or the code of the check it fails (R354, R356). -/
def entryPlaces (s : State) (c : Nat) (p : Packet) (b : List Byte) (ntotal : Nat) : ((Nat × Nat) × (Nat × Nat)) ⊕ Nat :=
  match entryBad b ntotal with
  | some k => .inr k
  | none =>
    match entryRun s c p.job (beK b) (keyBytes p b), entryRun s c p.job (beV b) (valueBytes p b) with
    | .inl x, .inl y => if pairOf (offOf x.1 / 65536) = pairOf (offOf y.1 / 65536) then .inl (x, y) else .inr kADDRESS_INVALID
    | .inr k, _ => .inr k
    | _, .inr k => .inr k

/-- NTOTAL of a command's group; none when it is not open any more. -/
def ntotalOf (s : State) (p : Packet) : Option Nat :=
  match groupOf s (bhRid p) with
  | some g => some g.a.ntotal
  | none => none

/-- The bead of an entry; none when it fails a check, and any bead of the channel then disposes of it. -/
def entryPair (s : State) (c : Nat) (b : BeadCmd) (e : Nat) : Option Nat :=
  match peekEntry s c b e with
  | some d => match entryPlaces s c b.req.pkt d ((ntotalOf s b.req.pkt).getD 65536) with
    | .inl (x, _) => some (pairOf (offOf x.1 / 65536))
    | .inr _ => none
  | none => none

/-- The next entry of an ATTN command for a bead, in list order (R348). -/
def nextEntry (s : State) (c : Nat) (b : BeadCmd) (pair : Nat) : Option Nat :=
  (List.range (bhN b.req.pkt)).find? fun e => !(e ∈ b.dones) && (match entryPair s c b e with
    | some q => decide (q = pair)
    | none => true)

/-- The bead of a vector command; none when it touches nothing. -/
def vectorPair (b : BeadCmd) : Option Nat := b.ops.head?.map fun x => pairOf (offOf x.1 / 65536)

/-- The next work of a bead in queue order: a command, and the entry of an ATTN command. MODE waits for every earlier command, and later ones for it (R343, R348). -/
def nextWork (s : State) (c pair : Nat) : List BeadCmd → Option (BeadCmd × Option Nat)
  | [] => none
  | b :: r =>
    if b.ended then nextWork s c pair r
    else if bhBop b.req.pkt = bopMODE then none
    else if bhBop b.req.pkt = bopATTN then
      match nextEntry s c b pair with
      | some e => some (b, some e)
      | none => nextWork s c pair r
    else if vectorPair b = some pair ∨ vectorPair b = none then some (b, none)
    else nextWork s c pair r

/-- A bank pair of a channel is being copied to its spare: its bead waits (R456). -/
def pairCopying (s : State) (c pair : Nat) : Bool :=
  match tget s.spares.bankCopy c with
  | some (p, _) => p = pair
  | none => false

/-- Beads with work begin their next units (R342, R348, R456). -/
def startBeads (s : State) (c : Nat) : State :=
  let x := beadCh s c
  if x.mode = .memory || x.shedHeld || x.stop.isSome then s
  else
    let more := (List.range 16).filter fun p => !(p ∈ x.active) && !pairCopying s c p && (nextWork s c p x.queue).isSome
    if more = [] then s else setBead s c { x with active := x.active ++ more }

/-! ### Compressed pages of a channel (R216) -/

/-- A leaf of a compressed page that lies in a channel. -/
def compressedIn (s : State) (c e : Nat) : Bool :=
  ttKind e = 2 && leafTier e = tierCOMPRESSED && leafNode e = myNode s && frameChannel s (leafPfn e) = some c

/-- The compressed pages in a channel are expanded before its mode changes and before a bead touches it; a block whose image is invalid as poison (R216, R228; log entry 40). -/
def expandChannel (s : State) (c : Nat) : State :=
  let bad := (s.pool.images.filter fun i => decide (frameChannel s (i.1 / 16) = some c) && (decodeImage i.2).isNone).map (·.1)
  let s := bad.foldl spoilBlock s
  let f (e : Nat) : Nat := if compressedIn s c e then setBits e 2 2 tierPRESENT else e
  { s with pool := { s.pool with
      tt := s.pool.tt.map fun x => (x.1, f x.2)
      xlate := s.pool.xlate.map fun x => (x.1, f x.2)
      images := s.pool.images.filter fun i => frameChannel s (i.1 / 16) ≠ some c } }

/-! ### Queueing (R346, R348) -/

/-- A command that has passed its checks is queued, or waits while the queue is full (R348). -/
def queueBead (s : State) (w : Waiter) (c : Nat) (l : List (BeadOp × List Piece)) : State :=
  let p := w.req.pkt
  if 256 ≤ (beadCh s c).queue.length then waitFor s w (.bead c)
  else
    let (w, s) := accept s w
    let s := expandChannel s c
    let s := bump (modBead s c fun x => { x with queue := x.queue ++ [{ req := w.req, ops := l.filterMap opPlace }], cmds := x.cmds + 1 })
      (cBEAD_CMDS (c / 32))
    startBeads (respondOk s w.req.lport p []) c

/-- A bead command at its channel, first or again (R346). -/
def attemptBead (s : State) (w : Waiter) (c : Nat) : State :=
  let p := w.req.pkt
  if beadMalformed p then failWith s w kMALFORMED 0 0
  else if (beadCh s c).owner ≠ some p.job then failWith s w kACCESS_DENIED 0 0
  else match spansOf s w.quarter p.job (beadOps p) with
    | (.fail k d, s) => failWith s w k d 0
    | (.absent page psize wr, s) => parkOnFault s w p.job page psize wr
    | (.ok l, s) =>
      match rightsBad s p.job l with
      | some k => failWith s w k 0 0
      | none =>
        match beadWrBad l with
        | some (va, pa) =>
          let s := event (bump (setEvt s aBEAD_CFG 15) (cBEAD_WR_REFUSED (c / 32))) eBEAD_WRITE_REFUSED sevINFO 8
            (16 * c + pairOf (offOf pa / 65536)) p.job va
          respond (openDedup s p) w.req.lport p kBEAD_WRITE_REFUSED 0 0 0 []
        | none =>
          if !placementOk s c l then failWith s w kADDRESS_INVALID 3 0
          else match (if bhBop p = bopATTN then groupBad s p else none) with
            | some k => failWith s w k 0 0
            | none => queueBead s w c l

/-! ### Units (R342, R355 to R357) -/

/-- The bytes a bead reads, with the code of the first poison among them. -/
def beadRead (s : State) (x : Nat × Nat) (off len : Nat) : List Byte × Option Nat :=
  let ps := partsOf [{ va := 0, pa := x.1 + off, len := len, level := 3, leaf := x.2 }] 0
  (ps.flatMap (partBytes s), ps.findSome? fun q => match partBad s q with
    | some (k, _) => some k
    | none => none)

/-- Outputs of `w` bytes written from a place on, `none` for a poisoned one: their lines are poison (R357, R469), and their checks are kept (R349). -/
def beadWrite (s : State) (x : Nat × Nat) (off w : Nat) (outs : List (Option Nat)) : State × List Nat :=
  let d := outs.flatMap fun o => le w (o.getD 0)
  let ps := partsOf [{ va := 0, pa := x.1 + off, len := outs.length * w, level := 3, leaf := x.2 }] 0
  let psn (q : Part) : Bool := (List.range outs.length).any fun i =>
    decide (i * w < q.pos + q.len) && decide (q.pos < i * w + w) && (match outs[i]? with
      | some none => true
      | _ => false)
  (ps.foldl (fun st q => if partDead st q then st else writePart st q ((d.drop q.pos).take q.len) false (psn q) true) s,
   (ps.filter psn).map (·.line))

/-- What a unit of a vector command did: rows or elements `n`, its outputs, and the first poison it read. -/
def afterUnit (s : State) (c : Nat) (b : BeadCmd) (n bytes : Nat) (bad : Option Nat) (acc : Elem) (lines : List Nat) : State :=
  let bad' := b.badLines ++ lines.filter fun l => !(l ∈ b.badLines)
  let done := b.done + n
  modCmd (bumpBy s (cBEAD_BYTES (c / 32)) bytes) c b.req.order fun x =>
    { x with done := done, acc := acc, badLines := bad', psn := bad'.length, status := if x.status = 0 then bad.getD 0 else x.status
             ended := bhN b.req.pkt ≤ done, commit := timeNow s }

/-- A unit of DOT: some whole rows (R357). -/
def dotUnit (s : State) (c : Nat) (b : BeadCmd) (x y : Nat × Nat) : State :=
  let p := b.req.pkt
  let rw := bhL p * inBytes (bhKfmt p)
  let n := min (bhN p - b.done) (max 1 (24576 / rw))
  let qs := (List.range (bhQn p)).map (queryVec p)
  let rows := (List.range n).map fun i => beadRead s x ((b.done + i) * rw) rw
  let outs := (List.range n).flatMap fun i =>
    let r := rows.getD i ([], none)
    let xs := elemsOf (bhKfmt p) r.1
    (List.range (bhQn p)).map fun q =>
      if r.2.isSome then none else some (dot32 xs (qs.getD q []))
  let (s, bad) := beadWrite s y (b.done * bhQn p * 4) 4 outs
  afterUnit s c b n (n * rw) (rows.findSome? (·.2)) {} bad

/-- A unit of AXPY: up to 4,096 elements (R357). -/
def axpyUnit (s : State) (c : Nat) (b : BeadCmd) (x y : Nat × Nat) : State :=
  let p := b.req.pkt
  let xw := inBytes (bhKfmt p)
  let yw := inBytes (bhVfmt p)
  let n := min (bhN p - b.done) 4096
  let rd (z : Nat × Nat) (w i : Nat) : List Byte × Option Nat := beadRead s z ((b.done + i) * w) w
  let els := (List.range n).map fun i => (rd x xw i, rd y yw i)
  let a := decodeFloat fFP32 (bhScale p)
  let fy := floatFmt (bhVfmt p)
  let outs := (List.range n).map fun i =>
    let e := els.getD i (([], none), ([], none))
    if e.1.2.isSome || e.2.2.isSome then none
    else some (axpy1 fy a (decodeFloat (floatFmt (bhKfmt p)) (unle e.1.1)) (decodeFloat fy (unle e.2.1)))
  let (s, bad) := beadWrite s y (b.done * yw) yw outs
  afterUnit s c b n (n * (xw + yw)) (els.findSome? fun e => if e.1.2.isSome then e.1.2 else e.2.2) {} bad

/-- The prefix sums of elements, poison once one of them is. -/
def scanFrom (fmt : Nat) : Elem → List (List Byte × Option Nat) → List (Option Nat) × Elem
  | acc, [] => ([], acc)
  | acc, e :: r =>
    let acc := if e.2.isSome then { acc with psn := true } else accumulate acc (termOf (decodeFloat (floatFmt fmt) (unle e.1)))
    let (outs, last) := scanFrom fmt acc r
    ((if acc.psn then none else some (rneSum fFP32 acc)) :: outs, last)

/-- A unit of SCAN: up to 4,096 elements (R357). -/
def scanUnit (s : State) (c : Nat) (b : BeadCmd) (x y : Nat × Nat) : State :=
  let p := b.req.pkt
  let xw := inBytes (bhKfmt p)
  let n := min (bhN p - b.done) 4096
  let els := (List.range n).map fun i => beadRead s x ((b.done + i) * xw) xw
  let (outs, acc) := scanFrom (bhKfmt p) b.acc els
  let (s, bad) := beadWrite s y (b.done * 4) 4 outs
  afterUnit s c b n (n * xw) (els.findSome? (·.2)) acc bad

/-- A unit of a vector command. -/
def vectorUnit (s : State) (c : Nat) (b : BeadCmd) : State :=
  match b.ops with
  | [x, y] =>
    if bhBop b.req.pkt = bopDOT then dotUnit s c b x y
    else if bhBop b.req.pkt = bopAXPY then axpyUnit s c b x y
    else scanUnit s c b x y
  | _ => modCmd s c b.req.order fun z => { z with ended := true, commit := timeNow s }

/-- A partial of an entry leaves for the group at this module (R355, R359): its queries' bytes, `none` for a poisoned one. -/
def sendBeadPartial (s : State) (c : Nat) (b : BeadCmd) (bidx qbase : Nat) (parts : List (Option (List Byte))) : State :=
  let p := b.req.pkt
  let w := 8 + 4 * bhVl p
  let psn := (List.range parts.length).foldl (fun m i => match parts[i]? with
    | some none => m + 2 ^ i
    | _ => m) 0
  let ext := le 1 2 ++ le 3 (bhRid p) ++ le 2 (bhRound p) ++ le 2 bidx ++ le 1 (qbase % 4 + (parts.length - 1) * 4 + bhDhc p * 16)
    ++ le 1 psn ++ zeros 6
  let s := modCmd (bump s (cBEAD_PARTIALS_SENT (c / 32))) c b.req.order fun x => { x with outstanding := x.outstanding + 1 }
  sendOwn s (.beadPartial c b.req.order)
    { tc := 5, op := opPARTIAL, flags := 2 ^ fEXT + 2 ^ fPOSTED, dst := myNode s, job := p.job, oparg := 10 + 10 * 16, ext := ext
      payload := parts.flatMap fun d => d.getD (zeros w) }

/-- The partials of an entry: one packet, or two of two queries where one would be too long (R355). -/
def sendEntryPartials (s : State) (c : Nat) (b : BeadCmd) (bidx : Nat) (parts : List (Option (List Byte))) : State :=
  let p := b.req.pkt
  if parts.length * (8 + 4 * bhVl p) ≤ 4080 then sendBeadPartial s c b bidx (bhQbase p) parts
  else sendBeadPartial (sendBeadPartial s c b bidx (bhQbase p) (parts.take 2)) c b bidx (bhQbase p + 2) (parts.drop 2)

/-- An entry is over (R350, R356): `bad` is the code of its failure. -/
def entryDone (s : State) (c : Nat) (b : BeadCmd) (e : Nat) (bad : Option Nat) (psn : Nat) : State :=
  let s := bump s (cBEAD_ENTRIES (c / 32))
  let s := modCmd s c b.req.order fun x =>
    { x with dones := x.dones ++ [e], done := x.done + (if bad.isNone then 1 else 0), psn := x.psn + psn
             status := if x.status = 0 then bad.getD 0 else x.status
             first := match bad with
               | some _ => min x.first e
               | none => x.first
             ended := bhN b.req.pkt ≤ x.dones.length + 1, commit := timeNow s }
  modBead s c fun x => { x with runs := x.runs.filter fun r => !(r.2.order = b.req.order && r.2.entry = e) }

/-- An entry that fails a check, or whose lines are poison: a partial marked poison where its BIDX is one of the group's (R356). -/
def failEntry (s : State) (c : Nat) (b : BeadCmd) (e : Nat) (d : Option (List Byte)) (code : Nat) : State :=
  let p := b.req.pkt
  match d, ntotalOf s p with
  | some d, some n =>
    if beBidx d < n then
      entryDone (sendEntryPartials s c b (beBidx d) (List.replicate (bhQn p) none)) c b e (some code) (bhQn p)
    else entryDone s c b e (some code) 0
  | _, _ => entryDone s c b e (some code) 0

/-- The partials of an entry whose keys and values have been read (R355). -/
def finishEntry (s : State) (c : Nat) (b : BeadCmd) (e : Nat) (d buf : List Byte) : State :=
  let p := b.req.pkt
  let kn := keyBytes p d
  let parts := (List.range (bhQn p)).map fun q => some (entryPartial p d (buf.take kn) (buf.drop kn) q)
  entryDone (sendEntryPartials s c b (beBidx d) parts) c b e none 0

/-- A unit of an entry: the next 48 KiB of its keys and then its values, 24 KiB in each bank (R342, R355). -/
def entryUnit (s : State) (c pair : Nat) (b : BeadCmd) (e : Nat) : State :=
  let p := b.req.pkt
  match peekEntry s c b e with
  | none => failEntry s c b e none kADDRESS_INVALID
  | some d =>
    match entryPlaces s c p d ((ntotalOf s p).getD 65536) with
    | .inr k => failEntry s c b e (some d) k
    | .inl (x, y) =>
      let run := match tget (beadCh s c).runs pair with
        | some r => if r.order = b.req.order ∧ r.entry = e then r else { order := b.req.order, entry := e }
        | none => { order := b.req.order, entry := e }
      let at_ := run.buf.length
      let kn := keyBytes p d
      let vn := valueBytes p d
      let a := min 49152 (kn - at_)
      let v := min (49152 - a) (kn + vn - max at_ kn)
      let r1 := beadRead s x at_ a
      let r2 := beadRead s y (at_ - kn) v
      let run := { run with buf := run.buf ++ r1.1 ++ r2.1, bad := run.bad <|> r1.2 <|> r2.2 }
      let s := bumpBy s (cBEAD_BYTES (c / 32)) (a + v)
      if run.buf.length < kn + vn then
        modCmd (modBead s c fun z => { z with runs := tset z.runs pair run }) c b.req.order fun z => { z with commit := timeNow s }
      else match run.bad with
        | some k => failEntry s c b e (some d) k
        | none => finishEntry s c b e d run.buf

/-- The page of an ATTN list entry cannot be read now: a line of it must first be brought in or given up. -/
def listHold (s : State) (c : Nat) (b : BeadCmd) (e : Nat) : Option State :=
  match engReach s { who := (engBEAD, c, b.req.order), quarter := c / 32, job := b.req.pkt.job } { job := b.req.pkt.job, va := bhSrcA b.req.pkt } (32 * e) 32 rightRead [] false with
  | .hold s => some s
  | _ => none

/-! ### Ends (R340, R350, R367, R368) -/

/-- Every command of a channel ends with a code, keeping its first failure. -/
def endAll (s : State) (c code : Nat) : State :=
  modBead s c fun x => { x with
    runs := []
    queue := x.queue.map fun b =>
      if b.ended then b else { b with ended := true, status := if b.status = 0 then code else b.status, commit := timeNow s } }

/-- What waits for every bead of a channel to reach its commit point: an early end, and the drain to MEMORY (R340, R367, R368). -/
def settleBead (s : State) (c : Nat) : State :=
  let x := beadCh s c
  if x.active ≠ [] then s
  else
    let s := match x.stop with
      | some (code, release) =>
        modBead (endAll s c code) c fun z => { z with stop := none, mode := if release then .memory else z.mode, owner := if release then none else z.owner }
      | none => s
    if (beadCh s c).shedHeld then modBead s c fun z => { z with saved := if z.mode = .memory then z.saved else z.mode, mode := .memory } else s

/-- A bead reaches the end of its unit (R342): its writes are in memory and its banks are ready; BEAD_CFG acts on its channel from here on as it stands (R9, R13). -/
def commitUnit (s : State) (c pair : Nat) : State :=
  if !(pair ∈ (beadCh s c).active) then s
  else
    let s := expandChannel s c
    let off (s : State) : State := settleBead (modBead s c fun x => { x with active := x.active.filter (· ≠ pair), oldCfg := none }) c
    match nextWork s c pair (beadCh s c).queue with
    | none => off s
    | some (b, none) => off (vectorUnit s c b)
    | some (b, some e) =>
      match listHold s c b e with
      | some s => s
      | none => off (entryUnit s c pair b e)

/-- The commands of a channel end at the next commit point (R340, R368). -/
def stopBead (s : State) (c code : Nat) (release : Bool) : State :=
  settleBead (modBead s c fun x => { x with stop := some (code, release || (match x.stop with
    | some (_, r) => r
    | none => false)) }) c

/-- The channels of a job's commands are released as it is removed (R340, R368). -/
def releaseJobBeads (s : State) (job : Nat) : State :=
  s.bead.channels.foldl (fun st e => if e.2.owner = some job then stopBead st e.1 kJOB_UNKNOWN true else st) s

/-- The commands of a tenant's jobs end (R368). -/
def endTenantBeads (s : State) (jobs : List Nat) : State :=
  s.bead.channels.foldl (fun st e => match e.2.owner with
    | some j => if j ∈ jobs then stopBead st e.1 kTENANT_GONE false else st
    | none => st) s

/-- A failed stack: entries not yet run send poison partials, every command ends, and the channels are left unassigned in MEMORY (R368). -/
def failBeads (s : State) (stack : Nat) : State :=
  ((List.range 16).map (16 * stack + ·)).foldl (fun st c =>
    let st := (beadCh st c).queue.foldl (fun st b =>
      if bhBop b.req.pkt = bopATTN && !b.ended then
        ((List.range (bhN b.req.pkt)).filter fun e => !(e ∈ b.dones)).foldl (fun st e =>
          failEntry st c b e (peekEntry st c b e) kPOISONED_POOL_LOSS) st
      else st) st
    if thas st.bead.channels c then
      modBead (endAll st c kPOISONED_POOL_LOSS) c fun x =>
        { x with active := [], stop := none, mode := .memory, saved := .memory, owner := none }
    else st) s

/-- Shed level L1: assigned channels drain to MEMORY and their queues are held (R367). -/
def shedBeads (s : State) : State :=
  let cs := (s.bead.channels.filter fun e => e.2.owner.isSome).map (·.1)
  let s := cs.foldl (fun st c => settleBead (modBead st c fun x => { x with shedHeld := true, saved := x.mode }) c) s
  if cs = [] then s else setEvt s aBEAD_CFG 18

/-- Return to L0: held channels return to their saved mode and go on (R367). -/
def unshedBeads (s : State) : State :=
  s.bead.channels.foldl (fun st e =>
    if e.2.shedHeld then
      startBeads (modBead st e.1 fun x => { x with shedHeld := false, mode := if x.active = [] then x.saved else x.mode }) e.1
    else st) s

/-- Shed level L3: every held command ends (R367). -/
def endHeldBeads (s : State) : State :=
  s.bead.channels.foldl (fun st e => if e.2.shedHeld then endAll st e.1 kNOT_READY else st) s

/-- A partial of a command has been accepted by its group, or refused with a code (R350). -/
def partialDone (s : State) (c order code : Nat) : State :=
  modCmd s c order fun b => { b with outstanding := b.outstanding - 1, status := if b.status = 0 then code else b.status }

/-- The 16 bytes of a completion record (Table 12-5). -/
def beadRecord (b : BeadCmd) : List Byte :=
  le 2 b.status ++ le 2 (min 65535 b.psn) ++ le 2 (min 65535 b.done) ++ le 2 b.first ++ le 8 b.commit

/-- The first command of a channel that has ended and whose partials are all in. -/
def endedCmd (x : BeadCh) : Option BeadCmd := x.queue.find? fun b => b.ended && b.outstanding = 0

/-- A command leaves its queue. -/
def dropCmd (s : State) (c : Nat) (b : BeadCmd) : State :=
  let s := modBead (endUnit s (engBEAD, c, b.req.order)) c fun x => { x with queue := x.queue.filter fun y => y.req.order ≠ b.req.order }
  if b.status = kSUCCESS then s else setEvt s (aBEAD_CH_STATUS c) 31

/-- A command's end (R350): its record is written, if it has one, and it leaves the queue. -/
def endBeadCmd (s : State) (c : Nat) : State :=
  match endedCmd (beadCh s c) with
  | none => s
  | some b =>
    let p := b.req.pkt
    if bhCpl p = 0 then dropCmd s c b
    else match engReach s { who := (engBEAD, c, b.req.order), quarter := c / 32, job := p.job } { job := p.job, va := bhCpl p } 0 16 rightWrite [] true with
      | .ok l s => dropCmd (writePieces s p.job l (beadRecord b) false false) c b
      | .hold s => s
      | .absent _ _ _ _ _ s | .stop _ _ s => dropCmd s c b

/-! ### Modes (R343, R216) -/

/-- The mode of a NEWMODE code. -/
def modeOf (n : Nat) : BeadMode := if n = 1 then .compute else if n = 2 then .shared else .memory

/-- The pool addresses of a resident channel: its first and its size. -/
def channelSpan (s : State) (c : Nat) : Nat × Nat :=
  match (residentChannels s).findIdx? (· = c) with
  | some i => (ownAddr s (i * 8192 * 65536), 8192 * 65536)
  | none => (0, 0)

/-- Ordinary accesses to a channel are under way: transactions of its lines (R343). -/
def channelBusy (s : State) (c : Nat) : Bool :=
  s.coh.busy.any fun t => match lineOfHln s t.1 with
    | some l => decide (lineChannel s l = some c)
    | none => false

/-- A MODE whose turn has come: every earlier command has ended (R343). -/
def modeDue (x : BeadCh) : Option BeadCmd :=
  match x.queue.find? fun b => !b.ended with
  | some b => if bhBop b.req.pkt = bopMODE && x.active = [] && !x.shedHeld && x.stop.isNone then some b else none
  | none => none

/-- A MODE takes effect, after the lines that agents hold have been back-invalidated when it leaves MEMORY (R343). -/
def modeEffect (s : State) (c : Nat) : State :=
  match modeDue (beadCh s c) with
  | none => s
  | some b =>
    let new := modeOf (bhNewMode b.req.pkt)
    let held := heldLines s (channelSpan s c).1 (channelSpan s c).2
    let leaves := (beadCh s c).mode = .memory && new ≠ .memory
    if leaves && (!probeDone s held || channelBusy s c) then probeLines s held
    else
      let s := modBead (expandChannel s c) c fun x => { x with mode := new }
      startBeads (modCmd s c b.req.order fun y => { y with ended := true, commit := timeNow s }) c

/-! ### Leaves in use (R349) -/

/-- A queued or running command uses a page of a range (R349). -/
def beadUses (s : State) (c : Nat) (b : BeadCmd) (job va len : Nat) : Bool :=
  let p := b.req.pkt
  p.job = job && !b.ended && ((beadOps p).any (fun o => overlap o.va o.len va len)
    || (bhBop p = bopATTN && (List.range (bhN p)).any fun e => !(e ∈ b.dones) && (match peekEntry s c b e with
        | some d => overlap (beK d) (keyBytes p d) va len || overlap (beV d) (valueBytes p d) va len
        | none => false)))

/-- A bead command stands before a change of leaves (R349). -/
def beadsUse (s : State) (l : List (Nat × Nat × Nat)) : Bool :=
  l.any fun x => s.bead.channels.any fun c => c.2.queue.any fun b => beadUses s c.1 b x.1 x.2.1 x.2.2

end Sys2Proof.Machine
end

