-- ==== Sys2Proof/Machine/MoverWalk.lean ====
section
/-! DEFINITION. Mover descriptors and their units: fields and checks (R312, R313), layouts (R320 to R322), the operations (R314 to R318), and what a unit meets (R326). -/

namespace Sys2Proof.Machine

/-! ### Descriptors (Table 11-4) -/

def opcFILL : Nat := 0
def opcCOPY : Nat := 1
def opcCOMPARE : Nat := 2
def opcREDUCE : Nat := 3
def opcRESHARD : Nat := 4

def dcWord (d : List Byte) : Nat := field d 0 4
def dcOpc (d : List Byte) : Nat := bits (dcWord d) 3 0
def dcFmt (d : List Byte) : Nat := bits (dcWord d) 8 4
def dcRop (d : List Byte) : Nat := bits (dcWord d) 12 9
def dcRmode (d : List Byte) : Bool := bit (dcWord d) 13
def dcSat (d : List Byte) : Bool := bit (dcWord d) 14
def dcClr (d : List Byte) : Bool := bit (dcWord d) 15
def dcStopCmp (d : List Byte) : Bool := bit (dcWord d) 16
def dcLen (d : List Byte) : Nat := 8 * field d 4 4
def dcSrc (d : List Byte) : Nat := field d 0x08 8
def dcSrcCap (d : List Byte) : Nat := field d 0x10 8
def dcDst (d : List Byte) : Nat := field d 0x18 8
def dcDstCap (d : List Byte) : Nat := field d 0x20 8
def dcCpl (d : List Byte) : Nat := field d 0x28 8
def dcLayout (d : List Byte) : Nat := field d 0x30 8
def dcCkpt (d : List Byte) : Nat := field d 0x38 8

/-! ### Layout blocks (R320, R321) -/

/-- One side of a layout: blocks, shards and storage order of each dimension, and its shards' places. -/
structure Side where
  blk : List Nat
  shards : List Nat
  perm : List Nat
  table : List (Nat × Nat)
  deriving DecidableEq, Repr

/-- A layout block (Table 11-6). -/
structure Layout where
  elog : Nat
  dims : List Nat
  src : Side
  dst : Side
  deriving DecidableEq, Repr

/-- The product of some numbers. -/
def product (l : List Nat) : Nat := l.foldl (· * ·) 1

/-- The words of a side: block sizes and shard counts, from an offset of the block. -/
def sideBlk (b : List Byte) (off n : Nat) : List Nat := (List.range n).map fun d => field b (off + 8 * d) 4
def sideShards (b : List Byte) (off n : Nat) : List Nat := (List.range n).map fun d => field b (off + 8 * d + 4) 4 % 128
def sidePerm (b : List Byte) (off n : Nat) : List Nat := (List.range n).map fun k => field b off 4 / 8 ^ k % 8
def shardTable (b : List Byte) (off n : Nat) : List (Nat × Nat) := (List.range n).map fun k => (field b (off + 16 * k) 8, field b (off + 16 * k + 8) 8)

/-- NDIM of a layout block, and the sizes of its two shard tables. -/
def ndim (b : List Byte) : Nat := field b 0 1 % 8
def srcShards (b : List Byte) : Nat := product (sideShards b 0x40 (ndim b))
def dstShards (b : List Byte) : Nat := product (sideShards b 0x80 (ndim b))

/-- The length of a layout block, from its first 192 bytes; 192 where the shard counts are out of range. -/
def layoutLen (b : List Byte) : Nat :=
  if srcShards b ≤ 64 ∧ dstShards b ≤ 64 then 0xC0 + 16 * srcShards b + 16 * dstShards b else 0xC0

/-- A layout block read. -/
def readLayout (b : List Byte) : Layout :=
  let n := ndim b
  { elog := field b 1 1 % 4
    dims := (List.range n).map fun d => field b (8 + 4 * d) 4
    src := { blk := sideBlk b 0x40 n, shards := sideShards b 0x40 n, perm := sidePerm b 0x70 n, table := shardTable b 0xC0 (srcShards b) }
    dst := { blk := sideBlk b 0x80 n, shards := sideShards b 0x80 n, perm := sidePerm b 0xB0 n
             table := shardTable b (0xC0 + 16 * srcShards b) (dstShards b) } }

/-- L[d] of a side (R321). -/
def localDims (l : Layout) (x : Side) : List Nat :=
  (List.range l.dims.length).map fun d =>
    let blk := x.blk.getD d 1
    ceilDiv (l.dims.getD d 1) (blk * x.shards.getD d 1) * blk

/-- Z of a side (R321). -/
def shardSize (l : Layout) (x : Side) : Nat := 2 ^ l.elog * product (localDims l x)

/-- A word of the block from a dimension on, with its used bits, is clean: unused bits zero below NDIM, all zero from it on. -/
def sideClean (b : List Byte) (off n : Nat) : Bool :=
  (List.range 6).all fun d => if d < n then decide (field b (off + 8 * d) 8 < 2 ^ 39) else decide (field b (off + 8 * d) 8 = 0)

/-- One side's ranges (Table 11-6). -/
def sideOk (dims : List Nat) (x : Side) : Bool :=
  (List.range dims.length).all (fun d => decide (1 ≤ x.blk.getD d 0 ∧ x.blk.getD d 0 ≤ dims.getD d 0 ∧ 1 ≤ x.shards.getD d 0 ∧ x.shards.getD d 0 ≤ 64))
    && decide (sortAsc x.perm = List.range dims.length) && decide (1 ≤ product x.shards ∧ product x.shards ≤ 64)
    && x.table.all fun e => decide (e.1 < 2 ^ 48)

/-- The first 192 bytes of a layout block are as Table 11-6 gives. -/
def headOk (b : List Byte) : Bool :=
  let n := ndim b
  decide (1 ≤ n ∧ n ≤ 6 ∧ field b 0 1 < 8 ∧ field b 1 1 < 4 ∧ field b 2 6 = 0 ∧ field b 0x20 0x20 = 0)
    && (List.range 6).all (fun d => let v := field b (8 + 4 * d) 4
        if d < n then decide (1 ≤ v ∧ v < 2 ^ 31) else decide (v = 0))
    && sideClean b 0x40 n && sideClean b 0x80 n
    && decide (field b 0x70 16 < 8 ^ n ∧ field b 0xB0 16 < 8 ^ n)

/-- What is wrong with a layout for a walk length: MALFORMED, or MISALIGNED for a shard base (R320 to R322). -/
def layoutBad (b : List Byte) (len : Nat) : Option Nat :=
  let l := readLayout b
  if !headOk b || !sideOk l.dims l.src || !sideOk l.dims l.dst then some kMALFORMED
  else if shardSize l l.src % 128 ≠ 0 ∨ shardSize l l.dst % 128 ≠ 0 ∨ len ≠ l.dst.table.length * shardSize l l.dst then some kMALFORMED
  else if (l.src.table ++ l.dst.table).any fun e => e.1 % 128 ≠ 0 then some kMISALIGNED
  else none

/-- The shard and byte offset of an element on a side (R321). -/
def locate (l : Layout) (x : Side) (i : List Nat) : Nat × Nat :=
  let ld := localDims l x
  let (s, _, loc) := (List.range i.length).foldl (fun (st : Nat × Nat × List Nat) d =>
    let b := x.blk.getD d 1
    let p := x.shards.getD d 1
    let blk := i.getD d 0 / b
    (st.1 + blk % p * st.2.1, st.2.1 * p, st.2.2 ++ [blk / p * b + i.getD d 0 % b])) (0, 1, [])
  let off := x.perm.reverse.foldl (fun off k => off * ld.getD k 1 + loc.getD k 0) 0
  (s, off * 2 ^ l.elog)

/-- The coordinates of the element stored at an index of a shard, or none at a padded position (R321). -/
def coordsAt (l : Layout) (x : Side) (s idx : Nat) : Option (List Nat) :=
  let ld := localDims l x
  let loc := (x.perm.foldl (fun (st : Nat × List (Nat × Nat)) k => (st.1 / ld.getD k 1, (k, st.1 % ld.getD k 1) :: st.2)) (idx, [])).2
  let (_, i) := (List.range l.dims.length).foldl (fun (st : Nat × List Nat) d =>
    let b := x.blk.getD d 1
    let p := x.shards.getD d 1
    let v := tgetD loc d 0
    (st.1 / p, st.2 ++ [(v / b * p + st.1 % p) * b + v % b])) (s, [])
  if (List.range l.dims.length).all fun d => i.getD d 0 < l.dims.getD d 0 then some i else none

/-- A run of bytes of a unit that comes from one run of a source shard: place in the unit, shard, offset, length. -/
structure Run where
  pos : Nat
  shard : Nat
  off : Nat
  len : Nat
  deriving DecidableEq, Repr

/-- The runs of `n` bytes of a destination shard from an offset on; padded positions belong to none. -/
def runsOf (l : Layout) (shard off n : Nat) : List Run :=
  let w := 2 ^ l.elog
  (List.range (n / w)).foldl (fun (acc : List Run) k =>
    match coordsAt l l.dst shard (off / w + k) with
    | none => acc
    | some i =>
      let (s, o) := locate l l.src i
      match acc.getLast? with
      | some r =>
        if r.shard = s ∧ r.off + r.len = o ∧ r.pos + r.len = k * w then acc.dropLast ++ [{ r with len := r.len + w }]
        else acc ++ [{ pos := k * w, shard := s, off := o, len := w }]
      | none => [{ pos := k * w, shard := s, off := o, len := w }]) []

/-! ### The checks of a descriptor (R313) -/

/-- Formats and operations a REDUCE_INTO may name (Table 11-4). -/
def reduceOk (fmt rop : Nat) : Bool := fmt ≤ 13 && rop ∈ [0, 2, 3, 6, 7, 8] && (fmt < 8 || rop ∈ [0, 2, 3])

/-- Fields of a descriptor that are out of range or not zero where unused. -/
def descMalformed (d : List Byte) : Bool :=
  let o := dcOpc d
  decide (4 < o ∨ 2 ^ 17 ≤ dcWord d ∨ dcLen d = 0 ∨ 2 ^ 48 ≤ dcCpl d ∨ 2 ^ 48 ≤ dcLayout d ∨ 2 ^ 48 ≤ dcCkpt d ∨ dcCkpt d = 0)
    || (if o = opcREDUCE then !reduceOk (dcFmt d) (dcRop d) else decide (dcFmt d ≠ 0 ∨ dcRop d ≠ 0) || dcRmode d || dcSat d)
    || (dcClr d && !(o ∈ [opcFILL, opcCOPY, opcRESHARD])) || (dcStopCmp d && o ≠ opcCOMPARE)
    || (if o = opcRESHARD then decide (dcSrc d ≠ 0 ∨ dcSrcCap d ≠ 0 ∨ dcDst d ≠ 0 ∨ dcDstCap d ≠ 0 ∨ dcLayout d = 0)
        else decide (dcLayout d ≠ 0 ∨ 2 ^ 48 ≤ dcDst d) || (if o = opcFILL then decide (dcSrcCap d ≠ 0) else decide (2 ^ 48 ≤ dcSrc d)))

/-- Addresses of a descriptor that are not aligned: to 8 bytes, or for REDUCE_INTO to the element (R313; log entry 45). -/
def descMisaligned (d : List Byte) : Bool :=
  let o := dcOpc d
  let n := if o = opcREDUCE then inBytes (dcFmt d) else 8
  decide (dcCkpt d % 64 ≠ 0 ∨ dcLayout d % 64 ≠ 0) || (o ≠ opcRESHARD && decide (dcDst d % n ≠ 0))
    || (!(o ∈ [opcFILL, opcRESHARD]) && decide (dcSrc d % n ≠ 0))

/-- The source and destination extents of a descriptor, as job, address and length. -/
def descExtents (s : State) (job : Nat) (d : List Byte) (l : Layout) (src : Bool) : List (Nat × Nat × Nat) :=
  let one (cap addr n : Nat) : Nat × Nat × Nat := let x := placeAt s job cap addr; (x.job, x.va, n)
  if dcOpc d = opcRESHARD then
    let x := if src then l.src else l.dst
    x.table.map fun e => one e.2 e.1 (shardSize l x)
  else if src then [one (dcSrcCap d) (dcSrc d) (dcLen d)] else [one (dcDstCap d) (dcDst d) (dcLen d)]

/-- The destination extent overlaps the source extent (R313). -/
def descOverlap (s : State) (job : Nat) (d : List Byte) (l : Layout) : Bool :=
  dcOpc d ≠ opcFILL && (descExtents s job d l true).any fun x => (descExtents s job d l false).any fun y =>
    decide (x.1 = y.1) && overlap x.2.1 x.2.2 y.2.1 y.2.2

/-! ### Arithmetic (R316) -/

/-- An element of REDUCE_INTO. -/
def reduceElem (fmt rop : Nat) (rz sat : Bool) (d x : Nat) : Nat :=
  if isIntFmt fmt then
    match rop with
    | 0 => (d + x) % 2 ^ inWidth fmt
    | 6 => d &&& x
    | 7 => d ||| x
    | 8 => d ^^^ x
    | 2 => if valueKey fmt x < valueKey fmt d then x else d
    | _ => if valueKey fmt d < valueKey fmt x then x else d
  else
    let f := floatFmt fmt
    if rop = 0 then
      if fmt = 11 then addFloat f rz d x
      else (roundElem f rz sat (accumulate (accumulate {} (termOf (decodeFloat f d))) (termOf (decodeFloat f x)))).getD 0
    else if isNanIn f d || isNanIn f x then canonNan f
    else if rop = 2 then (if valueKey fmt x < valueKey fmt d then x else d)
    else (if valueKey fmt d < valueKey fmt x then x else d)

/-- The elements of a unit of REDUCE_INTO. -/
def reduceBytes (fmt rop : Nat) (rz sat : Bool) (d x : List Byte) : List Byte :=
  let w := inBytes fmt
  (List.range (d.length / w)).flatMap fun i => le w (reduceElem fmt rop rz sat (field d (w * i) w) (field x (w * i) w))

/-- The bytes of a FILL from a position on: its pattern, word by word. -/
def fillBytes (pat n : Nat) : List Byte := (List.range n).map fun i => BitVec.ofNat 8 (pat >>> (8 * (i % 8)))

/-! ### A unit's accesses (R314, R326, R333) -/

/-- A channel's unit in hand. -/
def moverWho (ch : Nat) : Nat × Nat × Nat := (engMOVER, ch, 0)

/-- An access of a mover, through its window's check when it has one, made once for a unit and counted in the window until the unit is done (R333): pieces, or why it stops. -/
def moverReach (s : State) (ch : Nat) (job cap addr len right : Nat) (also : List Nat) (wr : Bool) (wright : Nat) : Eng (List Piece) :=
  let e : EngAt := { who := moverWho ch, quarter := ch / 32, job := job }
  let k : Look := { who := e.who, job := job, cap := cap, addr := addr, len := len }
  if cap = 0 then engReach s e { job := job, va := addr } 0 len right also wr
  else if k ∈ s.pool.looks then engReach s e (placeAt s job cap addr) 0 len right also wr
  else
    match checkWindow s { src := myNode s, job := job, addr := addr } cap addr len wright with
    | (some (c, _), s) => .stop c none s
    | (none, s) => engReach (modWindow (noteLook s k) (capIndex cap) fun x => { x with inflight := x.inflight + 1 }) e (placeAt s job cap addr) 0 len right also wr

/-- The length of the unit at a position of a destination address. -/
def unitLen (addr left : Nat) : Nat := min left (128 - addr % 128)

/-- A destination line of a LINE_CRC page is not covered whole (R318). -/
def partLine (l : List Piece) (len : Nat) : Bool := l.any fun p => leafE2e p.leaf && len ≠ 128

/-- The applied mark of a channel in the quarter of a unit's line (R330). -/
def markAt (s : State) (ch : Nat) (l : List Piece) : (Nat × Nat) :=
  (match l with
   | p :: _ => lineQuarter s (lineOf p.pa)
   | [] => 0, ch)

/-- What a unit leaves: the channel's counts, and whether the descriptor is over with it. -/
structure UnitDone where
  psn : Nat := 0
  diff : Nat := 0
  first : Option Nat := none
  over_ : Bool := false
  deriving DecidableEq, Repr

/-- A unit's write, absorbed where the mark of its quarter has passed it (R330). -/
def applyUnit (s : State) (ch job : Nat) (l : List Piece) (endPos : Nat) (d : List Byte) (clr poison : Bool) : Eng UnitDone :=
  let k := markAt s ch l
  if endPos ≤ tgetD s.mover.marks k 0 then .ok {} (bump s (cMOVER_REPLAY_ABSORBED (ch / 32)))
  else
    let dead := (partsOf l 0).any (partDead s)
    let s := writePieces s job l d clr poison
    .ok { psn := flag (poison || dead) } { s with mover := { s.mover with marks := tset s.mover.marks k endPos } }

/-- A unit of FILL. -/
def fillUnit (s : State) (ch : Nat) (c : Channel) (n : Nat) : Eng UnitDone :=
  let d := c.desc
  (moverReach s ch c.job (dcDstCap d) (dcDst d + c.pos) n rightWrite [] true wWrite).andThen fun l s =>
    if partLine l n then .stop kMISALIGNED none s
    else applyUnit s ch (placeAt s c.job (dcDstCap d) 0).job l (c.pos + n) (fillBytes (dcSrc d) n) (dcClr d) false

/-- A unit of COPY. -/
def copyUnit (s : State) (ch : Nat) (c : Channel) (n : Nat) : Eng UnitDone :=
  let d := c.desc
  (moverReach s ch c.job (dcSrcCap d) (dcSrc d + c.pos) n rightRead [] false wRead).andThen fun ls s =>
    (moverReach s ch c.job (dcDstCap d) (dcDst d + c.pos) n rightWrite [] true wWrite).andThen fun l s =>
      if partLine l n then .stop kMISALIGNED none s
      else
        let (x, s) := readPieces s ls
        applyUnit s ch (placeAt s c.job (dcDstCap d) 0).job l (c.pos + n) x.d (dcClr d) x.code.isSome

/-- A unit of COMPARE. -/
def compareUnit (s : State) (ch : Nat) (c : Channel) (n : Nat) : Eng UnitDone :=
  let d := c.desc
  (moverReach s ch c.job (dcSrcCap d) (dcSrc d + c.pos) n rightRead [] false wRead).andThen fun ls s =>
    (moverReach s ch c.job (dcDstCap d) (dcDst d + c.pos) n rightRead [] false wRead).andThen fun l s =>
      let (x, s) := readPieces s ls
      let (y, s) := readPieces s l
      let differs := (List.range (n / 8)).filter fun k =>
        x.badIn (8 * k) 8 || y.badIn (8 * k) 8 || field x.d (8 * k) 8 ≠ field y.d (8 * k) 8
      .ok { psn := flag (x.code.isSome || y.code.isSome), diff := differs.length
            first := differs.head?.map fun k => c.pos + 8 * k, over_ := dcStopCmp d && differs ≠ [] } s

/-- A unit of REDUCE_INTO. -/
def reduceUnit (s : State) (ch : Nat) (c : Channel) (n : Nat) : Eng UnitDone :=
  let d := c.desc
  (moverReach s ch c.job (dcSrcCap d) (dcSrc d + c.pos) n rightRead [] false wRead).andThen fun ls s =>
    (moverReach s ch c.job (dcDstCap d) (dcDst d + c.pos) n rightWrite [rightRead] true wReduce).andThen fun l s =>
      if partLine l n then .stop kMISALIGNED none s
      else
        let (x, s) := readPieces s ls
        let (y, s) := readPieces s l
        applyUnit s ch (placeAt s c.job (dcDstCap d) 0).job l (c.pos + n)
          (reduceBytes (dcFmt d) (dcRop d) (dcRmode d) (dcSat d) y.d x.d) false (x.code.isSome || y.code.isSome)

/-- The source runs of a RESHARD unit, read one after another over the bytes that stand there: the bytes, and whether one was poison. -/
def reshardRead (s : State) (ch : Nat) (c : Channel) (l : Layout) : List Run → List Byte → Bool → Eng (List Byte × Bool)
  | [], d, bad => .ok (d, bad) s
  | r :: t, d, bad =>
    let e := l.src.table.getD r.shard (0, 0)
    match moverReach s ch c.job e.2 (e.1 + r.off) r.len rightRead [] false wRead with
    | .ok ls s => let (x, s) := readPieces s ls
                  reshardRead s ch c l t (splice d r.pos x.d) (bad || x.code.isSome)
    | .hold s => .hold s
    | .absent j g z w b s => .absent j g z w b s
    | .stop k p s => .stop k p s

/-- The runs of a unit that are written: neighbours joined whatever their source. -/
def writtenRuns (l : List Run) : List (Nat × Nat) :=
  l.foldl (fun acc r => match acc.getLast? with
    | some (p, n) => if p + n = r.pos then acc.dropLast ++ [(p, n + r.len)] else acc ++ [(r.pos, r.len)]
    | none => [(r.pos, r.len)]) []

/-- The pieces of a unit cut to one of its runs. -/
def cutPieces (l : List Piece) (pos len : Nat) : List Piece :=
  match l with
  | p :: _ => [{ p with va := p.va + pos, pa := p.pa + pos, len := len }]
  | [] => []

/-- The written runs of a RESHARD unit take effect together. -/
def writeRuns (s : State) (job : Nat) (l : List Piece) (d : List Byte) (clr poison : Bool) (rs : List (Nat × Nat)) : State :=
  rs.foldl (fun st r => writePieces st job (cutPieces l r.1 r.2) ((d.drop r.1).take r.2) clr poison) s

/-- A unit of RESHARD; one of padded positions alone touches nothing (R321, R322). -/
def reshardUnit (s : State) (ch : Nat) (c : Channel) (n : Nat) : Eng UnitDone :=
  let l := readLayout c.layout
  let z := shardSize l l.dst
  let e := l.dst.table.getD (c.pos / z) (0, 0)
  let rs := runsOf l (c.pos / z) (c.pos % z) n
  if rs = [] then .ok {} s else
  (reshardRead s ch c l rs (zeros n) false).andThen fun x s =>
    (moverReach s ch c.job e.2 (e.1 + c.pos % z) n rightWrite [] true wWrite).andThen fun ps s =>
      if partLine ps n then .stop kMISALIGNED none s
      else
        let k := markAt s ch ps
        if c.pos + n ≤ tgetD s.mover.marks k 0 then .ok {} (bump s (cMOVER_REPLAY_ABSORBED (ch / 32)))
        else
          let dead := (partsOf ps 0).any (partDead s)
          let s := writeRuns s (placeAt s c.job e.2 0).job ps x.1 (dcClr c.desc) x.2 (writtenRuns rs)
          .ok { psn := flag (x.2 || dead) } { s with mover := { s.mover with marks := tset s.mover.marks k (c.pos + n) } }

/-- The destination address of a channel's position, for the cut into units. -/
def destAddr (c : Channel) : Nat :=
  if dcOpc c.desc = opcRESHARD then
    let l := readLayout c.layout
    c.pos % max 1 (shardSize l l.dst)
  else dcDst c.desc + c.pos

/-- The unit at a channel's position. -/
def channelUnit (s : State) (ch : Nat) (c : Channel) : Eng UnitDone :=
  let n := unitLen (destAddr c) (dcLen c.desc - c.pos)
  if dcOpc c.desc = opcFILL then fillUnit s ch c n
  else if dcOpc c.desc = opcCOPY then copyUnit s ch c n
  else if dcOpc c.desc = opcCOMPARE then compareUnit s ch c n
  else if dcOpc c.desc = opcREDUCE then reduceUnit s ch c n
  else reshardUnit s ch c n

end Sys2Proof.Machine
end

