-- ==== Sys2Proof/Machine/Mover.lean ====
section
/-! DEFINITION. Mover channels: doorbells (R310, R311), choosing and starting descriptors (R313, R323), steps and preemption (R315, R324), checkpoints, stops, halts and resume (R325 to R329), completion records (R331), and the channel commands (R307). -/

namespace Sys2Proof.Machine

/-- A channel. -/
def chan (s : State) (ch : Nat) : Channel := tgetD s.mover.channels ch {}

/-- The state with a channel replaced. -/
def setChan (s : State) (ch : Nat) (c : Channel) : State := { s with mover := { s.mover with channels := tset s.mover.channels ch c } }

/-- The four channels of an engine (R305). -/
def engineChannels (e : Nat) : List Nat := (List.range 4).map (4 * e + ·)

/-- The channel an engine runs. -/
def runningOn (s : State) (e : Nat) : Option Nat := (engineChannels e).find? fun ch => (chan s ch).state = .running

/-! ### Records at the channel's own addresses -/

/-- The access of a channel is over unless it is held. -/
def moverOver {α : Type} (ch : Nat) (x : Eng α) : Eng α :=
  match x with
  | .ok a s => .ok a (endUnit s (moverWho ch))
  | .hold s => .hold s
  | .absent j g z w b s => .absent j g z w b (endUnit s (moverWho ch))
  | .stop k p s => .stop k p (endUnit s (moverWho ch))

/-- A record written at a job-virtual address as one STORE: it may be held, or refused (R325, R329, R331). -/
def storeRecord (s : State) (ch job addr : Nat) (d : List Byte) : Eng Unit :=
  moverOver ch ((moverReach s ch job 0 addr d.length rightWrite [] true wWrite).andThen fun l s =>
    if l.any fun p => leafE2e p.leaf then .stop kMISALIGNED none s
    else if (partsOf l 0).any (partDead s) then .stop kPOISONED_POOL_LOSS none s
    else .ok () (writePieces s job l d false false))

/-- Bytes read at a job-virtual address by the channel itself: poison in them is a failure. -/
def loadRecord (s : State) (ch job addr n : Nat) : Eng (List Byte) :=
  moverOver ch ((moverReach s ch job 0 addr n rightRead [] false wRead).andThen fun l s =>
    let (x, s) := readPieces s l
    match x.code with
    | some c => .stop c none s
    | none => .ok x.d s)

/-- The checkpoint of a channel (Table 11-7). -/
def checkpointBytes (c : Channel) (state : Nat) : List Byte :=
  le 2 c.head ++ le 2 state ++ le 4 (crc32c (c.desc ++ c.layout)) ++ le 8 c.pos ++ le 8 c.first ++ le 8 c.count ++ le 4 c.psn ++ zeros 28

/-- The completion record of a channel (Table 11-9). -/
def completionBytes (c : Channel) (e : Ending) : List Byte :=
  let cmp := dcOpc c.desc = opcCOMPARE
  le 2 c.head ++ le 2 e.kind ++ le 2 e.status ++ le 2 (min 65535 c.psn) ++ le 8 c.pos
    ++ le 8 (if e.kind = 2 then e.addr else if cmp then c.first else 0) ++ le 8 (if cmp then c.count else 0)

/-- CR_KIND (Table 11-9). -/
def crDONE : Nat := 1
def crFAULT : Nat := 2
def crABORTED : Nat := 3
def crERROR : Nat := 4

/-! ### Halts and ends -/

/-- A channel enters HALTED (R329). -/
def haltChannel (s : State) (ch : Nat) (c : Channel) : State :=
  let s := setChan s ch { c with state := .halted, retry := false }
  event (setEvt (setEvt s (aMOVER_CH_STATUS ch) 21) aMOVER_CFG 3) eCHANNEL_HALTED sevDEGRADED 7 ch c.pos 0

/-- A channel is CLOSED, and the command that closed it is answered (R307). -/
def closeChannel (s : State) (ch : Nat) : State :=
  let c := chan s ch
  let s := { s with mover := { s.mover with channels := tset s.mover.channels ch { prio := c.prio, record := c.record } } }
  match c.closeBy with
  | some k => answerOk s k mbCLOSE_MOVER_CHANNEL []
  | none => s

/-- The counts of an end. -/
def countEnding (s : State) (ch : Nat) (e : Ending) : State :=
  let n := ch / 32
  if e.kind = crDONE then bump s (cMOVER_DESC_DONE n)
  else if e.kind = crFAULT then setEvt (bump s (cMOVER_FAULTS n)) (aMOVER_CH_STATUS ch) 22
  else if e.kind = crERROR then setEvt (bump s (cMOVER_ERRORS n)) (aMOVER_CH_STATUS ch) 22
  else s

/-- The record of an ending is visible: DONE and ABORTED advance HEAD, FAULT and ERROR stop the channel (R309, R331). -/
def finishEnding (s : State) (ch : Nat) (c : Channel) (e : Ending) : State :=
  let c := { c with ending := none, abort := none, retry := false, resumed := false, unread := false, preempting := false, record := completionBytes c e }
  let s := countEnding s ch e
  if e.kind = crDONE ∨ e.kind = crABORTED then
    let c := { c with head := (c.head + 1) % 65536, state := .idle, desc := [], layout := [], pos := 0, first := 2 ^ 64 - 1, count := 0, psn := 0 }
    let s := setChan s ch c
    if c.closing then closeChannel s ch else s
  else
    let s := setChan s ch { c with state := .stopped }
    if c.closing then closeChannel s ch else s

/-- The record of an ending that could not be written: the channel halts, or closes when it was being closed (R313, R329). At a halt the checkpoint
is written too, where it was not just before and can be (R325; log entry 44). -/
def recordFailed (s : State) (ch : Nat) (c : Channel) (ckpt : Bool) : State :=
  if c.closing then closeChannel (setChan s ch c) ch
  else if ckpt && decide (dcCkpt c.desc % 64 = 0 ∧ dcCkpt c.desc ≠ 0 ∧ dcCkpt c.desc < 2 ^ 48) then
    match storeRecord s ch c.job (dcCkpt c.desc) (checkpointBytes c 2) with
    | .hold s => s
    | .ok _ s | .absent _ _ _ _ _ s | .stop _ _ s => haltChannel s ch c
  else haltChannel s ch c

/-- The writes of a descriptor's end: for a stop its checkpoint, then its completion record (R326, R331). -/
def writeEnding (s : State) (ch : Nat) : State :=
  let c := chan s ch
  match c.ending with
  | none => s
  | some e =>
    if c.desc = [] then recordFailed s ch c false
    else
      let first : Eng Unit := if e.ckpt then storeRecord s ch c.job (dcCkpt c.desc) (checkpointBytes c 2) else .ok () s
      match first with
      | .hold s => s
      | .absent _ _ _ _ _ s | .stop _ _ s => recordFailed s ch c false
      | .ok _ s =>
        if dcCpl c.desc % 32 ≠ 0 ∨ 2 ^ 48 ≤ dcCpl c.desc then recordFailed s ch c (!e.ckpt)
        else match storeRecord s ch c.job (dcCpl c.desc) (completionBytes c e) with
          | .hold s => s
          | .absent _ _ _ _ _ s | .stop _ _ s => recordFailed s ch c (!e.ckpt)
          | .ok _ s => finishEnding s ch c e

/-- A descriptor is at its end. -/
def endDescriptor (s : State) (ch kind status addr : Nat) (ckpt : Bool) : State :=
  let c := chan s ch
  setChan (endUnit s (moverWho ch)) ch { c with ending := some { kind := kind, status := status, addr := addr, ckpt := ckpt } }

/-- The status of a stop (Table 11-8): an operand homed elsewhere is ADDRESS_INVALID (R306). -/
def stopStatus (code : Nat) : Nat := if code = kREROUTE then kADDRESS_INVALID else code

/-- CR_ADDR of an absent page, in the operand's own space (Table 11-8). -/
def absentAddr (s : State) (page : Nat) (win : Option Nat) : Nat :=
  match win with
  | some i => (page + 2 ^ 64 - (windowAt s i).base) % 2 ^ 64
  | none => page

/-! ### Starting (R313, R322, R323, R327) -/

/-- The descriptor at HEAD. -/
def fetchDescriptor (s : State) (ch : Nat) : Eng (List Byte) :=
  let c := chan s ch
  loadRecord s ch c.job (c.ringBase + 64 * (c.head % 2 ^ c.ringLog2)) 64

/-- The layout block of a descriptor, none for another operation. -/
def fetchLayout (s : State) (ch : Nat) (d : List Byte) : Eng (List Byte) :=
  if dcOpc d ≠ opcRESHARD ∨ dcLayout d % 64 ≠ 0 ∨ 2 ^ 48 ≤ dcLayout d then .ok [] s
  else
    let job := (chan s ch).job
    (loadRecord s ch job (dcLayout d) 0xC0).andThen fun h s =>
      if layoutLen h = 0xC0 then .ok h s
      else (loadRecord s ch job (dcLayout d + 0xC0) (layoutLen h - 0xC0)).andThen fun t s => .ok (h ++ t) s

/-- An address does not translate to a PRESENT page with read and write rights: the code (R313). -/
def pointerBad (s : State) (ch job addr n : Nat) : Option Nat × State :=
  match reach s (ch / 32) job job rightWrite addr n with
  | (.fail c _, s) => (some (stopStatus c), s)
  | (.absent _ _, s) => (some kADDRESS_INVALID, s)
  | (.ok l, s) =>
    if l.any fun p => !bit (leafRights p.leaf) rightRead then (some kACCESS_DENIED, s)
    else if l.any fun p => leafTier p.leaf ≠ tierPRESENT then (some kADDRESS_INVALID, s)
    else (none, s)

/-- The first check of R313 that a descriptor fails, with its layout block. -/
def descriptorRefusal (s : State) (ch job : Nat) (d b : List Byte) : Option Nat × State :=
  if descMalformed d then (some kMALFORMED, s)
  else if descMisaligned d then (some kMISALIGNED, s)
  else match (if dcOpc d = opcRESHARD then layoutBad b (dcLen d) else none) with
    | some c => (some c, s)
    | none => match pointerBad s ch job (dcCkpt d) 64 with
      | (some c, s) => (some c, s)
      | (none, s) => match pointerBad s ch job (dcCpl d) 32 with
        | (some c, s) => (some c, s)
        | (none, s) => (if descOverlap s job d (readLayout b) then some kMALFORMED else none, s)

/-- The marks of a channel are cleared when a descriptor starts (R330). -/
def clearMarks (s : State) (ch : Nat) : State := { s with mover := { s.mover with marks := s.mover.marks.filter fun e => e.1.2 ≠ ch } }

/-- A descriptor could not be read: with no completion address known, the channel halts (R313). -/
def unreadable (s : State) (ch : Nat) : State :=
  let c := chan s ch
  if c.closing then closeChannel s ch else haltChannel s ch { c with unread := true, desc := [], layout := [], pos := 0 }

/-- The descriptor at HEAD starts on its engine (R313). -/
def startDescriptor (s : State) (ch : Nat) : State :=
  match fetchDescriptor s ch with
  | .hold s => s
  | .absent _ _ _ _ _ s | .stop _ _ s => unreadable s ch
  | .ok d s =>
    let c := chan s ch
    let fresh : Channel := { c with
      state := .running, desc := d, layout := [], pos := 0, first := 2 ^ 64 - 1, count := 0, psn := 0,
      stepPos := 0, stepCount := 0, stepFirst := 2 ^ 64 - 1, stepPsn := 0 }
    match fetchLayout s ch d with
    | .hold s => s
    | .absent _ _ _ _ _ s => endDescriptor (setChan (clearMarks s ch) ch fresh) ch crERROR kADDRESS_INVALID 0 false
    | .stop k _ s => endDescriptor (setChan (clearMarks s ch) ch fresh) ch crERROR (stopStatus k) 0 false
    | .ok b s =>
      match descriptorRefusal s ch c.job d b with
      | (r, s) =>
        let s := setChan (clearMarks s ch) ch { fresh with layout := b }
        match r with
        | some k => endDescriptor s ch crERROR k 0 false
        | none => s

/-- The descriptor at HEAD goes on from its checkpoint (R324, R327). -/
def resumeDescriptor (s : State) (ch : Nat) : State :=
  let c := chan s ch
  let bad (s : State) : State := endDescriptor (setChan s ch { c with state := .running, resumed := false }) ch crERROR kMALFORMED 0 false
  match loadRecord s ch c.job (dcCkpt c.desc) 64 with
  | .hold s => s
  | .absent _ _ _ _ _ s | .stop _ _ s => bad s
  | .ok k s =>
    match fetchDescriptor s ch with
    | .hold s => s
    | .absent _ _ _ _ _ s | .stop _ _ s => bad s
    | .ok d s =>
      match fetchLayout s ch d with
      | .hold s => s
      | .absent _ _ _ _ _ s | .stop _ _ s => bad s
      | .ok b s =>
        if field k 0 2 ≠ c.head ∨ field k 2 1 ≠ (if c.resumed then 2 else 1) ∨ field k 4 4 ≠ crc32c (d ++ b) then bad s
        else setChan s ch { c with
          state := .running, desc := d, layout := b, pos := field k 8 8, first := field k 0x10 8, count := field k 0x18 8
          psn := field k 0x20 4, stepPos := field k 8 8, stepCount := field k 0x18 8, stepFirst := field k 0x10 8, stepPsn := field k 0x20 4
          resumed := false }

/-- A channel that waits for its engine (R323). -/
def readyChannel (s : State) (ch : Nat) : Bool :=
  let c := chan s ch
  c.ending.isNone && ((c.state = .preempted && decide (level s ≤ 2)) || (c.state = .idle && c.head ≠ c.tail && decide (level s = 0)))

/-- Priorities set since take force (R307). -/
def takePriorities (s : State) (e : Nat) : State :=
  (engineChannels e).foldl (fun st ch => match (chan st ch).newPrio with
    | some p => setChan st ch { chan st ch with prio := p, newPrio := none }
    | none => st) s

/-- The channel an engine takes: the highest PRIO, then the lowest index above the one served last, wrapping (R323). -/
def pickChannel (s : State) (e : Nat) : Option Nat :=
  let ready := (engineChannels e).filter (readyChannel s)
  let top := (ready.map fun ch => (chan s ch).prio).foldl max 0
  let l := ready.filter fun ch => (chan s ch).prio = top
  match tget s.mover.served e with
  | some last => match l.find? (last < ·) with
    | some ch => some ch
    | none => l.head?
  | none => l.head?

/-- An engine with nothing running takes a channel (R323). -/
def engineStart (s : State) (e : Nat) : State :=
  if (runningOn s e).isSome then s
  else
    let s := takePriorities s e
    match pickChannel s e with
    | none => s
    | some ch =>
      let s := { s with mover := { s.mover with served := tset s.mover.served e ch } }
      if (chan s ch).state = .preempted then resumeDescriptor s ch else startDescriptor s ch

/-! ### Units and steps (R314, R315, R324, R326) -/

/-- A step boundary has been reached and not yet been taken (R315). -/
def boundaryDue (c : Channel) : Bool := c.pos / 4096 > c.stepPos / 4096 && c.pos < dcLen c.desc

/-- One unit of the running descriptor of a channel, a handshake of its engine (R49; log entry 43). -/
def moverUnit (s : State) (ch : Nat) : State :=
  let c := chan s ch
  if c.state ≠ .running || c.ending.isSome || boundaryDue c then s
  else match c.abort with
    | some st => endDescriptor s ch crABORTED st 0 false
    | none =>
      if dcLen c.desc ≤ c.pos then endDescriptor s ch crDONE kSUCCESS 0 false
      else
        let n := unitLen (destAddr c) (dcLen c.desc - c.pos)
        match moverOver ch (channelUnit s ch c) with
        | .hold s => s
        | .absent _ page _ win _ s => endDescriptor s ch crFAULT kSUCCESS (absentAddr s page win) true
        | .stop k _ s =>
          if k = kTENANT_GONE then endDescriptor s ch crABORTED k 0 false else endDescriptor s ch crERROR (stopStatus k) 0 true
        | .ok u s =>
          let c := chan s ch
          let c := { c with pos := c.pos + n, psn := min (2 ^ 32 - 1) (c.psn + u.psn), count := c.count + u.diff
                            first := if c.first = 2 ^ 64 - 1 then u.first.getD c.first else c.first }
          let s := bumpBy (handshake (setChan s ch c) .mover (ch / 4) (ceilDiv n 256) false) (cMOVER_BYTES (ch / 32)) n
          if u.over_ ∨ dcLen c.desc ≤ c.pos then endDescriptor s ch crDONE kSUCCESS 0 false else s

/-- A ready channel of the same engine has a higher PRIO (R324). -/
def outranked (s : State) (ch : Nat) : Bool :=
  (engineChannels (ch / 4)).any fun k => readyChannel s k && decide ((chan s ch).prio < (chan s k).prio)

/-- A channel's window is no longer good at a step boundary (R177, R315): the code, reported as a refusal of the next unit's access (R168). -/
def windowLost (s : State) (c : Channel) : Option Nat × State :=
  let d := c.desc
  let n := unitLen (destAddr c) (dcLen d - c.pos)
  let one (s : State) (cap addr right : Nat) : Option Nat × State :=
    if cap = 0 then (none, s)
    else match windowCode s cap (addr + c.pos) n right with
      | some k => (some k, reportRefusal s k cap (addr + c.pos) n (2 ^ right) { src := myNode s, job := c.job, addr := addr + c.pos })
      | none => (none, s)
  match one s (dcSrcCap d) (dcSrc d) wRead with
  | (some k, s) => (some k, s)
  | (none, s) => one s (dcDstCap d) (dcDst d) (if dcOpc d = opcCOMPARE then wRead else if dcOpc d = opcREDUCE then wReduce else wWrite)

/-- A channel is preempted: its checkpoint is written and it waits for the engine (R324). -/
def preempt (s : State) (ch : Nat) : State :=
  let c := chan s ch
  match storeRecord s ch c.job (dcCkpt c.desc) (checkpointBytes c 1) with
  | .hold s => s
  | .absent _ _ _ _ _ s | .stop _ _ s => haltChannel s ch { c with preempting := true }
  | .ok _ s => bump (setChan s ch { c with state := .preempted, preempting := false, retry := false }) (cMOVER_PREEMPTS (ch / 32))

/-- A step boundary: progress recorded, windows checked, preemption (R315, R324, R330, R332). -/
def stepBoundary (s : State) (ch : Nat) : State :=
  let c := chan s ch
  if c.state ≠ .running || c.ending.isSome || !boundaryDue c then s
  else
    let s := takePriorities s (ch / 4)
    let c := chan s ch
    let mark (s : State) : State := setChan s ch { c with stepPos := c.pos, stepCount := c.count, stepFirst := c.first, stepPsn := c.psn }
    match c.abort with
    | some st => endDescriptor (mark s) ch crABORTED st 0 false
    | none => match windowLost s c with
    | (some k, s) => if k = kTENANT_GONE then endDescriptor (mark s) ch crABORTED k 0 false else endDescriptor (mark s) ch crERROR k 0 true
    | (none, s) =>
      if 3 ≤ level s ∨ (regField s aMOVER_CFG 0 1 = 1 ∧ outranked s ch) then preempt (mark s) ch else mark s

/-- The end of a descriptor, or a failed write that RESUME asked to retry (R329, R331). -/
def descriptorEnd (s : State) (ch : Nat) : State :=
  let c := chan s ch
  if c.state = .halted ∧ !c.retry then s
  else if c.preempting then preempt s ch
  else writeEnding s ch

/-! ### Doorbells (R310, R311) -/

/-- Fields of a doorbell (Table 11-3). -/
def dbTail (p : Packet) : Nat := field p.payload 0 2
def dbOp (p : Packet) : Nat := field p.payload 2 2 % 4

/-- The channel of a doorbell address. -/
def doorbellChannel (addr : Nat) : Option Nat :=
  if 0x400000 ≤ addr ∧ addr < 0x400000 + 64 * 128 ∧ addr % 64 = 0 then some ((addr - 0x400000) / 64) else none

/-- What refuses a doorbell before it acts: the channel closed, another job, reserved fields, a tail too far (R308, R310, R311). -/
def doorbellRefusal (s : State) (ch : Nat) (p : Packet) : Option Nat :=
  let c := chan s ch
  if lenOf p ≠ 8 ∨ field p.payload 2 6 / 4 ≠ 0 ∨ dbOp p = 3 ∨ (dbOp p ≠ 0 ∧ dbTail p ≠ 0) then some kMALFORMED
  else if c.state = .closed then some kADDRESS_INVALID
  else if c.job ≠ p.job then some kACCESS_DENIED
  else if dbOp p = 0 then
    let n := gap 16 (dbTail p) c.tail
    if n = 0 ∨ 32768 ≤ n then none
    else if min (2 ^ c.ringLog2) 65535 < gap 16 (dbTail p) c.head then some kMALFORMED
    else none
  else none

/-- RING moves TAIL (R311). -/
def ring (s : State) (ch : Nat) (p : Packet) : State :=
  let c := chan s ch
  let n := gap 16 (dbTail p) c.tail
  if n = 0 ∨ 32768 ≤ n then s else setChan s ch { c with tail := dbTail p }

/-- RESUME (R327, R329). -/
def resumeBell (s : State) (ch : Nat) : State :=
  let c := chan s ch
  if c.ending.isSome && c.state ≠ .halted then s
  else match c.state with
    | .stopped => bump (setChan s ch { c with state := .preempted, resumed := true }) (cMOVER_RESUMES (ch / 32))
    | .halted =>
      let s := bump s (cMOVER_RESUMES (ch / 32))
      if c.unread && c.ending.isNone then setChan s ch { c with state := .idle, unread := false }
      else descriptorEnd (setChan s ch { c with retry := true }) ch
    | _ => s

/-- The descriptor at HEAD of a channel that is not running ends at once as ABORTED (R311). -/
def abortNow (s : State) (ch status : Nat) : State :=
  writeEnding (endDescriptor (setChan s ch { chan s ch with preempting := false, retry := true }) ch crABORTED status 0 false) ch

/-- ABORT, or an end that the module itself asks for, with its status (R307, R311, R328). -/
def abortChannel (s : State) (ch status : Nat) : State :=
  let c := chan s ch
  match c.state with
  | .running => if c.ending.isSome then s else setChan s ch { c with abort := some status }
  | .preempted | .stopped => abortNow s ch status
  | .halted =>
    if c.unread then
      match fetchDescriptor s ch with
      | .ok d s => abortNow (setChan s ch { c with desc := d, layout := [], unread := false }) ch status
      | .hold s => s
      | .absent _ _ _ _ _ s | .stop _ _ s => if c.closing then closeChannel s ch else s
    else abortNow s ch status
  | .idle =>
    if c.head = c.tail then s
    else match fetchDescriptor s ch with
      | .ok d s => abortNow (setChan s ch { c with desc := d, layout := [], pos := 0, first := 2 ^ 64 - 1, count := 0, psn := 0 }) ch status
      | .hold s => s
      | .absent _ _ _ _ _ s | .stop _ _ s => unreadable s ch
  | .closed => s

/-- A doorbell at its channel. -/
def serveDoorbell (s : State) (w : Waiter) (ch : Nat) : State :=
  let p := w.req.pkt
  match doorbellRefusal s ch p with
  | some k => failWith s w k 0 0
  | none =>
    let s := openDedup s p
    let s := if dbOp p = 0 then ring s ch p else if dbOp p = 1 then resumeBell s ch else abortChannel s ch kSUCCESS
    respondOk s w.req.lport p []

/-! ### Commands, removals and spares (R307, R328, R330) -/

/-- A channel is closed: its descriptor ends first (R307). -/
def askClose (s : State) (ch status : Nat) (by_ : Option Caller) : State :=
  let c := chan s ch
  let s := setChan s ch { c with closing := true, closeBy := by_ }
  if c.state = .idle ∨ c.state = .closed then closeChannel s ch else abortChannel s ch status

/-- The channels of a job close as it is removed (R307). -/
def closeJobChannels (s : State) (job : Nat) : State :=
  (List.range 128).foldl (fun st ch =>
    if (chan st ch).state ≠ .closed ∧ (chan st ch).job = job then askClose st ch kJOB_UNKNOWN (chan st ch).closeBy else st) s

/-- The descriptors of a tenant's jobs end as it is removed (R328). -/
def abortTenantChannels (s : State) (jobs : List Nat) : State :=
  (List.range 128).foldl (fun st ch =>
    let c := chan st ch
    if c.job ∈ jobs && !(c.state = .closed || c.state = .idle) then abortChannel st ch kTENANT_GONE else st) s

/-- An engine that is replaced restarts its running descriptor from its last recorded step (R330). -/
def restartEngine (s : State) (e : Nat) : State :=
  match runningOn s e with
  | some ch =>
    let c := chan s ch
    if c.ending.isSome then s
    else
      setChan (endUnit s (moverWho ch)) ch
        { c with pos := c.stepPos, count := c.stepCount, first := c.stepFirst, psn := if dcOpc c.desc = opcCOMPARE then c.stepPsn else c.psn }
  | none => s

/-- CH_STATE (Table 11-2). -/
def chCode (x : ChState) : Nat :=
  match x with
  | .closed => 0
  | .idle => 1
  | .running => 2
  | .preempted => 3
  | .stopped => 4
  | .halted => 5

end Sys2Proof.Machine
end

