-- ==== Sys2Proof/Machine/SieveProg.lean ====
section
/-! DEFINITION. Sieve programs: instructions and their validation (R289, R290), the mixer (R291), and the program slots (R293 to R295). -/

namespace Sys2Proof.Machine

/-! ### Instructions (Table 10-7) -/

def insOpc (i : Nat) : Nat := bits i 7 0
def insD (i : Nat) : Nat := bits i 11 8
def insA (i : Nat) : Nat := bits i 15 12
def insB (i : Nat) : Nat := bits i 19 16
def insC (i : Nat) : Nat := bits i 23 20
def insW (i : Nat) : Nat := bits i 25 24
def insS (i : Nat) : Bool := bit i 26
def insI (i : Nat) : Bool := bit i 27
def insQ (i : Nat) : Bool := bit i 28
def insImm (i : Nat) : Nat := bits i 63 32

/-- sign_extend(IMM) modulo 2^64. -/
def insSimm (i : Nat) : Nat := ofSigned 64 (toSigned 32 (insImm i))

/-- The fields an opcode uses (Table 10-8). -/
structure Uses where
  d : Bool := false
  a : Bool := false
  b : Bool := false
  c : Bool := false
  w : Bool := false
  s : Bool := false
  i : Bool := false
  q : Bool := false
  imm : Bool := false
  deriving DecidableEq, Repr

/-- The fields of each opcode; none for an opcode that does not exist (Table 10-8). -/
def opUses (o : Nat) : Option Uses :=
  if o = 0x00 then some {}
  else if o = 0x01 then some { d := true, w := true, s := true, imm := true }
  else if o = 0x02 then some { d := true, a := true, w := true, s := true, imm := true }
  else if o = 0x03 ∨ o = 0x04 then some { d := true, imm := true }
  else if 0x10 ≤ o ∧ o ≤ 0x16 then some { d := true, a := true, b := true, i := true }
  else if 0x17 ≤ o ∧ o ≤ 0x19 then some { d := true, a := true, b := true, s := true, i := true }
  else if o = 0x1A ∨ o = 0x38 then some { d := true, a := true }
  else if o = 0x1B ∨ o = 0x30 then some { d := true, a := true, imm := true }
  else if 0x20 ≤ o ∧ o ≤ 0x23 then some { d := true, a := true, b := true, s := true, i := true }
  else if o = 0x28 then some { d := true, a := true, b := true, c := true }
  else if o = 0x3C ∨ o = 0x3D ∨ o = 0x3E then some { a := true, q := true }
  else none

/-- Whether an instruction passes R290. -/
def goodIns (i : Nat) : Bool :=
  match opUses (insOpc i) with
  | none => false
  | some u =>
    decide (bits i 31 29 = 0) && (u.d || insD i = 0) && (u.a || insA i = 0) && ((u.b && !insI i) || insB i = 0) && (u.c || insC i = 0)
      && (u.w || insW i = 0) && (u.s || !insS i) && (u.i || !insI i) && (u.q || !insQ i) && (u.imm || insI i || insImm i = 0)
      && (insOpc i ≠ 0x01 || decide (insImm i < 2 ^ 8)) && (insOpc i ≠ 0x1B || decide (insImm i < 2 ^ 12))
      && (!(insOpc i = 0x3D || insOpc i = 0x3E) || insQ i || insA i = 0)

/-- The index of the first bad instruction of a program; 256 where only its length is wrong (R294). -/
def firstBad (l : List Nat) : Option Nat :=
  match (l.take 256).findIdx? fun i => !goodIns i with
  | some k => some k
  | none => if 256 < l.length then some 256 else if l = [] then some 0 else none

/-- Where the LDFs of a program end, and whether it holds a BMT (check 5 of R280). -/
def ldfEnd (l : List Nat) : Nat := l.foldl (fun m i => if insOpc i = 0x01 then max m (insImm i % 256 + 2 ^ insW i) else m) 0
def hasBmt (l : List Nat) : Bool := l.any fun i => insOpc i = 0x38

/-- The mixer of HASH (R291). -/
def mix (x : Nat) : Nat :=
  let x := x ^^^ (x >>> 33)
  let x := x * 0xFF51AFD7ED558CCD % 2 ^ 64
  let x := x ^^^ (x >>> 33)
  let x := x * 0xC4CEB9FE1A85EC53 % 2 ^ 64
  x ^^^ (x >>> 33)

/-- The number of 1 bits of a 64-bit value. -/
def popCount (v : Nat) : Nat := ((List.range 64).filter fun i => v.testBit i).length

/-- A 64-bit value as its order reads it, signed or not. -/
def asOrder (s : Bool) (v : Nat) : Int := if s then toSigned 64 v else v

/-- The result of a two-operand opcode (Table 10-8). -/
def aluOp (o : Nat) (s : Bool) (a b : Nat) : Nat :=
  match o with
  | 0x10 => (a + b) % 2 ^ 64
  | 0x11 => (a + 2 ^ 64 - b) % 2 ^ 64
  | 0x12 => a * b % 2 ^ 64
  | 0x13 => a &&& b
  | 0x14 => a ||| b
  | 0x15 => a ^^^ b
  | 0x16 => a <<< (b % 64) % 2 ^ 64
  | 0x17 => if s then ofSigned 64 (toSigned 64 a / (2 ^ (b % 64) : Nat)) else a >>> (b % 64)
  | 0x18 => if asOrder s b < asOrder s a then b else a
  | 0x19 => if asOrder s a < asOrder s b then b else a
  | 0x20 => flag (decide (a = b))
  | 0x21 => flag (decide (a ≠ b))
  | 0x22 => flag (decide (asOrder s a < asOrder s b))
  | 0x23 => flag (decide (asOrder s a ≤ asOrder s b))
  | _ => a

/-! ### Program slots (R293 to R295) -/

/-- A program slot. -/
def progSlot (s : State) (i : Nat) : ProgSlot := tgetD s.sieve.slots i {}

/-- The state with a program slot replaced. -/
def setSlot (s : State) (i : Nat) (x : ProgSlot) : State := { s with sieve := { s.sieve with slots := tset s.sieve.slots i x } }

/-- A slot becomes FREE. -/
def freeProg (s : State) (i : Nat) : State := { s with sieve := { s.sieve with slots := tdel s.sieve.slots i } }

/-- FILTER requests that use a slot. -/
def slotUsers (s : State) (i : Nat) : Nat := (s.sieve.reqs.filter fun e => e.2.sfn = 3 && field e.2.req.pkt.payload 0x46 1 = i).length

/-- The instruction bytes of a program. -/
def codeBytes (l : List Nat) : List Byte := l.flatMap (le 8)

/-- A part of a program arrives at its slot (R294). -/
def loadPart (s : State) (c : Caller) (i : Nat) (last : Bool) (owner part : Nat) (ins : List Nat) : State :=
  let x := progSlot s i
  let fits := if part = 0 then decide (x.state = .free) else decide (x.state = .loading ∧ part = x.nextPart ∧ owner = x.owner)
  if !fits then answer s c mbLOAD_SIEVE_PROGRAM mPROGRAM_SLOT_CONFLICT 0 []
  else
    let code := (if part = 0 then [] else x.code) ++ ins
    if !last then
      answerOk (setSlot s i { state := .loading, owner := owner, nextPart := part + 1, lastPart := s.now, code := code }) c mbLOAD_SIEVE_PROGRAM []
    else match firstBad code with
      | some k => answer (freeProg s i) c mbLOAD_SIEVE_PROGRAM mPROGRAM_INVALID k []
      | none =>
        let d := shake256 (codeBytes code) 64
        let s := setEvt (setSlot s i { state := .loaded, owner := owner, nextPart := part + 1, lastPart := s.now, code := code, digest := d }) aSIEVE_CFG 9
        answerOk s c mbLOAD_SIEVE_PROGRAM d

/-- A slot is unloaded (R295). -/
def unloadSlot (s : State) (c : Caller) (i : Nat) : State :=
  let x := progSlot s i
  match x.state with
  | .free => answer s c mbUNLOAD_SIEVE_PROGRAM mOBJECT_STATE_CONFLICT 0 []
  | .unloading => answerOk s c mbUNLOAD_SIEVE_PROGRAM []
  | _ =>
    let s := if x.state = .loaded && decide (0 < slotUsers s i) then setSlot s i { x with state := .unloading } else freeProg s i
    answerOk (setEvt s aSIEVE_CFG 9) c mbUNLOAD_SIEVE_PROGRAM []

/-- The code of a slot's state in QUERY_SIEVE_PROGRAM. -/
def slotCode (x : SlotState) : Nat :=
  match x with
  | .free => 0
  | .loading => 1
  | .loaded => 2
  | .unloading => 3

end Sys2Proof.Machine
end

