-- ==== Sys2Proof/Machine/Sieve.lean ====
section
/-! DEFINITION. The sieve engines: GATHER (R274 to R276), the checks of SIEVE requests (R277 to R280), their functions unit by unit (R284 to R287, R296, R300, R301), chunks, early stops and results (R272, R281 to R283, R298, R299). -/

namespace Sys2Proof.Machine

/-! ### GATHER (R274 to R276) -/

/-- Fields of a GATHER (Table 10-1). -/
def gaWide (p : Packet) : Nat := if bit p.oparg 2 then 8 else 4
def gaUniq (p : Packet) : Bool := bit p.oparg 3
def gaRsize (p : Packet) : Nat := (bits p.oparg 12 4 + 1) * 8

/-- The index list of a GATHER. -/
def gaList (p : Packet) : List Nat := (chunks (gaWide p) (lenOf p / gaWide p) p.payload).map unle

/-- The distinct indices with their first positions, ascending by position. -/
def firstUses : Nat → List Nat → List (Nat × Nat) → List (Nat × Nat)
  | _, [], acc => acc.reverse
  | k, i :: r, acc => firstUses (k + 1) r (if acc.any fun e => e.1 = i then acc else (i, k) :: acc)

/-- Fields of a GATHER that must be as R271 and Table 10-1 give them. -/
def gatherMalformed (p : Packet) : Bool :=
  decide (2 ^ 13 ≤ p.oparg ∨ 1 < p.oparg % 4 ∨ lenOf p = 0 ∨ lenOf p % gaWide p ≠ 0 ∨ p.pcnt ≠ 0)
    || (if p.oparg % 4 = 1 then decide (p.cap = 0) else decide (p.cap ≠ 0))

/-- The window checks of the records of a GATHER (R276). -/
def gatherWindow (s : State) (p : Packet) : List (Nat × Nat) → Option (Nat × Nat) × State
  | [] => (none, s)
  | (i, k) :: r => match checkWindow s p p.cap (p.addr + i * gaRsize p) (gaRsize p) wGather with
    | (some (c, _), s) => (some (c, gatherDetail c k p), s)
    | (none, s) => gatherWindow s p r

/-- The records of a GATHER that are ready: each index with its parts, or the state in which it is refused or held. One homed elsewhere is refused (R271). -/
def gatherReach (s : State) (w : Waiter) : List (Nat × Nat) → Except State (List (Nat × List Part) × State)
  | [] => .ok ([], s)
  | (i, k) :: r =>
    let p := w.req.pkt
    match reach s w.quarter (accessJob s w) p.job rightGather (accessVa s w + i * gaRsize p) (gaRsize p) with
    | (.fail c _, s) => .error (failWith s { w with pos := k } (if c = kREROUTE then kADDRESS_INVALID else c) 0 0)
    | (.absent page psize, s) => .error (parkOnFault s { w with pos := k } (accessJob s w) page psize false)
    | (.ok l, s) =>
      if l.any fun x => elsewhere s (leafNode x.leaf) then .error (failWith s { w with pos := k } kADDRESS_INVALID 0 0)
      else match linesHold s w.req.order false (partsOf l 0) with
      | (some (.busy c hint), s) => .error (failWith (bump s (cBEAD_BUSY_REFUSED (c / 32))) { w with pos := k } kBUSY 0 hint)
      | (some h, s) => .error (holdAccess s { w with pos := k } h)
      | (none, s) => match gatherReach s w r with
        | .ok (t, s) => .ok ((i, partsOf l 0) :: t, s)
        | .error s => .error s

/-- The parts of the records put out, one record for each position or, with UNIQ, for each first position (R275). -/
def gatherParts (p : Packet) (t : Table Nat (List Part)) : List Part :=
  let out := if gaUniq p then t.map (·.1) else gaList p
  (List.range out.length).flatMap fun k => (tgetD t (out.getD k 0) []).map fun x => { x with pos := x.pos + k * gaRsize p }

/-- An attempt of a GATHER, first or again (R276). -/
def attemptGather (s : State) (w : Waiter) : State :=
  let p := w.req.pkt
  if flowBlocked s p then waitFor s w .behind
  else match gatherReach s w (firstUses 0 (gaList p) []) with
    | .error s => s
    | .ok (t, s) =>
      let ps := gatherParts p t
      let s := countRead s (w.req.order = 0) (t.flatMap (·.2))
      let n := w.quarter
      let s := bumpBy (bumpBy (bump s (cSIEVE_REQUESTS n)) (cSIEVE_RECORDS n) (gaList p).length) (cSIEVE_OUT n)
        (if gaUniq p then t.length else (gaList p).length)
      respondData (leaveWindow s w) p (gatherData s ps)

/-- A GATHER that has passed its checks: a copy of one that waits here is acknowledged (R162). -/
def gatherOnce (s : State) (w : Waiter) : State :=
  if waitingCopy s w.req.pkt then ackPacket s w.req.lport w.req.pkt else attemptGather s w

/-- A GATHER as it arrives at its home (R271, R274, R276). -/
def serveGather (s : State) (r : Req) : State :=
  let p := r.pkt
  let w : Waiter := { req := r, why := .behind, quarter := quarterOf r.lport }
  if gatherMalformed p then refuseAtHome s w kMALFORMED 0 0
  else if p.addr % 8 ≠ 0 then refuseAtHome s w kMISALIGNED 0 0
  else if p.oparg % 4 = 1 then
    match gatherWindow s p (firstUses 0 (gaList p) []) with
    | (some (c, d), s) => refuseAtHome s w c d 0
    | (none, s) => gatherOnce s { w with win := some (capIndex p.cap) }
  else if !thas s.pool.jobs p.job then refuseAtHome s w kJOB_UNKNOWN 0 0
  else gatherOnce s w

/-! ### Parameters of SIEVE requests (Tables 10-2 to 10-4) -/

/-- SFN. -/
def sfnOf (p : Packet) : Nat := p.oparg % 16

/-- The functions. -/
def sfGATHER_MEM : Nat := 0
def sfSCATTER : Nat := 1
def sfSETOP : Nat := 2
def sfFILTER : Nat := 3
def sfDISPATCH : Nat := 4
def sfCOMBINE : Nat := 5

/-- A field of the parameter block: byte offset, lowest bit, width. -/
def prm (p : Packet) (off lo width : Nat) : Nat := field p.payload off 8 / 2 ^ lo % 2 ^ width

def pCount (p : Packet) : Nat := prm p 0x40 0 32
def pRsize (p : Packet) : Nat := prm p 0x44 0 16
def pIw (p : Packet) : Nat := if prm p 0x46 0 1 = 1 then 8 else 4
def pUniq (p : Packet) : Bool := prm p 0x46 1 1 = 1
def pTcount (p : Packet) : Nat := field p.payload 0x48 8
def pOutmax (p : Packet) : Nat := prm p 0x50 0 32
def pNb (p : Packet) : Nat := prm p 0x44 0 32
def pEw (p : Packet) : Nat := prm p 0x48 0 2
def pEwBytes (p : Packet) : Nat := if pEw p = 1 then 8 else 4
def pSop (p : Packet) : Nat := prm p 0x48 2 2
def pNoout (p : Packet) : Bool := prm p 0x48 4 1 = 1
def pSetMax (p : Packet) : Nat := prm p 0x4C 0 32
def pSlot (p : Packet) : Nat := prm p 0x46 0 8
def pOkind (p : Packet) : Bool := prm p 0x47 0 1 = 1
def pNbits (p : Packet) : Nat := field p.payload 0x58 8
def pTsize (p : Packet) : Nat := prm p 0x44 0 32
def pH (p : Packet) : Nat := prm p 0x44 0 16
def pFmt (p : Packet) : Nat := prm p 0x46 0 5
def pRfmt (p : Packet) : Nat := prm p 0x46 5 5
def pRmode (p : Packet) : Bool := prm p 0x46 10 1 = 1
def pSat (p : Packet) : Bool := prm p 0x46 11 1 = 1
def pNexp (p : Packet) : Nat := prm p 0x48 0 16
def pK (p : Packet) : Nat := prm p 0x4A 0 8
def pPolicy (p : Packet) : Nat := prm p 0x4B 0 1
def pChain (p : Packet) : Bool := prm p 0x4B 1 1 = 1
def pCap (p : Packet) : Nat := prm p 0x4C 0 32

/-- The listed fields of the parameter block of a function, as lowest bit and width from offset 0x40. -/
def prmFields (sfn : Nat) : List (Nat × Nat) :=
  match sfn with
  | 0 => [(0, 32), (32, 16), (48, 2), (64, 64), (128, 32)]
  | 1 => [(0, 32), (32, 16), (48, 1), (64, 64)]
  | 2 => [(0, 32), (32, 32), (64, 5), (96, 32)]
  | 3 => [(0, 32), (32, 16), (48, 8), (56, 1), (64, 64), (128, 32), (192, 64), (256, 256)]
  | 4 => [(0, 32), (32, 32), (64, 16), (80, 8), (88, 2), (96, 32)]
  | _ => [(0, 32), (32, 16), (48, 12), (64, 16), (80, 8), (96, 32)]

/-- Fields not listed are zero (R279). -/
def prmClean (p : Packet) : Bool :=
  decide ((prmFields (sfnOf p)).foldl (fun v f => setBits v f.1 f.2 0) (field p.payload 0x40 64) = 0)

/-- The ranges of Table 10-4. -/
def prmInRange (p : Packet) : Bool :=
  let experts : Bool := decide (1 ≤ pCount p ∧ pCount p ≤ 2 ^ 24 ∧ 1 ≤ pNexp p ∧ pNexp p ≤ 1024 ∧ 1 ≤ pK p ∧ pK p ≤ 8
    ∧ 1 ≤ pCap p ∧ pCap p ≤ 2 ^ 20)
  match sfnOf p with
  | 0 => decide (1 ≤ pCount p ∧ 8 ≤ pRsize p ∧ pRsize p ≤ 4096 ∧ pRsize p % 8 = 0 ∧ 1 ≤ pTcount p) && (!pUniq p || decide (pCount p ≤ 2 ^ 20))
  | 1 => decide (1 ≤ pCount p ∧ 8 ≤ pRsize p ∧ pRsize p ≤ 4096 ∧ pRsize p % 8 = 0 ∧ 1 ≤ pTcount p)
  | 2 => decide (1 ≤ pCount p ∧ pCount p < 2 ^ 31 ∧ 1 ≤ pNb p ∧ pNb p < 2 ^ 31 ∧ pEw p < 3 ∧ pSop p < 3)
      && (pEw p ≠ 2 || decide (pCount p % 1024 = 0 ∧ pNb p = pCount p)) && (!(pEw p = 2 || pNoout p) || pSetMax p = 0)
  | 3 => decide (1 ≤ pCount p ∧ 8 ≤ pRsize p ∧ pRsize p ≤ 256 ∧ pRsize p % 8 = 0 ∧ pSlot p < 64 ∧ 1 ≤ pOutmax p ∧ pNbits p ≤ 2 ^ 32)
  | 4 => experts && decide (128 ≤ pTsize p ∧ pTsize p ≤ 32768 ∧ pTsize p % 128 = 0)
  | 5 => experts && decide (32 ≤ pH p ∧ pH p ≤ 16384 ∧ pH p % 32 = 0 ∧ pFmt p ∈ [8, 9, 10, 12, 13] ∧ pRfmt p ∈ [8, 9, 10, 12, 13])
  | _ => false

/-- MOFF, OSTRIDE and DSTRIDE (R278). -/
def pMoff (p : Packet) : Nat := ceilDiv (4 * pCount p * pK p) 128 * 128
def pOstride (p : Packet) : Nat := ceilDiv (pH p * inBytes (pFmt p)) 128 * 128
def pDstride (p : Packet) : Nat := ceilDiv (pH p * inBytes (pRfmt p)) 128 * 128

/-- An operand that a function uses: its number, its extent, and whether it is written (Table 10-3). -/
structure Extent where
  o : Nat
  len : Nat
  wr : Bool := false
  deriving DecidableEq, Repr

/-- The operands a request uses. -/
def extents (p : Packet) : List Extent :=
  match sfnOf p with
  | 0 => [⟨0, pCount p * pIw p, false⟩, ⟨1, pTcount p * pRsize p, false⟩, ⟨2, (if pOutmax p = 0 then pCount p else pOutmax p) * pRsize p, true⟩]
  | 1 => [⟨0, pCount p * pIw p, false⟩, ⟨1, pCount p * pRsize p, false⟩, ⟨2, pTcount p * pRsize p, true⟩]
  | 2 =>
    let n := fun c => if pEw p = 2 then c / 8 else c * pEwBytes p
    [⟨0, n (pCount p), false⟩, ⟨1, n (pNb p), false⟩]
      ++ (if pNoout p then [] else [⟨2, if pEw p = 2 then pCount p / 8 else pSetMax p * pEwBytes p, true⟩])
  | 3 => [⟨0, pCount p * pRsize p, false⟩] ++ (if pNbits p = 0 then [] else [⟨1, ceilDiv (pNbits p) 8, false⟩])
      ++ [⟨2, pOutmax p * (if pOkind p then 8 else pRsize p), true⟩]
  | 4 => [⟨0, pCount p * pTsize p, false⟩, ⟨1, pCount p * pK p * 8, false⟩, ⟨2, pNexp p * pCap p * pTsize p, true⟩,
      ⟨3, pMoff p + 4 * pNexp p, true⟩]
  | _ => [⟨0, pNexp p * pCap p * pOstride p, false⟩, ⟨1, pCount p * pK p * 8, false⟩, ⟨2, pCount p * pK p * 4, false⟩,
      ⟨3, pCount p * pDstride p, true⟩]

/-- The address and capability of an operand. -/
def opAddr (p : Packet) (o : Nat) : Nat := field p.payload (16 * o) 8
def opCap (p : Packet) (o : Nat) : Nat := field p.payload (16 * o + 8) 8

/-- Whether a request uses an operand. -/
def opUsed (p : Packet) (o : Nat) : Bool := (extents p).any fun e => e.o = o

/-- A used operand is missing, or an unused one is not zero (check 1 of R280). -/
def opMissing (p : Packet) (o : Nat) : Bool := opUsed p o = (decide (opAddr p o = 0) && decide (opCap p o = 0))

/-- A written operand overlaps another operand of the same capability (check 1 of R280). -/
def opsOverlap (p : Packet) : Bool :=
  (extents p).any fun x => x.wr && (extents p).any fun y =>
    decide (x.o ≠ y.o ∧ opCap p x.o = opCap p y.o ∧ 0 < x.len ∧ 0 < y.len) && overlap (opAddr p x.o) x.len (opAddr p y.o) y.len

/-- Check 1 of R280, and R277. -/
def sieveMalformed (p : Packet) : Bool :=
  decide (p.addr ≠ 0 ∨ p.cap ≠ 0 ∨ lenOf p ≠ 128 ∨ p.pcnt ≠ 0 ∨ 6 ≤ p.oparg) || !prmClean p || !prmInRange p
    || (List.range 4).any (opMissing p) || opsOverlap p

/-- The units of a request, and how many a chunk holds (R272). -/
def unitTotal (p : Packet) : Nat := if sfnOf p = 2 ∧ pEw p ≠ 2 then pCount p + pNb p else pCount p
def chunkUnits (p : Packet) : Nat :=
  if sfnOf p = 2 then (if pEw p = 2 then 2 ^ 23 else 4096)
  else
    let u := match sfnOf p with
      | 0 | 1 => pIw p
      | 3 => pRsize p
      | 4 => pTsize p
      | _ => pK p * pOstride p
    max 1 (min 4096 (2 ^ 20 / u))

/-- The engines a request occupies (R272, R280). -/
def enginesOf (s : State) (p : Packet) : Nat :=
  if sfnOf p = 2 then 1 else min (clamp 1 16 (regField s aSIEVE_CFG 0 5)) (ceilDiv (unitTotal p) (chunkUnits p))

/-! ### Checks before acceptance (R280) -/

/-- Checks 3 to 5 of R280: the code of the refusal. -/
def filterRefusal (s : State) (p : Packet) : Option Nat :=
  if sfnOf p ≠ sfFILTER then none
  else if 1 ≤ level s then some kSIEVE_PAUSED
  else
    let x := progSlot s (pSlot p)
    if x.state ≠ .loaded ∨ field x.digest 0 8 ≠ field p.payload 0x48 8 ∨ (x.owner ≠ 0 ∧ x.owner ≠ p.job) then some kPROGRAM_NOT_LOADED
    else if pRsize p < ldfEnd x.code ∨ (hasBmt x.code ∧ pNbits p = 0) then some kMALFORMED
    else none

/-- Check 6 of R280 for the operands from one on. -/
def operandWindows (s : State) (p : Packet) : List Extent → Option (Nat × Nat) × State
  | [] => (none, s)
  | e :: r =>
    if opCap p e.o = 0 then operandWindows s p r
    else match checkWindow s p (opCap p e.o) (opAddr p e.o) e.len (if e.wr then wWrite else wGather) with
      | (some x, s) => (some x, s)
      | (none, s) => operandWindows s p r

/-- The place of an operand. -/
def opBase (s : State) (p : Packet) (o : Nat) : Spot := placeAt s p.job (opCap p o) (opAddr p o)

/-- An operand translates to another home (R271). -/
def operandStrays (s : State) (p : Packet) : Bool :=
  (extents p).any fun e => straysFrom s (opBase s p e.o).job (opBase s p e.o).va e.len

/-- The quarter that homes the first line of operand A (R272); the ingress quarter where the page is not mapped. -/
def sieveQuarter (s : State) (p : Packet) (ingress : Nat) : Nat :=
  let x := opBase s p 0
  match walk s x.job x.va with
  | .leaf l e => if leafTier e = tierABSENT then ingress else lineQuarter s (lineOf (leafAddr l e x.va))
  | _ => ingress

/-- The windows of a request's operands. -/
def opWindows (p : Packet) : List Nat := ((extents p).filter fun e => opCap p e.o ≠ 0).map fun e => capIndex (opCap p e.o)

/-- The in-flight counts of a request's windows change together (R176). -/
def countWindows (s : State) (p : Packet) (f : Nat → Nat) : State :=
  (opWindows p).foldl (fun st i => modWindow st i fun x => { x with inflight := f x.inflight }) s

/-- A SIEVE request is accepted (R280): it waits behind a pending packet of its flow, and its chunks start after it. -/
def acceptSieve (s : State) (w : Waiter) (n staging : Nat) : State :=
  let p := w.req.pkt
  let behind := s.pool.waiters.any (fun x => flowBefore x.req.pkt p)
    || s.pool.pendingFlow.any (fun e => e.1.1 = p.src && e.1.2.1 = p.flow && hasFlag p fORDERED && earlierSeq e.1.2.2 p.fseq)
  if behind && parkFull s w.quarter then refuseAtHome s w kPARK_FULL 0 0
  else
    let (w, s) := accept s w
    let s := countWindows (bump s (cSIEVE_REQUESTS n)) p (· + 1)
    let s := if sfnOf p = 3 then
        let x := progSlot s (pSlot p)
        setSlot s (pSlot p) { x with requests := x.requests + 1 }
      else s
    let r : SieveReq := { req := w.req, quarter := n, sfn := sfnOf p, staging := staging }
    let s := { s with sieve := { s.sieve with reqs := tset s.sieve.reqs (p.src, p.msg) r } }
    let s := if staging = 0 then s else warnStaging s
    if behind then waitFor s w .behind else s

/-- A SIEVE request as it arrives at its home (R271, R280). -/
def serveSieve (s : State) (r : Req) : State :=
  let p := r.pkt
  let w : Waiter := { req := r, why := .behind, quarter := quarterOf r.lport }
  match dedupOf s p with
  | some d => absorbCopy s r.lport p d
  | none =>
    if sieveMalformed p then refuseAtHome s w kMALFORMED 0 0
    else if (extents p).any fun e => opAddr p e.o % 128 ≠ 0 then refuseAtHome s w kMISALIGNED 0 0
    else match filterRefusal s p with
      | some c =>
        if c = kSIEVE_PAUSED then
          let (h, s) := drawFree s
          refuseAtHome (bump s (cSIEVE_PAUSED_REFUSED w.quarter)) w c 0 (h % 65536)
        else refuseAtHome s w c 0 0
      | none =>
        if (extents p).any (fun e => opCap p e.o = 0) && !thas s.pool.jobs p.job then refuseAtHome s w kJOB_UNKNOWN 0 0
        else match operandWindows s p (extents p) with
          | (some (c, d), s) => refuseAtHome s w c d 0
          | (none, s) =>
            if operandStrays s p then refuseAtHome s w kADDRESS_INVALID 0 0 else
            let n := sieveQuarter s p w.quarter
            let need := if sfnOf p = 5 then 2 * pH p * enginesOf s p else 0
            if 2097152 < stagingUsed s n + need then refuseAtHome s w kSTAGING_FULL 0 20
            else if dedupFull s then refuseAtHome (bump s (cDEDUP_FULL_COUNT w.quarter)) w kDEDUP_FULL 0 0
            else acceptSieve s w n need

/-! ### Engine accesses -/

/-- Where a request's engines stand. -/
def sieveAt (r : SieveReq) : EngAt :=
  { who := (engSIEVE, r.req.pkt.src * 2 ^ 24 + r.req.pkt.msg, r.done), quarter := r.quarter, job := r.req.pkt.job, order := r.req.order }

/-- An engine reads bytes of an operand (R133, R282). -/
def engRead (s : State) (r : SieveReq) (o off len : Nat) : Eng Read := engFetch s (sieveAt r) (opBase s r.req.pkt o) off len rightGather

/-- An engine reads control data: poison in it stops the request with its code (Table 10-6). -/
def engControl (s : State) (r : SieveReq) (o off len : Nat) (at_ : Option Nat) : Eng (List Byte) :=
  (engRead s r o off len).andThen fun x s =>
    match x.code with
    | some c => .stop c at_ s
    | none => .ok x.d s

/-- Output lines counted as written as poison, each once (R281). -/
def noteBad (r : SieveReq) (ls : List Nat) : SieveReq := { r with badLines := r.badLines ++ ls.filter fun l => !(l ∈ r.badLines) }

/-- An engine writes bytes of an operand, as poison over every line they touch where they are poison; a line whose backing is gone keeps nothing and counts as poison (R127, R234, R282). -/
def engWrite (s : State) (r : SieveReq) (o off : Nat) (d : List Byte) (poison : Bool) : Eng SieveReq :=
  if d = [] then .ok r s
  else
    let x := opBase s r.req.pkt o
    (engReach s (sieveAt r) x off d.length rightWrite [] true).andThen fun l s =>
      let dead := (partsOf l 0).filter (partDead s)
      let r := if poison then noteBad r (linesOf off d.length) else noteBad r (dead.map fun x => (off + x.pos) / 128)
      .ok r (writePieces s x.job l d false poison)

/-! ### GATHER_MEM and SCATTER (R284, R285) -/

/-- The index at a list position, unless it is ready (R272). -/
def readIndex (s : State) (r : SieveReq) (i : Nat) : Eng Nat :=
  match tget r.ready i with
  | some x => .ok x.index s
  | none => (engControl s r 0 (i * pIw r.req.pkt) (pIw r.req.pkt) none).andThen fun d s => .ok (unle d) s

/-- A record of the table, read once for each distinct index of a chunk (R284). -/
def readRow (s : State) (r : SieveReq) (a : Nat) : Eng (Read × SieveReq) :=
  match tget r.rows a with
  | some x => .ok ({ d := x.d, bad := x.bad }, r) s
  | none => (engRead s r 1 (a * pRsize r.req.pkt) (pRsize r.req.pkt)).andThen fun x s =>
      .ok (x, { r with rows := tset r.rows a { d := x.d, bad := x.bad } }) s

/-- One index of a GATHER_MEM. -/
def gatherUnit (s : State) (r : SieveReq) : Eng SieveReq :=
  let p := r.req.pkt
  let rs := pRsize p
  (readIndex s r r.done).andThen fun a s =>
    if pTcount p ≤ a then .stop kADDRESS_INVALID none s
    else if pUniq p && decide (a ∈ r.seen) then .ok { r with done := r.done + 1 } s
    else
      let pos := if pUniq p then r.out + r.excess else r.done
      let r1 := if pUniq p then { r with seen := a :: r.seen } else r
      if (if pOutmax p = 0 then pCount p else pOutmax p) ≤ pos then .ok { r1 with excess := r.excess + 1, done := r.done + 1 } s
      else (readRow s r1 a).andThen fun x s =>
        (engWrite s x.2 2 (pos * rs) x.1.d x.1.code.isSome).andThen fun r2 s => .ok { r2 with out := r.out + 1, done := r.done + 1 } s

/-- One index of a SCATTER; a record that a higher list position has already replaced is not written (R285). -/
def scatterUnit (s : State) (r : SieveReq) : Eng SieveReq :=
  let p := r.req.pkt
  let rs := pRsize p
  (engControl s r 0 (r.done * pIw p) (pIw p) none).andThen fun d s =>
    let a := unle d
    if pTcount p ≤ a then .stop kADDRESS_INVALID none s
    else (engRead s r 1 (r.done * rs) rs).andThen fun x s =>
      let late := match tget r.placed a with
        | some i => decide (r.done < i)
        | none => false
      (if late then Eng.ok r s else engWrite s r 2 (a * rs) x.d x.code.isSome).andThen fun r1 s =>
        .ok { r1 with out := r.out + 1, done := r.done + 1, placed := if r.chunks = [] ∨ late then r1.placed else tset r1.placed a r.done } s

/-! ### SETOP (R286, R287) -/

/-- Whether a value is in the output, by the lists it was seen in. -/
def setWanted (sop : Nat) (a b : Bool) : Bool := if sop = 0 then a && b else if sop = 1 then a || b else a && !b

/-- The value that was being decided is put out. -/
def setEmit (s : State) (r : SieveReq) : Eng SieveReq :=
  let p := r.req.pkt
  match r.cur with
  | none => .ok r s
  | some (v, a, b) =>
    if !setWanted (pSop p) a b then .ok r s
    else if pNoout p then .ok { r with out := r.out + 1 } s
    else if pSetMax p ≤ r.out then .ok { r with excess := r.excess + 1 } s
    else (engWrite s r 2 (r.out * pEwBytes p) (le (pEwBytes p) v) false).andThen fun r1 s => .ok { r1 with out := r.out + 1 } s

/-- The next element of a list, checked against its predecessor (R282). -/
def setPeek (s : State) (r : SieveReq) (o i n last : Nat) : Eng (Option Nat) :=
  let w := pEwBytes r.req.pkt
  if n ≤ i then .ok none s
  else (engControl s r o (i * w) w none).andThen fun d s =>
    if unle d < last then .stop kMALFORMED (some (i + (if o = 1 then 2 ^ 31 else 0))) s else .ok (some (unle d)) s

/-- An element is taken from a list: it joins the value being decided, or that value is put out and it starts the next. -/
def setTake (s : State) (r : SieveReq) (v : Nat) (fromA : Bool) : Eng SieveReq :=
  let next (r : SieveReq) : SieveReq :=
    if fromA then { r with ia := r.ia + 1, lastA := v, done := r.done + 1 } else { r with ib := r.ib + 1, lastB := v, done := r.done + 1 }
  match r.cur with
  | some (u, a, b) =>
    if u = v then .ok (next { r with cur := some (u, a || fromA, b || !fromA) }) s
    else (setEmit s r).andThen fun r1 s => .ok (next { r1 with cur := some (v, fromA, !fromA) }) s
  | none => .ok (next { r with cur := some (v, fromA, !fromA) }) s

/-- One element of two lists in order; after the last, the value being decided is put out. -/
def setUnit (s : State) (r : SieveReq) : Eng SieveReq :=
  let p := r.req.pkt
  (setPeek s r 0 r.ia (pCount p) r.lastA).andThen fun va s =>
    (setPeek s r 1 r.ib (pNb p) r.lastB).andThen fun vb s =>
      let taken := match va, vb with
        | some a, some b => if a ≤ b then setTake s r a true else setTake s r b false
        | some a, none => setTake s r a true
        | none, some b => setTake s r b false
        | none, none => .ok r s
      taken.andThen fun r s =>
        if r.ia = pCount p ∧ r.ib = pNb p then (setEmit s r).andThen fun r1 s => .ok { r1 with cur := none } s else .ok r s

/-- One line of two bitmaps. -/
def bitmapUnit (s : State) (r : SieveReq) : Eng SieveReq :=
  let p := r.req.pkt
  let off := r.done / 8
  (engControl s r 0 off 128 none).andThen fun a s =>
    (engControl s r 1 off 128 none).andThen fun b s =>
      let x := List.zipWith (fun (a b : Byte) => if pSop p = 0 then a &&& b else if pSop p = 1 then a ||| b else a &&& ~~~b) a b
      let n := (x.map fun (c : Byte) => popCount c.toNat).foldl (· + ·) 0
      (if pNoout p then Eng.ok r s else engWrite s r 2 off x false).andThen fun r1 s =>
        .ok { r1 with out := r.out + n, done := r.done + 1024 } s

/-! ### FILTER (R288 to R298) -/

/-- A record being run: registers, emits in order (a value, or none for the record itself), line buffers, lines read, whether the record has ended and whether its emits count. -/
structure Vm where
  x : List Nat
  emits : List Nat := []
  bufs : List (Nat × List Byte)
  reads : Nat := 0
  ended : Bool := false
  /-- A program fault at that instruction (R298). -/
  fault : Option Nat := none
  deriving DecidableEq, Repr

/-- A register of the record. -/
def Vm.reg (m : Vm) (i : Nat) : Nat := m.x.getD i 0

/-- A register written. -/
def Vm.put (m : Vm) (i v : Nat) : Vm := { m with x := m.x.set i (v % 2 ^ 64) }

/-- A load from the record (LDF, LDX). -/
def vmLoad (s : State) (rec : Read) (k i off : Nat) (m : Vm) : Eng Vm :=
  let n := 2 ^ insW i
  if rec.d.length < off + n then .ok { m with ended := true, fault := some k } s
  else match rec.bad.find? fun b => decide (b.1 < off + n) && decide (off < b.1 + b.2.1) with
    | some b => .stop b.2.2 none s
    | none =>
      let v := field rec.d off n
      .ok (m.put (insD i) (if insS i then ofSigned 64 (toSigned (8 * n) v) else v)) s

/-- A bit of bitmap B, through the engine's 64 line buffers (R292). -/
def vmBmt (s : State) (r : SieveReq) (k i : Nat) (m : Vm) : Eng Vm :=
  let p := r.req.pkt
  let n := m.reg (insA i)
  if pNbits p ≤ n then .ok { m with ended := true, fault := some k } s
  else
    let l := n / 1024
    let bitOf (d : List Byte) : Nat := (d.getD (n % 1024 / 8) 0).toNat / 2 ^ (n % 8) % 2
    match tget m.bufs l with
    | some d => .ok (m.put (insD i) (bitOf d)) s
    | none => (engControl s r 1 (128 * l) (min 128 (ceilDiv (pNbits p) 8 - 128 * l)) none).andThen fun d s =>
        let m := { m with bufs := m.bufs.drop (m.bufs.length - 63) ++ [(l, d)], reads := m.reads + 1 }
        .ok (m.put (insD i) (bitOf d)) s

/-- One instruction (Table 10-8), at index `k`. -/
def vmStep (s : State) (r : SieveReq) (rec : Read) (k i : Nat) (m : Vm) : Eng Vm :=
  let o := insOpc i
  let a := m.reg (insA i)
  let b := if insI i then insSimm i else m.reg (insB i)
  let act := !insQ i || a ≠ 0
  if o = 0x01 then vmLoad s rec k i (insImm i % 256) m
  else if o = 0x02 then vmLoad s rec k i ((a + insSimm i) % 2 ^ 64) m
  else if o = 0x03 then .ok (m.put (insD i) (insSimm i)) s
  else if o = 0x04 then .ok (m.put (insD i) (m.reg (insD i) % 2 ^ 32 + insImm i * 2 ^ 32)) s
  else if (0x10 ≤ o ∧ o ≤ 0x19) ∨ (0x20 ≤ o ∧ o ≤ 0x23) then .ok (m.put (insD i) (aluOp o (insS i) a b)) s
  else if o = 0x1A then .ok (m.put (insD i) (popCount a)) s
  else if o = 0x1B then .ok (m.put (insD i) (a >>> (insImm i % 64) % 2 ^ (insImm i / 64 % 64 + 1))) s
  else if o = 0x28 then .ok (m.put (insD i) (if a ≠ 0 then m.reg (insB i) else m.reg (insC i))) s
  else if o = 0x30 then .ok (m.put (insD i) (mix (a ^^^ insSimm i))) s
  else if o = 0x38 then vmBmt s r k i m
  else if o = 0x3C then
    if !act then .ok m s
    else if m.emits.length = 8 then .ok { m with ended := true, fault := some k } s
    else .ok { m with emits := m.emits ++ [a] } s
  else if o = 0x3D then .ok (if act then { m with ended := true, emits := [] } else m) s
  else if o = 0x3E then .ok (if act then { m with ended := true } else m) s
  else .ok m s

/-- The instructions of a program run in order from index `k` (R288). -/
def vmRun (s : State) (r : SieveReq) (rec : Read) : Nat → List Nat → Vm → Eng Vm
  | _, [], m => .ok m s
  | k, i :: l, m =>
    if m.ended then .ok m s
    else match vmStep s r rec k i m with
      | .ok m s => vmRun s r rec (k + 1) l m
      | .hold s => .hold s
      | .absent j g z w b s => .absent j g z w b s
      | .stop c d s => .stop c d s

/-- A record's committed emits are written (R296). -/
def writeEmits (s : State) (rec : Read) : List Nat → SieveReq → Eng SieveReq
  | [], r => .ok r s
  | v :: l, r =>
    let p := r.req.pkt
    if pOutmax p ≤ r.out then writeEmits s rec l { r with excess := r.excess + 1 }
    else match (if pOkind p then engWrite s r 2 (8 * r.out) (le 8 v) false
        else engWrite s r 2 (pRsize p * r.out) rec.d rec.code.isSome) with
      | .ok r1 s => writeEmits s rec l { r1 with out := r.out + 1 }
      | .hold s => .hold s
      | .absent j g z w b s => .absent j g z w b s
      | .stop c d s => .stop c d s

/-- The program run on record `i`, unless it has been: the record, its emits or its fault, and the line buffers (R288, R292). -/
def filterRun (s : State) (r : SieveReq) (i : Nat) : Eng (Ahead × SieveReq) :=
  let p := r.req.pkt
  match tget r.ready i with
  | some x => .ok (x, r) s
  | none =>
    let code := (progSlot s (pSlot p)).code
    let x := [i] ++ (List.range 4).map (fun j => field p.payload (0x60 + 8 * j) 8) ++ List.replicate 11 0
    (engRead s r 0 (i * pRsize p) (pRsize p)).andThen fun rec s =>
      (vmRun s r rec 0 code { x := x, bufs := r.bufs }).andThen fun m s =>
        .ok ({ d := rec.d, bad := rec.bad, emits := m.emits, fault := m.fault }, { r with bufs := m.bufs })
          (bumpBy s (cSIEVE_BMT_READS r.quarter) m.reads)

/-- One record of a FILTER. -/
def filterUnit (s : State) (r : SieveReq) : Eng SieveReq :=
  (filterRun s r r.done).andThen fun x s =>
    match x.1.fault with
    | some k => .ok { x.2 with fault := some k, stop := some kPROGRAM_FAULT } s
    | none => (writeEmits s { d := x.1.d, bad := x.1.bad } x.1.emits x.2).andThen fun r1 s => .ok { r1 with done := r.done + 1 } s

/-! ### DISPATCH (R300) -/

/-- The expert of a route, none for a bad one. -/
def routeExpert (p : Packet) (b : List Byte) : Option Nat :=
  if field b 2 2 ≠ 0 ∨ pNexp p ≤ field b 0 2 then none else some (field b 0 2)

/-- The experts of the routes from one on, line by line; a bad or poisoned one stops with its token. -/
def readRoutes (s : State) (r : SieveReq) : Nat → Nat → List Nat → Eng (List Nat)
  | 0, _, acc => .ok acc s
  | fuel + 1, k, acc =>
    let p := r.req.pkt
    let n := min 16 (pCount p * pK p - k)
    if n = 0 then .ok acc s
    else match engControl s r 1 (8 * k) (8 * n) (some (k / pK p)) with
      | .ok d s =>
        let es := (chunks 8 n d).map (routeExpert p)
        match es.findIdx? (·.isNone) with
        | some j => .stop kMALFORMED (some ((k + j) / pK p)) s
        | none => readRoutes s r fuel (k + n) (acc ++ es.filterMap id)
      | .hold s => .hold s
      | .absent j g z w b s => .absent j g z w b s
      | .stop c d s => .stop c d s

/-- The pairs (token, choice) in the order P, as places t × K + k. -/
def dispatchOrder (p : Packet) : List Nat :=
  if pPolicy p = 0 then (List.range (pK p)).flatMap fun k => (List.range (pCount p)).map fun t => t * pK p + k
  else List.range (pCount p * pK p)

/-- The map words and the counts that the routes decide. -/
def placePairs (p : Packet) (experts : List Nat) (counts : List Nat) : List Nat × List Nat :=
  (dispatchOrder p).foldl (fun st i =>
    let e := experts.getD i 0
    let c := st.2.getD e 0
    if c < pCap p then (st.1.set i c, st.2.set e (c + 1)) else (st.1.set i 0xFFFFFFFF, st.2))
    (List.replicate (pCount p * pK p) 0, counts)

/-- The counts a dispatch starts from. -/
def startCounts (s : State) (r : SieveReq) : Eng (List Nat) :=
  let p := r.req.pkt
  if !pChain p then .ok (List.replicate (pNexp p) 0) s
  else (engControl s r 3 (pMoff p) (4 * pNexp p) (some 0)).andThen fun d s =>
    .ok ((chunks 4 (pNexp p) d).map fun b => min (unle b) (pCap p)) s

/-- The plan of a DISPATCH: every route is read, then the map and the counts are written. -/
def planDispatch (s : State) (r : SieveReq) : Eng SieveReq :=
  let p := r.req.pkt
  (readRoutes s r (pCount p * pK p) 0 []).andThen fun experts s =>
    (startCounts s r).andThen fun counts s =>
      let (m, c) := placePairs p experts counts
      (engWrite s r 3 0 (m.flatMap (le 4)) false).andThen fun r1 s =>
        (engWrite s r1 3 (pMoff p) (c.flatMap (le 4)) false).andThen fun r2 s =>
          .ok { r2 with plan := some (List.zipWith (fun e w => if w = 0xFFFFFFFF then w else e * pCap p + w) experts m)
                        excess := (m.filter (· = 0xFFFFFFFF)).length } s

/-- A token is copied to its slots. -/
def copyToken (s : State) (row : Read) (tsize : Nat) : List Nat → SieveReq → Eng SieveReq
  | [], r => .ok r s
  | w :: l, r =>
    if w = 0xFFFFFFFF then copyToken s row tsize l r
    else match engWrite s r 2 (w * tsize) row.d row.code.isSome with
      | .ok r1 s => copyToken s row tsize l { r1 with out := r.out + 1 }
      | .hold s => .hold s
      | .absent j g z i b s => .absent j g z i b s
      | .stop c d s => .stop c d s

/-- One token of a DISPATCH; the plan is made before the first. -/
def dispatchUnit (s : State) (r : SieveReq) : Eng SieveReq :=
  let p := r.req.pkt
  match r.plan with
  | none => planDispatch s r
  | some m =>
    let slots := (m.drop (r.done * pK p)).take (pK p)
    if slots.all (· = 0xFFFFFFFF) then .ok { r with done := r.done + 1 } s
    else (engRead s r 0 (r.done * pTsize p) (pTsize p)).andThen fun row s =>
      (copyToken s row (pTsize p) slots r).andThen fun r1 s => .ok { r1 with done := r.done + 1 } s

/-! ### COMBINE (R301) -/

/-- An expert's row joins the accumulators of a token. -/
def joinRow (p : Packet) (gate : Num) (row : Read) (acc : List Elem) : List Elem :=
  let w := inBytes (pFmt p)
  (List.range (pH p)).map fun j =>
    let e := acc.getD j {}
    if row.badIn (w * j) w then { e with psn := true, empty := false, allnz := false }
    else accumulate e (termOf (mulNum (decodeFloat (floatFmt (pFmt p)) (field row.d (w * j) w)) gate))

/-- The rows of a token's pairs: row number and gate. -/
def joinRows (s : State) (r : SieveReq) : List (Nat × Num) → List Elem → Eng (List Elem)
  | [], acc => .ok acc s
  | (k, g) :: l, acc =>
    let p := r.req.pkt
    match engRead s r 0 (k * pOstride p) (pH p * inBytes (pFmt p)) with
    | .ok row s => joinRows s r l (joinRow p g row acc)
    | .hold s => .hold s
    | .absent j a z i b s => .absent j a z i b s
    | .stop c d s => .stop c d s

/-- A token's output row, line by line. -/
def writeRow (s : State) (off : Nat) (w : Nat) (out : List (Option Nat)) : Nat → Nat → SieveReq → Eng SieveReq
  | 0, _, r => .ok r s
  | fuel + 1, k, r =>
    let n := 128 / w
    let es := (out.drop (n * k)).take n
    if es = [] then .ok r s
    else match engWrite s r 3 (off + 128 * k) (es.flatMap fun e => le w (e.getD 0)) (es.any (·.isNone)) with
      | .ok r1 s => writeRow s off w out fuel (k + 1) r1
      | .hold s => .hold s
      | .absent j a z i b s => .absent j a z i b s
      | .stop c d s => .stop c d s

/-- The pairs of a token: rows and gates, or none where a route or a map entry is bad (Table 10-6). -/
def combinePairs (p : Packet) (routes map : List Byte) : Option (List (Nat × Num)) :=
  let l := (List.range (pK p)).map fun k =>
    let rt := (routes.drop (8 * k)).take 8
    let w := field map (4 * k) 4
    match routeExpert p rt with
    | none => none
    | some e => if w = 0xFFFFFFFF then some none else if pCap p ≤ w then none else some (some (e * pCap p + w, decodeFloat fFP32 (field rt 4 4)))
  if l.any (·.isNone) then none else some (l.filterMap fun x => x.getD none)

/-- One token of a COMBINE. -/
def combineUnit (s : State) (r : SieveReq) : Eng SieveReq :=
  let p := r.req.pkt
  let t := r.done
  (engControl s r 1 (8 * pK p * t) (8 * pK p) none).andThen fun routes s =>
    (engControl s r 2 (4 * pK p * t) (4 * pK p) none).andThen fun map s =>
      match combinePairs p routes map with
      | none => .stop kMALFORMED none s
      | some pairs => (joinRows s r pairs (freshElems .l (pH p))).andThen fun acc s =>
          let out := acc.map (roundElem (floatFmt (pRfmt p)) (pRmode p) (pSat p))
          let w := inBytes (pRfmt p)
          (writeRow s (t * pDstride p) w out out.length 0 r).andThen fun r1 s => .ok { r1 with out := r.out + 1, done := t + 1 } s

/-! ### Chunks (R272, R282, R283, R299) -/

/-- One unit of a request. -/
def sieveUnit (s : State) (r : SieveReq) : Eng SieveReq :=
  let p := r.req.pkt
  match r.sfn with
  | 0 => gatherUnit s r
  | 1 => scatterUnit s r
  | 2 => if pEw p = 2 then bitmapUnit s r else setUnit s r
  | 3 => filterUnit s r
  | 4 => dispatchUnit s r
  | _ => combineUnit s r

/-- A unit of a request is done: its engine, one of the quarter's 16 by its chunk, handshakes once for 128 bytes (R49; log entry 43). -/
def sieveStep (s : State) (r : SieveReq) (i : Nat) : State :=
  let p := r.req.pkt
  let bytes := match r.sfn with
    | 0 | 1 => pRsize p
    | 2 => if pEw p = 2 then 256 else pEwBytes p
    | 3 => pRsize p
    | 4 => pTsize p
    | _ => pK p * pOstride p
  handshake (endUnit s (sieveAt { r with done := i }).who) .sieve (16 * r.quarter + i / chunkUnits p % 16) (ceilDiv bytes 128) false

/-- The state with a request's progress written. -/
def putSieve (s : State) (k : Nat × Nat) (r : SieveReq) : State := { s with sieve := { s.sieve with reqs := tset s.sieve.reqs k r } }

/-- A request parks on an absent page with one parking entry, or stops when there is none (R283). -/
def parkSieve (s : State) (k : Nat × Nat) (r : SieveReq) (job page psize : Nat) (win : Option Nat) (wr : Bool) : State :=
  let w : Waiter := { req := r.req, why := .behind, win := win, quarter := r.quarter }
  let s := putSieve s k r
  if parkFull s r.quarter then stopSieve (setEvt (bump s (cPARK_FULL_COUNT r.quarter)) aMEMOP_CFG 8) k kPARK_FULL
  else parkOnFault s w job page psize wr

/-- The units of a chunk up to `last`, until one is held, parks, stops or faults. -/
def runUnits (s : State) (k : Nat × Nat) (last : Nat) : Nat → SieveReq → State
  | 0, r => putSieve s k r
  | fuel + 1, r =>
    if r.stop.isSome then putSieve s k r
    else if unitTotal r.req.pkt ≤ r.done then putSieve s k { r with finished := true }
    else if last ≤ r.done then putSieve s k r
    else match sieveUnit s r with
      | .ok r1 s => runUnits (sieveStep s r r.done) k last fuel r1
      | .hold s => putSieve s k r
      | .absent job page psize win wr s => parkSieve (endUnit s (sieveAt r).who) k r job page psize win wr
      | .stop c d s => putSieve (endUnit s (sieveAt r).who) k { r with stop := some c, stopDone := d }

/-- What stops a request at a chunk start: its windows, checked and reported as any access through them (R168), its job (Table 10-6). -/
def chunkStop (s : State) (r : SieveReq) : Option Nat × State :=
  let p := r.req.pkt
  match operandWindows s p (extents p) with
  | (some (c, _), s) => (some (if c = kTENANT_GONE then c else kWINDOW_REVOKED), s)
  | (none, s) =>
    if (extents p).any (fun e => opCap p e.o = 0) && !thas s.pool.jobs p.job then (some kJOB_UNKNOWN, s)
    else if r.sfn = 3 ∧ 3 ≤ level s then (some kSIEVE_PAUSED, s)
    else (none, s)

/-- A request's page is not mapped yet: it is parked. -/
def sieveParked (s : State) (k : Nat × Nat) : Bool := s.pool.waiters.any fun w => w.req.pkt.op = opSIEVE && decide ((w.req.pkt.src, w.req.pkt.msg) = k)

/-- The chunks of a request run in index order on one engine, each from where the one before left off: SETOP, and the planning of a DISPATCH (R272). -/
def runInOrder (s : State) (k : Nat × Nat) (r : SieveReq) : State :=
  let n := chunkUnits r.req.pkt
  let starts := decide (r.done % n = 0)
  if sieveParked s k then s
  else match (if starts then chunkStop s r else (none, s)) with
    | (some c, s) => putSieve s k { r with stop := some c }
    | (none, s) =>
      let last := min (unitTotal r.req.pkt) ((r.done / n + 1) * n)
      runUnits s k last (if r.sfn = 4 then 1 else n + 2) r

/-! Chunks that do not wait for each other (R272, R283). -/

/-- The outputs of a chunk do not depend on the chunks before it: GATHER_MEM without UNIQ, SCATTER, COMBINE, and DISPATCH once it is planned. -/
def freeChunks (r : SieveReq) : Bool := decide (r.sfn = 1 ∨ r.sfn = 5) || (decide (r.sfn = 0) && !pUniq r.req.pkt) || (decide (r.sfn = 4) && r.plan.isSome)

/-- The engines that a request may occupy now: a COMBINE no more than it reserved for (R280). -/
def openLimit (s : State) (r : SieveReq) : Nat :=
  let p := r.req.pkt
  if r.sfn = 5 then min (enginesOf s p) (r.staging / (2 * pH p)) else enginesOf s p

/-- The results that the units below `u` give (R282, Table 10-5). -/
def upTo (r : SieveReq) (u : Nat) : SieveReq :=
  let p := r.req.pkt
  match r.sfn with
  | 0 =>
    if pUniq p then r else
    let lim := if pOutmax p = 0 then pCount p else pOutmax p
    { r with done := u, out := min u lim, excess := u - lim }
  | 4 => { r with done := u, out := (((r.plan.getD []).take (u * pK p)).filter (· ≠ 0xFFFFFFFF)).length }
  | 3 => r
  | _ => { r with done := u, out := u, excess := 0 }

/-- A chunk put back among those that have started, in index order. -/
def openChunk (r : SieveReq) (c : SieveChunk) : SieveReq := { r with chunks := sortBy (fun x => x.last) (c :: r.chunks) }

/-- A request whose chunks have all run has ended. -/
def closeChunks (r : SieveReq) : SieveReq :=
  if r.chunks = [] ∧ r.cut = none ∧ unitTotal r.req.pkt ≤ r.nextUnit then { upTo r (unitTotal r.req.pkt) with finished := true } else r

/-- A chunk meets an absent page: it takes the request's parking entry, or waits while another chunk holds it (R283). -/
def parkChunk (s : State) (k : Nat × Nat) (r : SieveReq) (c : SieveChunk) (job page psize : Nat) (win : Option Nat) (wr : Bool) : State :=
  if sieveParked s k then putSieve s k (openChunk r { c with waits := true })
  else if parkFull s r.quarter then putSieve (setEvt (bump s (cPARK_FULL_COUNT r.quarter)) aMEMOP_CFG 8) k (cutSieve (openChunk r c) kPARK_FULL c.pos)
  else parkOnFault (putSieve s k (openChunk r { c with parked := true })) { req := r.req, why := .behind, win := win, quarter := r.quarter } job page psize wr

/-- The units of one chunk of a request whose other started chunks stand in `r`. -/
def runChunk (s : State) (k : Nat × Nat) : Nat → SieveChunk → SieveReq → State
  | 0, c, r => putSieve s k (openChunk r c)
  | fuel + 1, c, r =>
    if c.last ≤ c.pos then putSieve s k (closeChunks r)
    else
      let who := (sieveAt { r with done := c.pos }).who
      match sieveUnit s { r with done := c.pos, rows := c.rows } with
      | .ok r1 s => runChunk (sieveStep s r c.pos) k fuel { c with pos := c.pos + 1, rows := r1.rows } r1
      | .hold s => putSieve s k (openChunk r { c with waits := true })
      | .absent job page psize win wr s => parkChunk (endUnit s who) k r c job page psize win wr
      | .stop code _ s => putSieve (endUnit s who) k (cutSieve r code c.pos)

/-- A chunk that has started goes on. -/
def resumeChunk (s : State) (k : Nat × Nat) (r : SieveReq) (c : SieveChunk) : State :=
  let c' := { c with waits := false }
  let r' := { r with chunks := r.chunks.erase c }
  if (extents r.req.pkt).any (fun e => opCap r.req.pkt e.o = 0) && !thas s.pool.jobs r.req.pkt.job then putSieve s k (cutSieve r' kJOB_UNKNOWN c.pos)
  else runChunk s k (c.last - c.pos + 1) c' r'

/-- One chunk runs: one that has started and can go on, the next one while an engine is free, or one that waited. -/
def runFree (s : State) (k : Nat × Nat) (r : SieveReq) : State :=
  let r := if sieveParked s k then r else { r with chunks := r.chunks.map fun c => { c with parked := false } }
  match r.chunks.find? fun c => !c.parked && !c.waits with
  | some c => resumeChunk s k r c
  | none =>
    if r.chunks.length < openLimit s r ∧ r.nextUnit < unitTotal r.req.pkt ∧ r.cut = none then
      match chunkStop s r with
      | (some code, s) => putSieve s k (cutSieve r code r.nextUnit)
      | (none, s) =>
        let last := min (unitTotal r.req.pkt) (r.nextUnit + chunkUnits r.req.pkt)
        runChunk s k (last - r.nextUnit + 1) { pos := r.nextUnit, last := last } { r with nextUnit := last }
    else match r.chunks.find? fun c => !c.parked with
      | some c => resumeChunk s k { r with chunks := r.chunks.map fun x => { x with waits := false } } { c with waits := false }
      | none => putSieve s k (closeChunks r)

/-! Chunks whose outputs follow each other: every chunk that has started reads and decides, and the lowest one takes effect (R272, R283). -/

/-- A unit of a chunk above the lowest is made ready. -/
def aheadUnit (s : State) (r : SieveReq) (i : Nat) : Eng SieveReq :=
  if r.sfn = 3 then (filterRun s r i).andThen fun x s => .ok { x.2 with ready := tset x.2.ready i x.1 } s
  else (readIndex s r i).andThen fun a s => .ok { r with ready := tset r.ready i { index := a } } s

/-- The units of a chunk above the lowest are made ready up to one that cannot be, which waits until the chunk is the lowest. -/
def runAhead (s : State) (k : Nat × Nat) : Nat → SieveChunk → SieveReq → State
  | 0, c, r => putSieve s k (openChunk r c)
  | fuel + 1, c, r =>
    if c.last ≤ c.pos then putSieve s k (openChunk r { c with waits := true })
    else
      let who := (sieveAt { r with done := c.pos }).who
      match aheadUnit s { r with bufs := c.bufs } c.pos with
      | .ok r1 s => runAhead (endUnit s who) k fuel { c with pos := c.pos + 1, bufs := r1.bufs } r1
      | .hold s => putSieve s k (openChunk r { c with waits := true })
      | .absent job page psize win wr s => parkChunk (endUnit s who) k r c job page psize win wr
      | .stop _ _ s => putSieve (endUnit s who) k (openChunk r { c with waits := true })

/-- The units of the lowest chunk take effect. -/
def runHead (s : State) (k : Nat × Nat) : Nat → SieveChunk → SieveReq → State
  | 0, c, r => putSieve s k (openChunk r c)
  | fuel + 1, c, r =>
    if r.stop.isSome then putSieve s k r
    else if c.last ≤ r.done then putSieve s k (closeChunks { r with chunks := r.chunks.map fun x => { x with waits := false } })
    else match sieveUnit s { r with bufs := c.bufs, rows := c.rows } with
      | .ok r1 s => runHead (sieveStep s r r.done) k fuel { c with pos := max c.pos r1.done, bufs := r1.bufs, rows := r1.rows } { r1 with ready := tdel r1.ready r.done }
      | .hold s => putSieve s k (openChunk r { c with waits := true })
      | .absent job page psize win wr s => parkChunk (endUnit s (sieveAt r).who) k r { c with pos := r.done } job page psize win wr
      | .stop code d s => putSieve (endUnit s (sieveAt r).who) k { r with stop := some code, stopDone := d }

/-- A chunk of such a request goes on. -/
def resumeOrdered (s : State) (k : Nat × Nat) (r : SieveReq) (c : SieveChunk) : State :=
  let p := r.req.pkt
  let head := decide (c.first ≤ r.done)
  if (extents p).any (fun e => opCap p e.o = 0) && !thas s.pool.jobs p.job then putSieve s k (cutSieve r kJOB_UNKNOWN (if head then r.done else c.pos))
  else
    let c' := { c with waits := false }
    let r' := { r with chunks := r.chunks.erase c }
    if head then runHead s k (c.last - r.done + 2) c' r' else runAhead s k (c.last - c.pos + 2) c' r'

/-- One chunk runs: one that has started and can go on, the next one while an engine is free and no shed level holds a FILTER (R299), or one that waited. -/
def runOrdered (s : State) (k : Nat × Nat) (r : SieveReq) : State :=
  let r := if sieveParked s k then r else { r with chunks := r.chunks.map fun c => { c with parked := false } }
  match r.chunks.find? fun c => !c.parked && !c.waits with
  | some c => resumeOrdered s k r c
  | none =>
    let more := decide (r.chunks.length < openLimit s r ∧ r.nextUnit < unitTotal r.req.pkt ∧ r.cut = none)
    if more && !decide (r.sfn = 3 ∧ 1 ≤ level s ∧ level s < 3) then
      match chunkStop s r with
      | (some code, s) => putSieve s k (cutSieve r code r.nextUnit)
      | (none, s) =>
        let last := min (unitTotal r.req.pkt) (r.nextUnit + chunkUnits r.req.pkt)
        let c : SieveChunk := { pos := r.nextUnit, last := last, first := r.nextUnit }
        resumeOrdered s k { r with nextUnit := last, paused := false, chunks := r.chunks ++ [c] } c
    else match r.chunks.find? fun c => !c.parked with
      | some c => resumeOrdered s k r c
      | none => putSieve s k (closeChunks { r with paused := more && r.chunks = [] })

/-- Units of an engine's request that were in hand when it ended are forgotten; their windows are counted with the request. -/
def forgetUnits (s : State) (who : Nat × Nat × Nat) : State :=
  { s with pool := { s.pool with looks := s.pool.looks.filter fun x => !(x.who.1 = who.1 && x.who.2.1 = who.2.1) } }

/-- The request has ended. -/
def sieveEnded (r : SieveReq) : Bool := r.finished || r.stop.isSome || (r.cut.isSome && r.chunks = [])

/-- A chunk of a request starts, or goes on where it was held (R272, R283, R299). -/
def startChunk (s : State) (k : Nat × Nat) : State :=
  match tget s.sieve.reqs k with
  | none => s
  | some r =>
    if sieveEnded r || flowBlocked s r.req.pkt then s
    else if freeChunks r then runFree s k r
    else if orderedChunks r then runOrdered s k r
    else runInOrder s k r

/-! ### The end of a request (R281, R298) -/

/-- The result of a request (Table 10-5). -/
def sieveResult (r : SieveReq) : List Byte :=
  le 4 r.out ++ le 4 r.excess ++ le 4 (r.stopDone.getD r.done) ++ le 2 (r.stop.getD 0) ++ le 2 (min 65535 r.badLines.length)

/-- A request that was cut ends with the results below the cut. -/
def cutShort (r : SieveReq) : SieveReq :=
  match r.cut with
  | some (code, u) => { upTo r u with stop := some code }
  | none => r

/-- What a request's end counts and reports. -/
def countSieve (s : State) (r : SieveReq) : State :=
  let n := r.quarter
  let s := bumpBy (bumpBy s (cSIEVE_RECORDS n) r.done) (cSIEVE_OUT n) r.out
  let s := if r.sfn = 4 ∧ 0 < r.excess then setEvt (bumpBy s (cSIEVE_DISPATCH_DROPS n) r.excess) aSIEVE_CFG 8 else s
  if r.fault.isSome then setEvt (bump s (cSIEVE_PROG_FAULTS n)) aSIEVE_CFG 6
  else if r.stop.isSome then setEvt (bump s (cSIEVE_STOPS n)) aSIEVE_CFG 7
  else s

/-- A request that has ended is answered (R281, R298). -/
def endSieve (s : State) (k : Nat × Nat) : State :=
  match tget s.sieve.reqs k with
  | none => s
  | some r =>
    if !sieveEnded r then s
    else
      let r := cutShort r
      let p := r.req.pkt
      let s := countSieve { s with sieve := { s.sieve with reqs := tdel s.sieve.reqs k } } r
      let s := forgetUnits (countWindows s p (· - 1)) (sieveAt r).who
      let s := if r.sfn = 3 ∧ (progSlot s (pSlot p)).state = .unloading ∧ slotUsers s (pSlot p) = 0 then freeProg s (pSlot p) else s
      match r.fault with
      | some i => respond s r.req.lport p kPROGRAM_FAULT i 0 (r.done + r.out % 2 ^ 32 * 2 ^ 32) []
      | none => respondOk s r.req.lport p (sieveResult r)

end Sys2Proof.Machine
end

