-- ==== Sys2Proof/Machine/Near.lean ====
section
/-! DEFINITION. The near tier in front of the trays: fills as they arrive (R217, R409), marks (R220), write-backs, the dirty budget and flushes (R221 to R223), and the loss of stacks and trays (R232 to R236). -/

namespace Sys2Proof.Machine

/-! ### Commands to trays (Table 8-5) -/

/-- A STORE to a tray: its address space, address and payload (R119, R221, R237). -/
def trayStore (s : State) (purpose : Purpose) (node aspace addr : Nat) (d : List Byte) : State :=
  sendOwn s purpose { tc := 0, op := opSTORE, dst := node, oparg := aspace, addr := addr, payload := d }

/-- The 72 bytes of DIRTY_MARK and POISON_LINES: the page's tray offset and the mask of its lines. -/
def pageMask (page : Nat) (ls : List Nat) : List Byte :=
  le 8 (offOf (page * 65536)) ++ le 64 (ls.foldl (fun m l => m ||| 2 ^ (l % 512)) 0)

/-- DIRTY_MARK of the lines of a page that wait for it (R220). -/
def sendMark (s : State) (page : Nat) : State :=
  match tget s.pool.toMark page with
  | none => s
  | some (ls, _) =>
    let s := { s with pool := { s.pool with toMark := tdel s.pool.toMark page } }
    let s := bump s (cNEAR_MARKS_SENT (lineQuarter s (page * 512)))
    trayStore s (.mark page ls) (nodeOf (page * 65536)) 3 0x1000 (pageMask page ls)

/-! ### Write-backs (R221, R236) -/

/-- A dirty line that may be written back now: good or poisoned, not Lost, not held by an owner, at rest, its tray reachable. -/
def mayWriteBack (s : State) (l : Nat) : Bool :=
  let i := lineInfo s l
  i.dirty && i.writing = 0 && !i.filling && (lostBy s l).isNone && trayReachable s (nodeOf (l * 128))
    && (match hlnOf s l with
        | some h => !thas s.coh.busy h && (match dirState s h with
            | some (.owned _) => false
            | _ => true)
        | none => true)

/-- A line is written back: its data, or POISON_LINES where it is poison; a protected line is encrypted, and its tag follows (R221, R236, R409). -/
def writeBack (s : State) (l : Nat) : State :=
  if !mayWriteBack s l then s
  else
    let i := lineInfo s l
    let s := bump s (cNEAR_WRITEBACKS (lineQuarter s l))
    let node := nodeOf (l * 128)
    if i.poison ≠ 0 then trayStore (setLine s l { i with writing := 1 }) (.poisonLines l) node 3 0x1100 (pageMask (l / 512) [l])
    else match i.slot with
      | some k =>
        let x := sealLine (keySlot s k) (l * 128) (lineBytes s l)
        let s := trayStore (setLine s l { i with writing := 2 }) (.writeBack l) node 2 (l * 128) x.1
        trayStore s (.writeBackTag l) node 2 (metaAddr (l * 128)) x.2
      | none => trayStore (setLine s l { i with writing := 1 }) (.writeBack l) node 2 (l * 128) (lineBytes s l)

/-- A line is clean: its tray holds it. -/
def cleanLine (s : State) (l : Nat) : State :=
  let s := setLine s l { lineInfo s l with dirty := false, writing := 0 }
  { s with pool := { s.pool with flushes := s.pool.flushes.map fun f => { f with lines := f.lines.filter (· ≠ l) } } }

/-- A tray is found unreachable (R233): the requests that wait on it are to look again. -/
def trayFailed (s : State) (node : Nat) : State :=
  if node ∈ s.pool.unreachable then s else { s with pool := { s.pool with unreachable := s.pool.unreachable ++ [node] } }

/-- A part of a write-back is answered: the line is clean once every part has landed, and stays dirty where one did not (R221). -/
def writeBackAnswered (s : State) (l : Nat) (ok : Bool) : State :=
  let i := lineInfo s l
  let bad := !ok || decide (4 ≤ i.writing)
  if i.writing = 0 then s
  else if i.writing % 4 = 1 then (if bad then setLine s l { i with writing := 0 } else cleanLine s l)
  else setLine s l { i with writing := i.writing % 4 - 1 + 4 * flag bad }

/-! ### The dirty budget (R222) -/

/-- CLEAN_START in percent. -/
def cleanStart (s : State) : Nat := clamp 20 95 (regField s aNEAR_CFG 8 7)

/-- The dirty lines of a quarter reach a percentage of its share. -/
def dirtyAbove (s : State) (n pct : Nat) : Bool := pct * budgetShare s ≤ 100 * (dirtyLines s n).length

/-- The lines a quarter writes back now to come below a number of dirty lines: the oldest-dirtied; those being written back already count as gone. -/
def cleanBatch (s : State) (n keep : Nat) : List Nat :=
  let ls := sortBy (fun l => (lineInfo s l).dirtyAt) ((dirtyLines s n).filter (mayWriteBack s))
  ls.take (((dirtyLines s n).filter fun l => (lineInfo s l).writing = 0).length - keep)

/-- The most dirty lines that lie below a percentage of a quarter's share. -/
def keepBelow (s : State) (pct : Nat) : Nat := (pct * budgetShare s - 1) / 100

/-- A quarter's write-back runs from CLEAN_START down to 10 points below it (R222). -/
def cleanQuarter (s : State) (n : Nat) : State :=
  if n ∈ s.pool.cleaning || dirtyAbove s n (cleanStart s) && !(n ∈ s.pool.trimming) then
    let s := { s with pool := { s.pool with cleaning := if n ∈ s.pool.cleaning then s.pool.cleaning else s.pool.cleaning ++ [n] } }
    let s := (cleanBatch s n ((cleanStart s - 10) * budgetShare s / 100)).foldl writeBack s
    if (cleanStart s - 10) * budgetShare s < 100 * (dirtyLines s n).length then s else { s with pool := { s.pool with cleaning := s.pool.cleaning.filter (· ≠ n) } }
  else if n ∈ s.pool.trimming then
    let s := (cleanBatch s n (keepBelow s (cleanStart s))).foldl writeBack s
    if dirtyAbove s n (cleanStart s) then s else { s with pool := { s.pool with trimming := s.pool.trimming.filter (· ≠ n) } }
  else s

/-- A commit that leaves a quarter more dirty lines than its share starts its write-back, until it is below the start threshold (R238). -/
def trimQuarter (s : State) (n : Nat) : State :=
  if budgetShare s < (dirtyLines s n).length && !(n ∈ s.pool.cleaning) then
    cleanQuarter { s with pool := { s.pool with trimming := if n ∈ s.pool.trimming then s.pool.trimming else s.pool.trimming ++ [n] } } n
  else s

/-! ### Flushes (R223) -/

/-- A line that an agent owns. -/
def agentOwned (s : State) (l : Nat) : Bool :=
  match hlnOf s l with
  | some h => match dirState s h with
    | some (.owned _) => true
    | _ => false
  | none => false

/-- The dirty tray lines that a flush covers; at L3 the lines that agents own are skipped (R522). -/
def flushLines (s : State) (skipOwned : Bool) : List Nat :=
  (s.pool.lines.filter fun e => e.2.dirty && isTrayLine s e.1 && (lostBy s e.1).isNone && !(skipOwned && agentOwned s e.1)).map (·.1)

/-- What the flushes still cover is written back; a line that an agent owns is first shared, so that its newest data is what is written (R223). -/
def flushAdvance (s : State) : State :=
  s.pool.flushes.foldl (fun st f => f.lines.foldl (fun st l =>
    if !(lineInfo st l).dirty then cleanLine st l
    else if agentOwned st l then
      match hlnOf st l with
      | some h => if underWay st h then st else match dirState (settleDir st h) h with
        | some (.owned o) => startSnoops st h [o] true false (.backInval none)
        | _ => settleDir st h
      | none => st
    else writeBack st l) st) s

/-- A flush begins (R223). -/
def startFlush (s : State) (skipOwned : Bool) (caller : Option Caller) : State :=
  let ls := flushLines s skipOwned
  flushAdvance { s with pool := { s.pool with flushes := s.pool.flushes ++ [{ lines := ls, count := ls.length, caller := caller }] } }

/-- A flush is over: what it still covers lies at trays that cannot be reached. -/
def flushOver (s : State) (f : Flush) : Bool :=
  f.lines.all fun l => !trayReachable s (nodeOf (l * 128)) && (lineInfo s l).writing = 0

/-- The end of the first flush that is over. -/
def endFlush (s : State) : State :=
  match s.pool.flushes.find? (flushOver s) with
  | none => s
  | some f =>
    let s := { s with pool := { s.pool with flushes := s.pool.flushes.erase f } }
    match f.caller with
    | some c => answerOk s c mbFLUSH_NEAR_TIER (le 8 (f.count - f.lines.length))
    | none => s

/-! ### Fills (R217, R218, R409) -/

/-- The first mismatch of a slot in 1 ms is reported (R409). -/
def reportIntegrity (s : State) (slot l : Nat) : State :=
  let s := bump s cKEY_INTEGRITY_FAIL
  if (match tget s.ten.integrityAt slot with
      | some t => decide (s.now < t + ms 1)
      | none => false) then s
  else
    event (setEvt { s with ten := { s.ten with integrityAt := tset s.ten.integrityAt slot s.now } } aIDENTITY_SECURITY 23)
      eINTEGRITY_FAIL sevDEGRADED 15 0 slot (l * 128)

/-- One line of a fill: installed, in the clear, or left as poison that is not to be kept (R409). -/
def installLine (s : State) (l : Nat) (d tag : List Byte) (bad : Nat) : State :=
  let i := lineInfo s l
  if !i.filling then s
  else
    let s := takeSlot s l
    if bad ≠ 0 then setLine s l { i with filling := false, cached := true, poison := bad }
    else match i.slot with
      | some k =>
        let key := keySlot s k
        if key.keys ≠ [] ∧ lineTag (slotKM key) (l * 128) d = tag then
          setLine (putBytes s (l * 128) (xtsDecrypt (slotK1 key) (slotK2 key) (l * 128) d)) l { i with filling := false, cached := true }
        else reportIntegrity (setLine s l { i with filling := false, cached := true, poison := kPOISONED_INTEGRITY }) k l
      | none => setLine (putBytes s (l * 128) d) l { i with filling := false, cached := true }

/-- The data or the metadata of a fill has come; the lines are installed once both have (R409). -/
def fillArrived (s : State) (l0 n : Nat) (data tag : Option (List Byte)) (marks : List Nat) (code : Nat) : State :=
  let (d, t) := tgetD s.pool.fillHalf l0 (none, none)
  let d := data <|> d
  let t := tag <|> t
  let prot := (lineInfo s l0).slot.isSome || (List.range n).any fun i => (lineInfo s (l0 + i)).slot.isSome && (lineInfo s (l0 + i)).filling
  let s := marks.foldl (fun st i => if (lineInfo st (l0 + i)).filling then poisonLine st (l0 + i) code else st) s
  match d, (if prot then t else some []) with
  | some d, some t =>
    let s := { s with pool := { s.pool with fillHalf := tdel s.pool.fillHalf l0 } }
    (List.range n).foldl (fun st i =>
      installLine st (l0 + i) ((d.drop (128 * i)).take 128) ((t.drop (8 * i)).take 8) (lineInfo st (l0 + i)).poison) s
  | d, t => { s with pool := { s.pool with fillHalf := tset s.pool.fillHalf l0 (d, if prot then t else none) } }

/-- A line that failed its tag is not kept once its readers have been answered (R409). -/
def dropUnsound (s : State) (l : Nat) : State :=
  let i := lineInfo s l
  if isTrayLine s l && i.poison = kPOISONED_INTEGRITY && !i.dirty then
    let s := setLine s l (lineDefault s l)
    { s with pool := { s.pool with slots := tdel s.pool.slots l } }
  else s

/-- A fill was abandoned or refused: its lines are to be asked for again. -/
def fillFailed (s : State) (l0 n : Nat) : State :=
  let s := { s with pool := { s.pool with fillHalf := tdel s.pool.fillHalf l0 } }
  (List.range n).foldl (fun st i => if (lineInfo st (l0 + i)).filling then setLine st (l0 + i) { lineInfo st (l0 + i) with filling := false } else st) s

/-! ### Losing stacks and trays (R232 to R235) -/

/-- A leaf whose backing is gone: a lost tray's page, or frames of failed stacks alone, channel by channel (R235). -/
def leafGone (s : State) (level leaf : Nat) : Bool :=
  (List.range (max 1 (pageSize level / 2 ^ 29))).all fun i =>
    let l := lineOf (leafAddr level leaf (i * 2 ^ 29))
    if isTrayLine s l then lineGone s l else match lineChannel s l with
      | some c => decide (c / 16 ∈ s.pool.stacksLost)
      | none => true

/-- The present leaves of a job at this home. -/
def presentLeaves (s : State) (j : Job) : List (Nat × Nat) :=
  ((List.range 512).flatMap fun i => leavesUnder s 3 ((ttEntry s (j.ttRoot + 8 * i)).getD 0)).filter fun x => leafTier x.2 ≠ tierABSENT

/-- Jobs whose whole pool range here is gone are noted, with the kind of loss; one whose range new leaves have brought back may lose it again (R235). -/
def noteLost (s : State) (stack : Bool) : State :=
  s.pool.jobs.foldl (fun st e =>
    let ls := presentLeaves st e.2
    if ls ≠ [] && ls.all (fun x => leafGone st x.1 x.2) then
      (if e.2.lostAt.isNone then setJob st e.1 { e.2 with lostAt := some st.now, lostStack := stack } else st)
    else if e.2.lostAt.isSome then setJob st e.1 { e.2 with lostAt := none, fatalSent := false }
    else st) s

/-- The record of a job whose pool range is gone goes to its pager and to the log (R235). -/
def reportPoolFatal (s : State) (job : Nat) : State :=
  match tget s.pool.jobs job with
  | none => s
  | some j =>
    if j.lostAt.isNone || j.fatalSent then s
    else
      let rec_ : EventRec := { etype := ePOOL_FATAL, sev := sevFATAL, uclass := 15, node := myNode s, time := timeNow s, seq := j.fatalSeq + 1
                               arg0 := job, arg1 := flag j.lostStack }
      let s := setJob s job { j with fatalSent := true, fatalSeq := j.fatalSeq + 1 }
      let s := sendRecord s (.poolFatal job) j.pagerNode j.pagerCap (64 * j.faultSlots) (eventBytes rec_)
      raise s rec_

/-- The home line numbers of a stack. -/
def onStack (stack h : Nat) : Bool := h / 2 ^ 26 = stack

/-- The cached lines of some failed place are dropped; those that agents hold are dropped as their directory entries are freed (R232, R459). -/
def dropPlace (s : State) (there : Nat → Bool) : State :=
  let gone := s.pool.slots.filter fun e => there e.2 && (dirOf s e.2).isNone && !thas s.coh.busy e.2
  gone.foldl (fun st e =>
    let i := lineInfo st e.1
    let st := setLine st e.1 (if i.filling then { lineDefault st e.1 with filling := true, slot := i.slot } else lineDefault st e.1)
    { st with pool := { st.pool with slots := tdel st.pool.slots e.1, marked := st.pool.marked.filter (· ≠ e.1) } }) s

/-- A stack fails (R232, R368). -/
def failStack (s : State) (stack : Nat) : State :=
  if stack ∈ s.pool.stacksLost then s
  else
    let frames := 8192 * ((residentChannels s).filter fun c => c / 16 = stack).length
    let held := (s.coh.dir.filter fun e => onStack stack e.1).map (·.1)
    let s := { s with pool := { s.pool with
      stacksLost := s.pool.stacksLost ++ [stack], tt := s.pool.tt.filter fun e => ttStack s (e.1 * 8) ≠ stack } }
    let s := probeLines (failBeads (dropPlace s (onStack stack)) stack) held
    let s := event (setEvt s aNEAR_CFG 18) eSTACK_LOST sevFAILED 11 stack stack frames
    noteLost s true

/-- A bank pair is retired, with no spare left on its channel: its frames read as lost and no cache line is kept there (R459). -/
def retirePair (s : State) (u : Nat) : State :=
  let held := (s.coh.dir.filter fun e => pairOfHln e.1 = u).map (·.1)
  let s := { s with spares := { s.spares with bankRetired := s.spares.bankRetired ++ [u] } }
  probeLines (dropPlace s fun h => pairOfHln h = u) held

/-- A tray is declared lost: its lines are dropped, those that agents hold once they have given them up (R234). -/
def loseTray (s : State) (node : Nat) : State :=
  let s := { s with pool := { s.pool with
    traysLost := if node ∈ s.pool.traysLost then s.pool.traysLost else s.pool.traysLost ++ [node]
    revived := s.pool.revived.filter fun r => nodeOf r.1 ≠ node
    toMark := s.pool.toMark.filter fun e => nodeOf (e.1 * 65536) ≠ node } }
  let here (h : Nat) : Bool := match lineOfHln s h with
    | some l => decide (nodeOf (l * 128) = node)
    | none => false
  let held := (s.coh.dir.map (·.1)).filter here
  let kept := (held ++ (s.coh.busy.map (·.1)).filter here).filter fun h => !(h ∈ s.pool.discard)
  let s := { s with pool := { s.pool with
    discard := s.pool.discard ++ kept, marked := s.pool.marked.filter fun l => nodeOf (l * 128) ≠ node } }
  let drop := (s.pool.slots.filter fun e => nodeOf (e.1 * 128) = node && (dirOf s e.2).isNone && !thas s.coh.busy e.2).map (·.1)
  let s := drop.foldl (fun st l => { setLine st l (lineDefault st l) with pool := { (setLine st l (lineDefault st l)).pool with
      slots := tdel st.pool.slots l, marked := st.pool.marked.filter (· ≠ l) } }) s
  noteLost (probeLines s held) false

end Sys2Proof.Machine
end

