-- ==== Sys2Proof/Machine/Map.lean ====
section
/-! DEFINITION. The fabric map (chapter 15): composition records (R434, R436), link-state records (R430), map messages and their repetition (R433 to R435), proposals and their verdicts (R436 to R439), snapshots (R446), hand-offs of request records (R442 to R445) and drain-and-depart (R448). -/

namespace Sys2Proof.Machine

/-! ### Sending map messages (R433, R434) -/

/-- The key of a message: KFRAG, KEY16, KEY32 (R434). -/
def mapKey (kfrag key16 key32 : Nat) : Nat := kfrag * 2 ^ 48 + key16 % 65536 * 2 ^ 32 + key32 % 2 ^ 32

/-- A map packet: TC6, JOB 0, no flags (R433). -/
def mapPacket (op dst mkind : Nat) (d : List Byte) : Packet := { tc := 6, op := op, dst := dst, oparg := mkind, payload := d }

/-- The UP ports whose role is SWITCH. -/
def switchPorts (s : State) : List Nat := (lports s).filter fun q => isUp s q && decide (roleOf s q = roleSWITCH)

/-- A message to be repeated until it is answered. -/
def noteSend (s : State) (p : Packet) (q key : Nat) : State :=
  let rest := s.map.sends.filter fun m => !(m.lport = q && m.key = key && m.op = p.op && m.pkt.dst = p.dst)
  { s with map := { s.map with sends := rest ++ [{ pkt := p, lport := q, key := key, op := p.op, lastAt := s.now }] } }

/-- A hop message to the link partner of a port (R433). -/
def sendHop (s : State) (q op mkind key : Nat) (d : List Byte) : State :=
  let p := mapPacket op 0xFFFF mkind d
  sendOn (noteSend s p q key) q p

/-- A hop message on every UP SWITCH port but one. -/
def floodHop (s : State) (except_ op mkind key : Nat) (d : List Byte) : State :=
  ((switchPorts s).filter (· ≠ except_)).foldl (fun st q => sendHop st q op mkind key d) s

/-- A routed message to a switch (R433). -/
def sendRouted (s : State) (dst op key : Nat) (d : List Byte) : State :=
  let p := mapPacket op dst 0 d
  sendTo (noteSend s p selfPort key) dst p

/-- MAP_ACK's 8 bytes. -/
def ackBytes (op kfrag key16 key32 : Nat) : List Byte := le 1 op ++ le 1 kfrag ++ le 2 key16 ++ le 4 key32

/-- MAP_ACK to the partner of a port, or routed to a node. -/
def ackHop (s : State) (q op kfrag key16 key32 : Nat) : State := sendOn s q (mapPacket opMAP_ACK 0xFFFF 0 (ackBytes op kfrag key16 key32))
def ackRouted (s : State) (dst op kfrag key16 key32 : Nat) : State := sendTo s dst (mapPacket opMAP_ACK dst 0 (ackBytes op kfrag key16 key32))

/-- A message that breaks its layout is discarded and counted (R433). -/
def mapMalformed (s : State) : State := bump s cMAP_MALFORMED

/-- The header fields that R433 fixes. -/
def mapHeaderOk (p : Packet) (hop : Bool) : Bool :=
  decide (p.job = 0 ∧ p.flags = 0 ∧ p.flow = 0 ∧ p.fseq = 0 ∧ p.pidx = 0 ∧ p.pcnt = 0 ∧ p.status = 0 ∧ p.addr = 0 ∧ p.cap = 0 ∧ p.oparg < 256)
    && decide (p.oparg ≤ flag (decide (p.op = opMAP_PREPARE))) && (!hop || decide (p.dst = 0xFFFF))

/-! ### Link-state records (R430) -/

/-- A change to an entry of this module's record: it is flooded within 20 µs (R430). -/
def linkChanged (s : State) : State := { s with map := { s.map with lsrDue := some (s.map.lsrDue.getD s.now) } }

/-- The 8 bytes of an entry (Table 15-3). -/
def lsrEntryBytes (e : LsrEntry) : List Byte :=
  le 4 (e.lport % 1024 + e.role % 8 * 2 ^ 10 + flag e.up * 2 ^ 13 + e.lanes % 16 * 2 ^ 14) ++ le 4 (e.peer % 65536 + e.peerLport % 1024 * 65536)

/-- The entry that 8 bytes hold. -/
def parseLsrEntry (b : List Byte) : LsrEntry :=
  let w := field b 0 4
  { lport := bits w 9 0, role := bits w 12 10, up := bit w 13, lanes := bits w 17 14, peer := field b 4 2, peerLport := field b 6 2 % 1024 }

/-- Reserved bits and ranges of an entry. -/
def lsrEntryOk (b : List Byte) : Bool := decide (field b 0 4 < 2 ^ 18 ∧ bits (field b 0 4) 12 10 ≤ 4 ∧ bits (field b 0 4) 17 14 ≤ 8 ∧ field b 6 2 < 1024)

/-- The payload of a fragment of this module's record. -/
def lsrPayload (s : State) (frag nfrag : Nat) (es : List LsrEntry) : List Byte :=
  le 4 (myNode s % 65536 + s.map.epoch % 256 * 2 ^ 16 + flag s.map.proposal.isSome * 2 ^ 24 + flag (s.map.departing || decide (3 ≤ level s)) * 2 ^ 25)
    ++ le 4 s.map.lsrSeq ++ le 2 frag ++ le 2 nfrag ++ le 4 es.length ++ es.flatMap lsrEntryBytes

/-- This module floods its record with a new LSR_SEQ (R430). -/
def floodLsr (s : State) : State :=
  let s := { s with map := { s.map with lsrSeq := (s.map.lsrSeq + 1) % 2 ^ 32, lsrDue := none, lsrAt := s.now } }
  let parts := chunks 510 2 (ownEntries s)
  (List.range parts.length).foldl (fun st i =>
    floodHop st selfPort opMAP_LSR 0 (mapKey i (myNode st) st.map.lsrSeq) (lsrPayload st i parts.length (parts.getD i []))) s

/-- A MAP_LSR payload breaks Table 15-3. -/
def lsrMalformed (p : Packet) : Bool :=
  let d := p.payload
  let n := field d 0xC 2
  !mapHeaderOk p true || decide (lenOf p < 16 ∨ 4 ≤ field d 3 1 ∨ field d 0xA 2 = 0 ∨ 2 < field d 0xA 2
    ∨ field d 0xA 2 ≤ field d 8 2 ∨ n = 0 ∨ 510 < n ∨ field d 0xE 2 ≠ 0 ∨ lenOf p ≠ 16 + 8 * n)
    || (chunks 8 510 (d.drop 16)).any fun b => !lsrEntryOk b

/-! ### Composition records (Table 15-5) -/

/-- A composition record. -/
structure CompRec where
  ckind : Nat
  nkind : Nat
  node : Nat
  attSw : Nat
  attLport : Nat
  attIdx : Nat
  uid : List Byte
  deriving DecidableEq, Repr

/-- The record that 32 bytes hold. -/
def parseRec (b : List Byte) : CompRec :=
  let w := field b 4 4
  { ckind := field b 0 1 % 16, nkind := field b 0 1 / 16, node := field b 2 2, attSw := bits w 15 0, attLport := bits w 25 16
    attIdx := bits w 28 26, uid := (b.drop 8).take 16 }

/-- Reserved bits, kinds and unused fields of a record. -/
def recOk (b : List Byte) : Bool :=
  let r := parseRec b
  decide (b.length = 32 ∧ field b 1 1 = 0 ∧ field b 4 4 < 2 ^ 29 ∧ field b 0x18 8 = 0 ∧ 1 ≤ r.ckind ∧ r.ckind ≤ 6)
    && (if r.ckind = 1 then decide (1 ≤ r.nkind ∧ r.nkind ≤ 4 ∧ field b 4 4 = 0 ∧ (r.nkind = 3 ∨ r.uid.all (· = 0)))
        else decide (r.nkind = 0) && r.uid.all (· = 0)
          && (if r.ckind = 2 then decide (field b 4 4 = 0) else if r.ckind = 3 then true else decide (field b 4 4 < 65536)))
    && (if 4 ≤ r.ckind then isGroup r.node else decide (r.node < 0x4000))

/-- A record applied to a composition; none when R436 or R447 refuses it. -/
def applyRec (s : State) (c : Composition) (r : CompRec) : Option Composition :=
  let has (n : Nat) : Bool := thas c.nodes n
  match r.ckind with
  | 1 =>
    let young := match tget s.map.removed r.node with
      | some t => decide (s.now < t + ms 8)
      | none => false
    if has r.node || young || decide (16384 ≤ c.nodes.length) then none
    else some { c with nodes := tset c.nodes r.node { kind := r.nkind, uid := if r.nkind = 3 then r.uid else [] } }
  | 2 => if has r.node then some { c with nodes := tdel c.nodes r.node } else none
  | 3 =>
    match tget c.nodes r.node with
    | none => none
    | some e =>
      if r.attSw = 0xFFFF then some { c with nodes := tset c.nodes r.node { e with att := tdel e.att r.attIdx } }
      else
        let x := lport s r.attLport
        if r.attSw = myNode s && isUp s r.attLport && x.partnerNode ≠ 0xFFFF && x.partnerNode ≠ r.node then none
        else some { c with nodes := tset c.nodes r.node { e with att := tset e.att r.attIdx (r.attSw, r.attLport) } }
  | 4 =>
    if has r.attSw && (thas c.groups r.node || decide (c.groups.length < 4096)) then
      some { c with groups := tset c.groups r.node (r.attSw, ((tget c.groups r.node).map (·.2)).getD []) }
    else none
  | 5 =>
    match tget c.groups r.node with
    | some (root, ms) =>
      if has r.attSw && !(r.attSw ∈ ms) && decide (ms.length < 256) then some { c with groups := tset c.groups r.node (root, ms ++ [r.attSw]) } else none
    | none => none
  | 6 =>
    match tget c.groups r.node with
    | some (root, ms) =>
      if r.attSw = 0xFFFF then some { c with groups := tdel c.groups r.node }
      else if r.attSw ∈ ms then some { c with groups := tset c.groups r.node (root, ms.filter (· ≠ r.attSw)) }
      else none
    | none => none
  | _ => none

/-- Records applied in order; the index of the first that is refused otherwise. -/
def applyRecs (s : State) : Nat → Composition → List CompRec → Composition ⊕ Nat
  | _, c, [] => .inl c
  | i, c, r :: rs =>
    match applyRec s c r with
    | some c => applyRecs s (i + 1) c rs
    | none => .inr i

/-- A tray whose home would not be a switch of the composition (R436). -/
def homeless (c : Composition) : Option Nat :=
  (c.nodes.find? fun e => e.2.kind = 2 && !(match homeIn c e.1 with
    | some h => match tget c.nodes h with
      | some x => decide (x.kind = 3)
      | none => false
    | none => false)).map (·.1)

/-- The composition that records produce from the current one, or the index of the first bad record (R436). -/
def checkRecs (s : State) (rs : List CompRec) : Composition ⊕ Nat :=
  match applyRecs s 0 s.map.comp rs with
  | .inr i => .inr i
  | .inl c => match homeless c with
    | some t => .inr ((rs.findIdx? fun r => r.node = t).getD 0)
    | none => .inl c

/-- The records of a proposal or a snapshot, in order. -/
def recsOf (p : Proposal) : List CompRec := ((sortBy (fun e => e.1) p.frags).flatMap (·.2)).map parseRec

/-- The records of a snapshot of a composition (R434). -/
def snapshotRecs (c : Composition) : List (List Byte) :=
  let rec32 (ckind nkind node word : Nat) (uid : List Byte) : List Byte :=
    le 1 (ckind + nkind * 16) ++ le 1 0 ++ le 2 node ++ le 4 word ++ padTo 16 uid ++ zeros 8
  let ns := sortBy (fun e => e.1) c.nodes
  (ns.flatMap fun e => rec32 1 e.2.kind e.1 0 e.2.uid
      :: (sortBy (fun a => a.1) e.2.att).map fun a => rec32 3 0 e.1 (a.2.1 + a.2.2 * 2 ^ 16 + a.1 * 2 ^ 26) [])
    ++ (sortBy (fun g => g.1) c.groups).flatMap fun g => rec32 4 0 g.1 g.2.1 [] :: g.2.2.map fun m => rec32 5 0 g.1 m []

/-! ### This module's own entry -/

/-- The node ID that a composition gives this module, by its DEVICE_UID (R446). -/
def ownId (c : Composition) : Option Nat := (c.nodes.find? fun e => e.2.kind = 3 && e.2.uid = Config.deviceUid).map (·.1)

/-- An address of this module's own memory under a new node ID. -/
def reAddr (old new a : Nat) : Nat := if nodeOf a = old then poolAddr new (offOf a) else a

/-- This module takes a node ID; its resident memory keeps its bytes under it (R119). -/
def takeNode (s : State) (n : Nat) : State :=
  if n = s.map.node then s
  else
    let o := s.map.node
    { s with
      map := { s.map with node := n }
      pool := { s.pool with
        mem := s.pool.mem.foldl (fun m e => memWrite m (reAddr o n e.1) e.2) []
        lines := s.pool.lines.map fun e => (reAddr o n (e.1 * 128) / 128, e.2) } }

/-- Membership and node ID under the current composition. -/
def settleMember (s : State) : State :=
  match ownId s.map.comp with
  | some n => takeNode { s with map := { s.map with member := true } } n
  | none => { s with map := { s.map with member := false } }

/-- A module that its composition lists leaves phase MAP, joined (R446, R529). -/
def memberUp (s : State) : State :=
  if s.map.member then { s with supply := { s.supply with unjoined := false, phase := if s.supply.phase = 6 then 7 else s.supply.phase } } else s

/-- The home quarter of each tray of the composition: that of the lowest port of its route set when it joined (R216). -/
def settleTrays (s : State) : State :=
  let trays := (s.map.comp.nodes.filter fun e => e.2.kind = 2).map (·.1)
  let kept := s.pool.trayHome.filter fun e => e.1 ∈ trays
  let more := trays.filterMap fun t =>
    if thas kept t then none
    else match sortAsc (routeSet s s.map.comp t) with
      | q :: _ => some (t, quarterOf q)
      | [] => none
  { s with pool := { s.pool with trayHome := kept ++ more } }

/-! ### Hand-off: the giver (R442) -/

/-- The key of a hand-off message. -/
def handoffKey (tray hseq : Nat) : Nat := mapKey 0 tray hseq

/-- The head of a hand-off payload (Table 15-8). -/
def handoffHead (hkind tray epoch nrec hseq : Nat) (last : Bool) : List Byte :=
  le 4 (hkind + flag last * 16) ++ le 4 (tray % 65536 + epoch % 256 * 2 ^ 16 + nrec % 128 * 2 ^ 24) ++ le 4 hseq ++ le 4 0

/-- The stored status and 16-byte result of a dedup entry. -/
def storedAnswer (d : Dedup) : Nat × List Byte :=
  match d.rsp, d.ack with
  | some r, _ => (r.status, padTo 16 (r.payload.take 16))
  | none, some e => (e.estatus, zeros 16)
  | none, none => (kSUCCESS, zeros 16)

/-- A record of a request (Table 15-8). -/
def handoffRec (s : State) (k : Nat × Nat) (d : Dedup) : List Byte :=
  let a := storedAnswer d
  le 4 (k.2 % 2 ^ 24) ++ le 4 (k.1 % 65536 + d.epoch % 256 * 2 ^ 16) ++ le 4 (a.1 + d.job % 65536 * 2 ^ 16) ++ le 4 ((s.now - d.created) / 1000) ++ a.2 ++ zeros 8

/-- A record that only names a key. -/
def keyRec (k : Nat × Nat) (none_ : Bool) : List Byte := le 4 (k.2 % 2 ^ 24 + flag none_ * 2 ^ 24) ++ le 4 (k.1 % 65536) ++ zeros 32

/-- An OFFER of some keys. -/
def offerBytes (s : State) (tray epoch hseq : Nat) (last : Bool) (ks : List (Nat × Nat)) : List Byte :=
  let rs := ks.filterMap fun k => (tget s.net.dedup k).map (handoffRec s k)
  handoffHead 0 tray epoch rs.length hseq last ++ rs.flatten

/-- The requests parked on a tray leave with REROUTE (R442). -/
def rerouteParked (s : State) (tray : Nat) : State :=
  let ws := s.pool.waiters.filter fun w => w.why = .tray tray
  ws.foldl (fun st w => failWith st w kREROUTE st.map.epoch 1)
    { s with pool := { s.pool with waiters := s.pool.waiters.filter fun w => w.why ≠ .tray tray } }

/-- The lines of a tray that are cached here. -/
def trayLines (s : State) (tray : Nat) : List Nat := (s.pool.slots.filter fun e => nodeOf (e.1 * 128) = tray).map (·.1)

/-- The home lines of a tray that agents hold. -/
def trayHeld (s : State) (tray : Nat) : List Nat :=
  (s.coh.dir.filter fun e => match lineOfHln s e.1 with
    | some l => decide (nodeOf (l * 128) = tray)
    | none => false).map (·.1)

/-- This module gives a tray up (R442). -/
def giveTray (s : State) (tray peer : Nat) : State :=
  let s := probeLines (rerouteParked s tray) (trayHeld s tray)
  let ls := (trayLines s tray).filter fun l => (lineInfo s l).dirty && (lostBy s l).isNone
  let s := flushAdvance { s with pool := { s.pool with flushes := s.pool.flushes ++ [{ lines := ls, count := ls.length }] } }
  let ks := (s.net.dedup.filter fun e => e.2.tray = some tray && e.2.done).map (·.1)
  let parts := if ks = [] then [[]] else chunks 100 ks.length ks
  let h : Handoff := { giver := true, peer := peer, epoch := s.map.epoch, commitAt := s.now, hseq := parts.length
                       offers := (List.range parts.length).map fun i => (i, parts.getD i []) }
  (List.range parts.length).foldl (fun st i =>
    sendRouted st peer opMAP_HANDOFF (handoffKey tray i) (offerBytes st tray h.epoch i (decide (i + 1 = parts.length)) (parts.getD i [])))
    { s with map := { s.map with handoffs := tset s.map.handoffs tray h } }

/-- This module takes a tray over (R444): nothing of it that was cached before stands. -/
def takeTray (s : State) (tray peer : Nat) : State :=
  let s := (trayLines s tray).foldl (fun st l =>
    let st := setLine st l (lineDefault st l)
    { st with pool := { st.pool with slots := tdel st.pool.slots l } }) s
  let h : Handoff := { giver := false, peer := peer, epoch := s.map.epoch, commitAt := s.now, lastProbe := s.now }
  { s with map := { s.map with handoffs := tset s.map.handoffs tray h } }

/-- What a change of composition means for each tray's home. -/
def moveTrays (s : State) (old : Composition) : State :=
  let trays := ((old.nodes ++ s.map.comp.nodes).filter fun e => e.2.kind = 2).map (·.1)
  (sortAsc trays).foldl (fun st t =>
    match homeIn old t, homeIn st.map.comp t with
    | some a, some b => if a = b then st else if a = myNode st then giveTray st t b else if b = myNode st then takeTray st t a else st
    | _, _ => st) s

/-! ### Epochs (R438, R441) -/

/-- The node that a port's endpoint is assigned: the node attached there. -/
def assignedAt (s : State) (q : Nat) : Nat :=
  ((s.map.comp.nodes.find? fun e => e.2.att.any fun a => decide (a.2 = (myNode s, q))).map (·.1)).getD 0xFFFF

/-- The 8 bytes of MAP_EPOCH (Table 15-6). -/
def epochBytes (s : State) (q : Nat) : List Byte :=
  le 4 (s.map.epoch % 256 + (s.map.epoch + 255) % 256 * 2 ^ 8 + flag s.map.prev.isSome * 2 ^ 16 + flag s.map.departing * 2 ^ 17)
    ++ le 2 (assignedAt s q) ++ le 2 (min 65535 s.map.graceUs)

/-- MAP_EPOCH to the endpoint of a port. -/
def sendEpoch (s : State) (q : Nat) : State := sendHop s q opMAP_EPOCH 0 (mapKey 0 0 s.map.epoch) (epochBytes s q)

/-- The UP ports of endpoints: ACCELERATOR and TRAY. -/
def endpointPorts (s : State) : List Nat :=
  (lports s).filter fun q => isUp s q && decide (roleOf s q = roleACCELERATOR ∨ roleOf s q = roleTRAY)

/-- MAP_EPOCH to every endpoint, in place of any earlier one not yet acknowledged. -/
def sendEpochs (s : State) : State :=
  (endpointPorts s).foldl sendEpoch { s with map := { s.map with sends := s.map.sends.filter fun m => m.op ≠ opMAP_EPOCH } }

/-- The staged map becomes current (R438). -/
def commitMap (s : State) (p : Proposal) : State :=
  let old := s.map.comp
  let gone := (old.nodes.filter fun e => !thas p.comp.nodes e.1).map fun e => (e.1, s.now)
  let g := min 200 (2 * p.maxTransit)
  let s := { s with map := { s.map with
    comp := p.comp, prev := some old, epoch := p.epoch, graceUs := g, graceEnd := s.now + us g, proposal := none
    removed := gone ++ s.map.removed.filter fun e => !thas gone e.1 } }
  let s := memberUp (settleMember (bump (setEvt s aMAP_STATUS 22) cMAP_COMMITS))
  linkChanged (sendEpochs (moveTrays (settleTrays s) old))

/-- The staged proposal is discarded (R438, R439). -/
def dropProposal (s : State) : State :=
  bump (setEvt { s with map := { s.map with proposal := none } } aMAP_STATUS 23) cMAP_ABORTS

/-- A proposal's verdict has been seen. -/
def markDecided (s : State) (propId epoch : Nat) : State :=
  { s with map := { s.map with gather := s.map.gather.map fun g => if g.propId = propId ∧ g.epoch = epoch then { g with decided := true } else g } }

/-- The previous epoch's grace is running. -/
def graceRuns (s : State) : Bool := s.map.prev.isSome

/-- The verdict of this switch on a proposal, with its detail, and the composition it produces (R437). -/
def judge (s : State) (p : Proposal) : Nat × Nat × Composition :=
  let other := match s.map.proposal with
    | some q => !(q.propId = p.propId && q.coord = p.coord && q.epoch = p.epoch)
    | none => false
  if other then (1, 0, {})
  else if (s.map.epoch + 1) % 256 ≠ p.epoch then (2, 0, {})
  else match checkRecs s (recsOf p) with
    | .inr i => (3, i, {})
    | .inl c => if graceRuns s then (4, 0, {}) else (0, 0, c)

/-! ### The coordinator (R436, R438) -/

/-- MAP_VOTE's and MAP_COMMIT's 8 bytes (R435). -/
def voteBytes (propId epoch verdict detail : Nat) : List Byte := le 4 propId ++ le 1 epoch ++ le 1 verdict ++ le 2 detail

/-- PROPOSE_MAP completes once every MAP_COMMIT has been acknowledged or given up (R438). -/
def coordFinish (s : State) : State :=
  match s.map.coord with
  | some c =>
    match c.verdict with
    | some (v, d) =>
      if s.map.sends.any fun m => m.op = opMAP_COMMIT && m.key = mapKey 0 0 c.propId then s
      else
        let s := { s with map := { s.map with coord := none } }
        if v = 0 then answerOk s c.caller mbPROPOSE_MAP [] else answer s c.caller mbPROPOSE_MAP mMAP_PROPOSAL_ABORTED (v % 256 + d % 65536 * 65536) []
    | none => s
  | none => s

/-- The coordinator's verdict is flooded and acted on (R438). -/
def decide_ (s : State) (v d : Nat) : State :=
  match s.map.coord, s.map.proposal with
  | some c, some p =>
    if c.verdict.isSome || c.propId ≠ p.propId then s
    else
      let s := { s with map := { s.map with coord := some { c with verdict := some (v, d) } } }
      let s := floodHop s selfPort opMAP_COMMIT 0 (mapKey 0 0 c.propId) (voteBytes c.propId c.epoch (if v = 0 then 0 else 1) 0)
      let s := markDecided s c.propId c.epoch
      coordFinish (if v = 0 then commitMap s p else dropProposal s)
  | _, _ => s

/-- The switches that must vote: those of the base or of the new composition, but this one (R438). -/
def votersOf (s : State) (c : Composition) : List Nat :=
  sortAsc (((s.map.comp.nodes ++ c.nodes).filter fun e => e.2.kind = 3 && e.1 ≠ myNode s).map (·.1))

/-- A vote at the coordinator (R438). -/
def takeVote (s : State) (src v d : Nat) : State :=
  match s.map.coord with
  | some c =>
    if c.verdict.isSome || !(src ∈ c.voters) then s
    else if v ≠ 0 then decide_ s v d
    else
      let yes := if src ∈ c.yes then c.yes else c.yes ++ [src]
      let s := { s with map := { s.map with coord := some { c with yes := yes } } }
      if c.voters.all (· ∈ yes) then decide_ s 0 0 else s
  | none => s

/-- MAP_PREPARE's head (Table 15-4). -/
def prepareBytes (coord epoch transit frag nfrag propId : Nat) (rs : List (List Byte)) : List Byte :=
  le 2 coord ++ le 1 epoch ++ le 1 transit ++ le 2 frag ++ le 2 nfrag ++ le 4 propId ++ le 4 rs.length ++ rs.flatten

/-- A proposal is staged at its coordinator and flooded (R436). -/
def propose (s : State) (c : Caller) (transit : Nat) (recs : List (List Byte)) (comp : Composition) : State :=
  let id := (s.map.nextProp + 1) % 2 ^ 32
  let e := (s.map.epoch + 1) % 256
  let parts := chunks 127 recs.length recs
  let p : Proposal := { coord := myNode s, epoch := e, maxTransit := transit, propId := id, nfrag := parts.length
                        frags := (List.range parts.length).map fun i => (i, parts.getD i []), comp := comp, votedAt := some s.now }
  let voters := votersOf s comp
  let s := { s with map := { s.map with
    nextProp := id, proposal := some p, gather := p :: s.map.gather.filter fun g => g.coord ≠ myNode s
    coord := some { caller := c, propId := id, epoch := e, startedAt := s.now, voters := voters } } }
  let s := (List.range parts.length).foldl (fun st i =>
    floodHop st selfPort opMAP_PREPARE 0 (mapKey 0 i id) (prepareBytes (myNode st) e transit i parts.length id (parts.getD i []))) s
  if voters = [] then decide_ s 0 0 else s

/-! ### Proposals at other switches (R437, R439) -/

/-- MAP_PREPARE breaks Table 15-4. -/
def prepareMalformed (p : Packet) : Bool :=
  let d := p.payload
  let n := field d 0xC 4
  let snap := p.oparg = 1
  !mapHeaderOk p true || decide (lenOf p < 16 ∨ n = 0 ∨ 127 < n ∨ lenOf p ≠ 16 + 32 * n ∨ field d 6 2 = 0 ∨ field d 6 2 ≤ field d 4 2)
    || (if snap then decide (field d 3 1 ≠ 0) else decide (field d 3 1 = 0 ∨ 100 < field d 3 1 ∨ 64 < field d 6 2))
    || (chunks 32 127 (d.drop 16)).any fun b => !recOk b

/-- The fragment that a MAP_PREPARE carries. -/
def fragOf (p : Packet) : List (List Byte) := chunks 32 127 (p.payload.drop 16)

/-- A complete proposal is judged, staged on YES, and voted on (R437). -/
def voteOn (s : State) (p : Proposal) : State :=
  let (v, d, c) := judge s p
  let p := { p with votedAt := some s.now, comp := c }
  let s := { s with map := { s.map with
    gather := s.map.gather.map fun g => if g.coord = p.coord then p else g
    proposal := if v = 0 then some p else s.map.proposal } }
  let s := if v = 0 then linkChanged s else s
  sendRouted s p.coord opMAP_VOTE (mapKey 0 0 p.propId) (voteBytes p.propId p.epoch v d)

/-- The gathering that a fragment of a proposal belongs to. -/
def gatherFor (s : State) (fresh : Proposal) : Proposal :=
  match s.map.gather.find? fun g => g.coord = fresh.coord with
  | some g => if g.propId = fresh.propId ∧ g.epoch = fresh.epoch then g else fresh
  | none => fresh

/-- A fragment added to a gathering. -/
def addFrag (g : Proposal) (frag : Nat) (rs : List (List Byte)) : Proposal := { g with frags := tset g.frags frag rs }

/-- All fragments of a gathering are here. -/
def gathered (g : Proposal) : Bool := decide (g.frags.length = g.nfrag)

/-- A gathering is kept. -/
def keepGather (s : State) (g : Proposal) : State :=
  { s with map := { s.map with gather := g :: s.map.gather.filter fun x => x.coord ≠ g.coord } }

/-- A proposal fragment (R437): gathered, passed on once, acknowledged. -/
def takePrepare (s : State) (q : Nat) (p : Packet) : State :=
  let d := p.payload
  let coord := field d 0 2
  let id := field d 8 4
  let frag := field d 4 2
  let s := ackHop s q opMAP_PREPARE 0 frag id
  if coord = myNode s then s
  else
    let fresh : Proposal := { coord := coord, epoch := field d 2 1, maxTransit := field d 3 1, propId := id, nfrag := field d 6 2 }
    let g := gatherFor s fresh
    if thas g.frags frag then s
    else
      let g := addFrag g frag (fragOf p)
      let s := floodHop (keepGather s g) q opMAP_PREPARE 0 (mapKey 0 frag id) d
      if gathered g && g.votedAt.isNone then voteOn s g else s

/-- MAP_VOTE or MAP_COMMIT breaks R435. -/
def voteMalformed (p : Packet) (hop : Bool) : Bool :=
  !mapHeaderOk p hop || decide (lenOf p ≠ 8 ∨ (if hop then 1 else 4) < field p.payload 5 1)

/-- A commit verdict (R438): passed on once and acted on. -/
def takeCommit (s : State) (q : Nat) (p : Packet) : State :=
  let id := field p.payload 0 4
  let e := field p.payload 4 1
  let s := ackHop s q opMAP_COMMIT 0 0 id
  match s.map.gather.find? fun g => g.propId = id && g.epoch = e && !g.decided with
  | none => s
  | some _ =>
    let s := floodHop (markDecided s id e) q opMAP_COMMIT 0 (mapKey 0 0 id) p.payload
    match s.map.proposal with
    | some x =>
      if x.propId = id ∧ x.epoch = e then (if field p.payload 5 1 = 0 then commitMap s x else dropProposal s) else s
    | none => s

/-! ### Snapshots and pulls (R439, R446; log entry 14) -/

/-- MAP_PULL's payload: kind 0 SNAPSHOT or 1 STATUS, and EPOCH. -/
def pullBytes (kind epoch : Nat) : List Byte := le 1 kind ++ le 1 epoch ++ zeros 6

/-- MAP_PULL to the partner of a port. -/
def sendPull (s : State) (q kind epoch : Nat) : State := sendHop s q opMAP_PULL 0 (mapKey 0 0 kind) (pullBytes kind epoch)

/-- A snapshot is asked for on the lowest UP SWITCH port. -/
def pullSnapshot (s : State) : State :=
  match switchPorts s with
  | q :: _ => sendPull { s with map := { s.map with pulling := true, snapshot := none } } q 0 0
  | [] => s

/-- A pull of a kind on a port has been answered. -/
def pullAnswered (s : State) (q kind : Nat) : State :=
  { s with map := { s.map with sends := s.map.sends.filter fun m => !(m.op = opMAP_PULL && m.lport = q && m.key = mapKey 0 0 kind) } }

/-- The whole composition of an epoch goes to the partner of a port. -/
def sendSnapshot (s : State) (q epoch : Nat) : State :=
  let old := s.map.prev.isSome && epoch ≠ 0 && (epoch + 1) % 256 = s.map.epoch
  let c := if old then s.map.prev.getD {} else s.map.comp
  let e := if old then epoch else s.map.epoch
  let rs := snapshotRecs c
  let parts := chunks 127 rs.length rs
  (List.range parts.length).foldl (fun st i =>
    sendHop st q opMAP_PREPARE 1 (mapKey 0 i 0) (prepareBytes (myNode st) e 0 i parts.length 0 (parts.getD i []))) s

/-- A complete snapshot is installed (R446). -/
def installSnapshot (s : State) (p : Proposal) : State :=
  match applyRecs { s with map := { s.map with removed := [], node := 0xFFFF } } 0 {} (recsOf p) with
  | .inr _ => mapMalformed { s with map := { s.map with snapshot := none } }
  | .inl c =>
    let s := { s with map := { s.map with comp := c, prev := none, epoch := p.epoch, proposal := none, snapshot := none, pulling := false } }
    let s := settleTrays (settleMember s)
    if s.map.member then floodLsr (memberUp s) else s

/-- The gathering that a fragment of a snapshot belongs to. -/
def snapshotFor (s : State) (fresh : Proposal) : Proposal :=
  match s.map.snapshot with
  | some g => if g.epoch = fresh.epoch ∧ g.nfrag = fresh.nfrag then g else fresh
  | none => fresh

/-- A snapshot of which fragments are missing was interrupted by a commit: it is discarded and pulled again (R446). -/
def repull (s : State) (q epoch : Nat) : State :=
  match s.map.snapshot with
  | some g => if g.epoch ≠ epoch then sendPull { s with map := { s.map with snapshot := none } } q 0 0 else s
  | none => s

/-- A snapshot fragment (R446): keyed by (EPOCH, FRAG). -/
def takeSnapshot (s : State) (q : Nat) (p : Packet) : State :=
  let d := p.payload
  let s := pullAnswered (ackHop s q opMAP_PREPARE 0 (field d 4 2) (field d 8 4)) q 0
  if !s.map.pulling then s
  else
    let s := repull s q (field d 2 1)
    let fresh : Proposal := { coord := field d 0 2, epoch := field d 2 1, maxTransit := 0, propId := field d 8 4, nfrag := field d 6 2 }
    let g := addFrag (snapshotFor s fresh) (field d 4 2) (fragOf p)
    let s := { s with map := { s.map with snapshot := some g } }
    if gathered g then installSnapshot s g else s

/-- The epoch a neighbour shows as current (R439). -/
def neighbourEpoch (s : State) (origin e : Nat) : State :=
  match s.map.proposal with
  | some p =>
    if p.epoch = e ∧ p.coord ≠ myNode s then commitMap (markDecided s p.propId p.epoch) p
    else if 1 < gap 8 e s.map.epoch ∧ gap 8 e s.map.epoch < 128 ∧ !s.map.pulling then
      pullSnapshot (event (setEvt s aMAP_STATUS 24) eMAP_DIVERGE sevDEGRADED 15 0 origin e)
    else s
  | none =>
    if 0 < gap 8 e s.map.epoch ∧ gap 8 e s.map.epoch < 128 ∧ s.map.member ∧ !s.map.pulling then
      pullSnapshot (event (setEvt s aMAP_STATUS 24) eMAP_DIVERGE sevDEGRADED 15 0 origin e)
    else s

/-- A link-state record fragment (R430). -/
def takeLsr (s : State) (q : Nat) (p : Packet) : State :=
  let d := p.payload
  let origin := field d 0 2
  let e := field d 2 1
  let seq := field d 4 4
  let frag := field d 8 2
  let s := pullAnswered (bump (ackHop s q opMAP_LSR frag origin seq) cMAP_LSR_RX) q 1
  if origin = myNode s then
    (if s.map.lsrSeq < seq then floodLsr { s with map := { s.map with lsrSeq := seq } } else s)
  else
    let fresh : Lsr := { seq := seq, epoch := e, staged := bit (field d 3 1) 0, departing := bit (field d 3 1) 1, nfrag := field d 0xA 2, keptAt := s.now }
    let keep : Option Lsr := match tget s.map.lsrs origin with
      | some r => if r.seq < seq then some fresh else if r.seq = seq ∧ !thas r.frags frag then some { r with keptAt := s.now } else none
      | none => some fresh
    match keep with
    | none => s
    | some r =>
      let r := { r with frags := tset r.frags frag ((chunks 8 510 (d.drop 16)).map parseLsrEntry) }
      let s := { s with map := { s.map with lsrs := tset s.map.lsrs origin r } }
      let s := floodHop s q opMAP_LSR 0 (mapKey frag origin seq) d
      let s := settleTrays s
      if origin = (lport s q).partnerNode then neighbourEpoch (if s.map.pulling then repull s q e else s) origin e else s

/-! ### Answers and repetition (R434) -/

/-- A MAP_ACK stops the repetition of what it keys; PROPOSE_MAP may complete (R434, R438). -/
def takeAck (s : State) (q : Nat) (p : Packet) : State :=
  let d := p.payload
  let op := field d 0 1
  let key := mapKey (field d 1 1) (field d 2 2) (field d 4 4)
  let routed := op = opMAP_VOTE
  let s := { s with map := { s.map with sends := s.map.sends.filter fun m =>
    !(m.op = op && m.key = key && (if routed then decide (m.lport = selfPort) && decide (m.pkt.dst = p.src) else decide (m.lport = q))) } }
  coordFinish s

/-- How long a map message waits for its answer. -/
def resendGap (op : Nat) : Ns := if op = opMAP_EPOCH then us 20 else us 100

/-- A map message is sent again, or its partner counts as unreachable after ten sends (R434). -/
def resendMap (s : State) (q key : Nat) : State :=
  match s.map.sends.find? fun m => m.lport = q && m.key = key && due s m.lastAt (resendGap m.op) with
  | none => s
  | some m =>
    if 10 ≤ m.sends then
      let s := { s with map := { s.map with sends := s.map.sends.erase m } }
      let partner := if q = selfPort then m.pkt.dst else (lport s q).partnerNode
      coordFinish (event s eMAP_UNREACHABLE sevDEGRADED (if q = selfPort then 15 else 2) (if q = selfPort then 0 else q) partner m.op)
    else
      let s := { s with map := { s.map with sends := s.map.sends.map fun x =>
        if x = m then { x with sends := x.sends + 1, lastAt := s.now } else x } }
      if q = selfPort then sendTo s m.pkt.dst m.pkt else if isUp s q then sendOn s q m.pkt else s

/-! ### Hand-off: messages (R443 to R445) -/

/-- A hand-off payload breaks Table 15-8. -/
def handoffMalformed (p : Packet) : Bool :=
  let d := p.payload
  let n := field d 7 1
  !mapHeaderOk p false || decide (lenOf p < 16 ∨ 32 ≤ field d 0 4 ∨ 3 < field d 0 4 % 16 ∨ 100 < n ∨ field d 0xC 4 ≠ 0 ∨ lenOf p ≠ 16 + 40 * n)
    || (chunks 40 100 (d.drop 16)).any fun b => decide (2 ≤ field b 3 1 ∨ field b 7 1 ≠ 0 ∨ field b 0x20 8 ≠ 0)

/-- The records of a hand-off message. -/
def handoffRecs (p : Packet) : List (List Byte) := chunks 40 100 (p.payload.drop 16)
def recKey (b : List Byte) : Nat × Nat := (field b 4 2, field b 0 3)
def hoTray (p : Packet) : Nat := field p.payload 4 2
def hoEpoch (p : Packet) : Nat := field p.payload 6 1
def hoSeq (p : Packet) : Nat := field p.payload 8 4
def hoLast (p : Packet) : Bool := bit (field p.payload 0 4) 4

/-- The answer that a record stores, as this module would send it. -/
def recAnswer (b : List Byte) : Packet :=
  let st := field b 8 2
  let q : Packet := { tc := 0, op := opATOMIC, src := field b 4 2, msg := field b 0 3, job := field b 0xA 2 }
  if isPClass st then responsePacket q opRSP_DATA st 1 0 (zeros 8)
  else responsePacket q opRSP st 0 0 ((b.drop 0x10).take (if st = kSUCCESS then 8 else 16))

/-- A record is installed as this module's own (R443). -/
def installRec (s : State) (tray : Nat) (b : List Byte) : State :=
  let k := recKey b
  let posted := ((tget s.net.dedup k).map (·.posted)).getD false
  let age := field b 0xC 4 * 1000
  bump (setDedup s k
    { done := true, posted := posted
      rsp := if posted && !isPClass (field b 8 2) then none else some (recAnswer b)
      ack := if posted then some { emsg := k.2, estatus := field b 8 2 } else none
      created := s.now - age, sentAt := s.now - age, epoch := s.map.epoch, job := field b 0xA 2, tray := some tray }) cHANDOFF_RECORDS_IN

/-- A record that this module already owns by a hand-off. -/
def ownsRec (s : State) (k : Nat × Nat) : Bool :=
  match tget s.net.dedup k with
  | some d => d.done
  | none => false

/-- An OFFER at the taker (R443): the records are installed as far as there is room, and ACCEPT names those it took. -/
def takeOffer (s : State) (p : Packet) : State :=
  let tray := hoTray p
  if hoEpoch p ≠ s.map.epoch ∨ homeIn s.map.comp tray ≠ some (myNode s) then s
  else
    let s := (handoffRecs p).foldl (fun st b =>
      if ownsRec st (recKey b) then st
      else if dedupFull st && !thas st.net.dedup (recKey b) then st
      else installRec st tray b) s
    let ks := ((handoffRecs p).map recKey).filter (ownsRec s)
    let s := sendTo s p.src (mapPacket opMAP_HANDOFF p.src 0
      (handoffHead 1 tray (hoEpoch p) ks.length (hoSeq p) (hoLast p) ++ ks.flatMap fun k => keyRec k false))
    if hoLast p then { s with map := { s.map with handoffs := match tget s.map.handoffs tray with
        | some h => if h.giver then s.map.handoffs else tdel s.map.handoffs tray
        | none => s.map.handoffs } }
    else s

/-- An ACCEPT at the giver (R442): it gives the named records up, and offers the rest again. -/
def takeAccept (s : State) (p : Packet) : State :=
  let tray := hoTray p
  match tget s.map.handoffs tray with
  | none => s
  | some h =>
    if !h.giver || h.epoch ≠ hoEpoch p || !thas h.offers (hoSeq p) then s
    else
      let ks := (handoffRecs p).map recKey
      let mine := (tgetD h.offers (hoSeq p) []).filter (· ∈ ks)
      let left := (tgetD h.offers (hoSeq p) []).filter (fun k => !(k ∈ ks))
      let s := bumpBy { s with net := { s.net with dedup := s.net.dedup.filter fun e => !(e.1 ∈ mine) } } cHANDOFF_RECORDS_OUT mine.length
      let offers := if left = [] then tdel h.offers (hoSeq p) else tset h.offers (hoSeq p) left
      let key := handoffKey tray (hoSeq p)
      let again := offerBytes s tray h.epoch (hoSeq p) (decide (hoSeq p + 1 = h.hseq)) left
      let sends := if left = [] then s.map.sends.filter fun m => !(m.op = opMAP_HANDOFF && m.key = key)
        else s.map.sends.map fun m => if m.op = opMAP_HANDOFF ∧ m.key = key then { m with pkt := { m.pkt with payload := again } } else m
      { s with map := { s.map with
          sends := sends
          handoffs := if offers = [] then tdel s.map.handoffs tray else tset s.map.handoffs tray { h with offers := offers } } }

/-- A PROBE (R445): CLAIM answers each key with its record or R_NONE, and a request whose record stands here is answered from it. -/
def takeProbe (s : State) (q : Nat) (p : Packet) : State :=
  let ks := (handoffRecs p).map recKey
  let rs := ks.map fun k => match tget s.net.dedup k with
    | some d => if d.done then handoffRec s k d else keyRec k true
    | none => keyRec k true
  let s := sendTo s p.src (mapPacket opMAP_HANDOFF p.src 0 (handoffHead 3 (hoTray p) (hoEpoch p) ks.length (hoSeq p) false ++ rs.flatten))
  ks.foldl (fun st k => match tget st.net.dedup k with
    | some d => if d.done then replayDedup st q { tc := 0, op := opATOMIC, src := k.1, msg := k.2 } d else st
    | none => st) s

/-- The held requests of a tray whose effect must not happen twice. -/
def heldFor (s : State) (tray : Nat) : List Waiter := s.pool.waiters.filter fun w => w.why = .handoff tray && nonIdempotent w.req.pkt

/-- A held request leaves the parking table without an effect. -/
def dropHeld (s : State) (tray : Nat) (k : Nat × Nat) : State :=
  { s with pool := { s.pool with waiters := s.pool.waiters.filter fun w => !(w.why = .handoff tray && decide ((w.req.pkt.src, w.req.pkt.msg) = k)) } }

/-- Neither side holds a record of a held request: REQUEST_STATE_LOST (R445). -/
def stateLost (s : State) (tray : Nat) (w : Waiter) : State :=
  let s := dropHeld s tray (w.req.pkt.src, w.req.pkt.msg)
  respond (leaveWindow (setEvt s aMAP_STATUS 25) w) w.req.lport w.req.pkt kREQUEST_STATE_LOST 0 0 0 []

/-- One key of a CLAIM at the taker (R445). -/
def settleKey (s : State) (tray peer : Nat) (b : List Byte) : State :=
  let k := recKey b
  match (heldFor s tray).find? fun w => decide ((w.req.pkt.src, w.req.pkt.msg) = k) with
  | none => s
  | some w =>
    let theirs := !bit (field b 3 1) 0
    match tget s.net.dedup k with
    | some d =>
      if d.done then
        let e := field b 6 1
        if theirs && (decide (d.epoch < e) || (decide (d.epoch = e) && decide (peer < myNode s))) then
          { dropHeld (leaveWindow s w) tray k with net := { s.net with dedup := tdel s.net.dedup k } }
        else replayDedup (dropHeld (leaveWindow s w) tray k) w.req.lport w.req.pkt d
      else if theirs then
        { dropHeld (leaveWindow s w) tray k with net := { s.net with dedup := tdel s.net.dedup k } }
      else stateLost s tray w
    | none => if theirs then dropHeld (leaveWindow s w) tray k else stateLost s tray w

/-- A CLAIM at the taker. -/
def takeClaim (s : State) (p : Packet) : State :=
  let key := handoffKey (hoTray p) (2 ^ 31 + hoSeq p % 2 ^ 31)
  let s := { s with map := { s.map with sends := s.map.sends.filter fun m => !(m.op = opMAP_HANDOFF && m.key = key) } }
  match tget s.map.handoffs (hoTray p) with
  | some h => if h.giver || h.peer ≠ p.src then s else (handoffRecs p).foldl (fun st b => settleKey st (hoTray p) h.peer b) s
  | none => s

/-- A taker probes the giver 1 ms after the commit, and every 1 ms after that (R444). -/
def probeGiver (s : State) (tray : Nat) : State :=
  match tget s.map.handoffs tray with
  | none => s
  | some h =>
    let ks := (heldFor s tray).map fun w => (w.req.pkt.src, w.req.pkt.msg)
    if h.giver || ks = [] || !due s h.lastProbe (ms 1) then s
    else
      (chunks 100 ks.length ks).foldl (fun st part =>
        match tget st.map.handoffs tray with
        | some h =>
          let st := { st with map := { st.map with handoffs := tset st.map.handoffs tray { h with hseq := h.hseq + 1 } } }
          sendRouted (bump st cHANDOFF_PROBES) h.peer opMAP_HANDOFF (handoffKey tray (2 ^ 31 + h.hseq % 2 ^ 31))
            (handoffHead 2 tray h.epoch part.length h.hseq false ++ part.flatMap fun k => keyRec k false)
        | none => st)
        { s with map := { s.map with handoffs := tset s.map.handoffs tray { h with lastProbe := s.now } } }

/-- 26 ms after the commit the taker settles what is left as neither holding a record (R445). -/
def settleTimeout (s : State) (tray : Nat) : State :=
  match tget s.map.handoffs tray with
  | none => s
  | some h =>
    if h.giver || !due s h.commitAt (ms 26) then s
    else
      let s := (heldFor s tray).foldl (fun st w => stateLost st tray w) s
      { s with map := { s.map with handoffs := tdel s.map.handoffs tray } }

/-! ### Drain-and-depart (R448) -/

/-- Trays are homed here. -/
def homesTrays (s : State) : Bool := s.map.comp.nodes.any fun e => decide (homeIn s.map.comp e.1 = some (myNode s))

/-- No request is parked or in progress here. -/
def idleHere (s : State) : Bool :=
  s.pool.waiters = [] && s.coh.busy = [] && s.sieve.reqs = [] && s.pool.fences = [] && s.bead.channels.all fun c => c.2.queue = []

/-- The steps of drain-and-depart that are due (R448): 1 announced, 2 trays moved and the flush begun, 3 the last wait. -/
def drainAdvance (s : State) : State :=
  if s.map.drainCaller.isNone then s
  else if s.map.drainStep = 1 && !homesTrays s then
    startFlush { s with map := { s.map with drainStep := 2 } } false none
  else if s.map.drainStep = 2 && s.map.handoffs = [] && s.pool.flushes = [] && !graceRuns s && idleHere s then
    { s with map := { s.map with drainStep := 3, drainReady := some s.now } }
  else s

/-- DRAIN_MODULE begins (R448). -/
def startDrain (s : State) (c : Caller) : State :=
  let s := { s with map := { s.map with departing := true, drainCaller := some c, drainStep := 1 } }
  drainAdvance (sendEpochs (floodLsr s))

end Sys2Proof.Machine
end

