-- ==== Sys2Proof/Machine/Forward.lean ====
section
/-! DEFINITION. Transit: the resequencer (R111 to R113), combining at a switch that is not the home (R144 to R147), routing by epoch (R440), multicast copies (R432) and the output queue of a forwarded packet (R115). -/

namespace Sys2Proof.Machine

/-! ### The resequencer (R111 to R113) -/

/-- The context of an ordered flow, wherever it was made. -/
def reseqKey (s : State) (p : Packet) : Option (Nat × Nat × Nat × Nat) :=
  (s.net.reseq.find? fun e => decide (e.1.2 = (p.src, p.dst, p.flow))).map (·.1)

/-- The contexts of a quarter. -/
def reseqIn (s : State) (n : Nat) : List ((Nat × Nat × Nat × Nat) × Reseq) := s.net.reseq.filter fun e => e.1.1 = n

/-- The resequencer cells in use in a quarter (R375). -/
def reseqUsed (s : State) (n : Nat) : Nat :=
  (reseqIn s n).foldl (fun a e => a + e.2.held.foldl (fun b r => b + cellsOf r.pkt) 0) 0

/-- The state with a context written. -/
def setReseq (s : State) (k : Nat × Nat × Nat × Nat) (x : Reseq) : State := { s with net := { s.net with reseq := tset s.net.reseq k x } }

/-- What the resequencer does with a packet. -/
inductive Order where
  /-- Delivered, with the held packets that follow it. -/
  | deliver (first : Req) (rest : List Req)
  | hold
  | refuse (code : Nat)
  deriving DecidableEq, Repr

/-- The held packets now in sequence, and the context past them; `fuel` is their number. -/
def drainHeld : Nat → Reseq → List Req × Reseq
  | 0, x => ([], x)
  | fuel + 1, x =>
    match x.held.find? fun r => r.pkt.fseq = x.next with
    | some r =>
      let y := drainHeld fuel { x with next := (x.next + 1) % 65536, held := x.held.erase r }
      (r :: y.1, y.2)
    | none => ([], x)

/-- An arriving packet against its context (R111). -/
def orderIn (s : State) (k : Nat × Nat × Nat × Nat) (x : Reseq) (r : Req) : Order × State :=
  let x := { x with lastAt := s.now }
  let d := gap 16 r.pkt.fseq x.next
  if d = 0 then
    let y := drainHeld x.held.length { x with next := (x.next + 1) % 65536 }
    (.deliver r y.1, setReseq s k y.2)
  else if d ≤ 255 then
    if x.held.any fun h => h.pkt.fseq = r.pkt.fseq then (.hold, setReseq s k x)
    else if reseqCells s k.1 < reseqUsed s k.1 + cellsOf r.pkt then
      (.refuse kRESEQ_WINDOW, setEvt (setReseq s k x) (aQUEUE_CFG k.1) 27)
    else (.hold, setReseq s k { x with held := x.held ++ [r] })
  else if d ≤ 32767 then (.refuse kRESEQ_WINDOW, setReseq s k x)
  else (.deliver r [], setReseq s k x)

/-- An ordered packet at the last switch: in a context of its flow, or in a new one that FHEAD makes (R111, R112). -/
def resequence (s : State) (n : Nat) (r : Req) : Order × State :=
  match reseqKey s r.pkt with
  | some k => orderIn s k (tgetD s.net.reseq k { next := r.pkt.fseq }) r
  | none =>
    if !hasFlag r.pkt fFHEAD || decide (65536 ≤ (reseqIn s n).length) then (.refuse kRESEQ_NO_CONTEXT, s)
    else orderIn s (n, r.pkt.src, r.pkt.dst, r.pkt.flow) { next := r.pkt.fseq } r

/-! ### Into an output queue -/

/-- A transit packet as it stands in a queue; `t` is when it entered its ingress dock, from which its residence counts (R99). -/
def transitPkt (q : Nat) (c : Colour) (t : Ns) (p : Packet) : QPkt := { pkt := p, at_ := t, colour := c, ingress := some q }

/-- A held packet that a delivery releases is linked into its queue without an admission check (R375). -/
def linkHeld (s : State) (port : Nat) (r : Req) : State :=
  let k := queueKey port r.pkt.tc 0
  let x : QPkt := { pkt := r.pkt, at_ := r.at_, ingress := some r.lport, freed := true }
  if (outQ s k).reserve = [] then (if lossless x.pkt.tc then enterQueue s k x else pushTail s k x) else setOutQ s k { outQ s k with reserve := (outQ s k).reserve ++ [x] }

/-- The port faces the packet's DST: this is the last switch (R111). -/
def facesDst (s : State) (c : Composition) (port dst : Nat) : Bool := (attachments c dst).any fun a => decide (a = (myNode s, port))

/-- A transit packet crosses to its port and leaves by it (R21), through the resequencer where the port faces its DST. -/
def sendTransit (s : State) (q : Nat) (c : Colour) (t : Ns) (comp : Composition) (port : Nat) (p : Packet) : State :=
  let s := crossPacket s (quarterOf q) (quarterOf port) p
  if hasFlag p fORDERED && facesDst s comp port p.dst then
    match resequence s (quarterOf port) { pkt := p, lport := q, at_ := t } with
    | (.deliver _ rest, s) => rest.foldl (fun st r => linkHeld st port r) (enqueue s port 0 (transitPkt q c t p))
    | (.hold, s) => s
    | (.refuse code, s) => refuse s q p code 0 0
  else enqueue s port 0 (transitPkt q c t p)

/-! ### Routing by epoch (R440) -/

/-- REROUTE: the epoch in use, and 1 µs. -/
def reroute (s : State) (q : Nat) (p : Packet) : State := bump (refuse s q p kREROUTE s.map.epoch 1) cMAP_REROUTE_SENT

/-- The packet carries the epoch before the current one. -/
def oldEpoch (s : State) (p : Packet) : Bool := p.epoch ≠ s.map.epoch && (p.epoch + 1) % 256 = s.map.epoch

/-- A packet for one node leaves by the map of its epoch (R115, R440). -/
def routeNode (s : State) (q : Nat) (c : Colour) (t : Ns) (comp : Composition) (dst : Nat) (p : Packet) : State :=
  match choosePort s (routeSet s comp dst) p with
  | (some port, s) => sendTransit s q c t comp port p
  | (none, s) => if oldEpoch s p then reroute s q p else refuse s q p kUNKNOWN_DESTINATION 0 0

/-! ### Combining (R144 to R147) -/

/-- An atomic that may combine: neither CAS nor FPADD, outside ranked mode, and not ordered (R144). -/
def combinableAtomic (s : State) (p : Packet) : Bool :=
  p.op = opATOMIC && (hasFlag p fCOMBINABLE || atomicCmb p) && regField s aMEMOP_CFG 7 1 = 1
    && !(atomicOp p = 2 || atomicOp p = 10) && atomicEpoch p = 0 && !rankedJob s p.job && !hasFlag p fORDERED

/-- A LOAD that may combine; at its home also one through a window without write and atomic rights (R144). -/
def combinableLoad (s : State) (home : Bool) (p : Packet) : Bool :=
  let w := windowAt s (capIndex p.cap)
  p.op = opLOAD && regField s aMEMOP_CFG 6 1 = 1 && !hasFlag p fORDERED
    && (hasFlag p fCOMBINABLE || (home && aspaceOf p = 1 && !bit w.rights wWrite && !bit w.rights wAtomic))

/-- Two requests have one combining key (R144). -/
def sameKey (a b : Packet) : Bool :=
  decide (a.op = b.op ∧ a.dst = b.dst ∧ a.job = b.job ∧ a.tc = b.tc ∧ aspaceOf a = aspaceOf b ∧ a.addr = b.addr ∧ a.cap = b.cap)
    && (if a.op = opLOAD then loadSize a = loadSize b else decide (atomicOp a = atomicOp b) && (atomicW64 a == atomicW64 b))

/-- The joiners that a request brings: its list, or itself. -/
def joinersIn (p : Packet) : List Joiner :=
  if p.op = opATOMIC && atomicCmb p then joinersOf p.payload
  else [{ msg := p.msg, posted := hasFlag p fPOSTED, src := p.src, value := field p.payload 0 8 }]

/-- The joiners of an entry. -/
def entryJoiners (c : Combine) : List Joiner := c.joiners.flatMap fun r => joinersIn r.pkt

/-- A request has already joined an entry: its copy is absorbed (R145, R147). -/
def joinedAlready (s : State) (p : Packet) : Bool :=
  s.pool.combine.any fun e => e.2.joiners.any fun r => decide (r.pkt.src = p.src ∧ r.pkt.msg = p.msg)

/-- The entry a request may join: open, of its key, with room for its joiners. -/
def entryFor (s : State) (p : Packet) : Option (Nat × Combine) :=
  s.pool.combine.find? fun e => sameKey e.2.head p && (p.op = opLOAD || !e.2.sent)
    && decide ((entryJoiners e.2).length + (joinersIn p).length ≤ 256)

/-- An entry of the key stands, open or full. -/
def keyTaken (s : State) (p : Packet) : Bool := s.pool.combine.any fun e => sameKey e.2.head p && (p.op = opLOAD || !e.2.sent)

/-- The state with a combining entry written. -/
def setCombine (s : State) (i : Nat) (c : Combine) : State := { s with pool := { s.pool with combine := tset s.pool.combine i c } }

/-- A request opens an entry; a LOAD is sent in its place at once, an atomic's entry waits for its queue (R145, R147). -/
def openCombine (s : State) (q : Nat) (p : Packet) : State :=
  let i := s.pool.nextCombine
  let c : Combine := { head := p, joiners := [{ pkt := p, lport := q, at_ := s.now }], sent := decide (p.op = opLOAD), lport := q }
  let s := setCombine { s with pool := { s.pool with nextCombine := i + 1 } } i c
  if p.op = opLOAD then sendOwn s (.combinedLoad i) { p with flags := 2 ^ fCOMBINABLE, ext := [] } else s

/-- The combining pending table of the die of a port is full: 65,536 entries (R18). -/
def combineFull (s : State) (q : Nat) : Bool := 65536 ≤ (s.pool.combine.filter fun e => quarterOf e.2.lport = quarterOf q).length

/-- A combinable request of another home is absorbed, joins an entry or opens one; none where it goes on uncombined. -/
def combine (s : State) (q : Nat) (p : Packet) : Option State :=
  if !(combinableAtomic s p || combinableLoad s false p) || decide (routeSet s s.map.comp p.dst = []) then none
  else if joinedAlready s p then some s
  else match entryFor s p with
    | some (i, c) => some (bump (setCombine s i { c with joiners := c.joiners ++ [{ pkt := p, lport := q, at_ := s.now }] }) (cCOMBINE_JOINED (quarterOf q)))
    | none => if keyTaken s p || combineFull s q then none else some (openCombine s q p)

/-- The combined atomic of an entry: every joiner in join order (Table 5-8). -/
def combinedPacket (c : Combine) : Packet :=
  { c.head with
    flags := 2 ^ fCOMBINABLE, ext := [], oparg := c.head.oparg ||| 128
    payload := (entryJoiners c).flatMap fun j => joinerBytes j 0 j.value }

/-- An entry reaches the head of its output queue: its combined packet leaves, and no request joins it any more (R147). -/
def sendCombined (s : State) (i : Nat) : State :=
  match tget s.pool.combine i with
  | some c => if c.sent then s else sendOwn (setCombine s i { c with sent := true }) (.combinedAtomic i) (combinedPacket c)
  | none => s

/-! ### Multicast (R432) -/

/-- What R432 allows to be multicast. -/
def multicastOk (p : Packet) : Bool :=
  (p.op = opSTORE || p.op = opREDUCE_WRITE) && (p.tc = 0 || p.tc = 3) && hasFlag p fPOSTED

/-- A group's packet is on its way down the tree here: at the root, or from the switch before this one on a path. -/
def onTree (s : State) (q : Nat) (comp : Composition) (root : Nat) (ms : List Nat) : Bool :=
  decide (root = myNode s) || (roleOf s q = roleSWITCH && decide ((lport s q).partnerNode ∈ treeParents s comp root ms))

/-- A group's packet: toward the root, or copied down the tree; says whether this module is a member and takes a copy itself. -/
def forwardGroup (s : State) (q : Nat) (c : Colour) (t : Ns) (comp : Composition) (p : Packet) : Bool × State :=
  match tget comp.groups p.dst with
  | none => (false, refuse s q p kUNKNOWN_DESTINATION 0 0)
  | some (root, ms) =>
    if onTree s q comp root ms then
      let s := (copyPorts s comp root ms).foldl (fun st port => bump (sendTransit st q c t comp port p) cMCAST_COPIES) s
      if myNode s ∈ ms then (true, bump s cMCAST_COPIES) else (false, s)
    else (false, routeNode s q c t comp root p)

/-! ### Transit -/

/-- A combined atomic that may not come from this port (R147). -/
def badCombined (s : State) (q : Nat) (p : Packet) : Bool :=
  p.op = opATOMIC && atomicCmb p
    && (decide (q ≠ selfPort ∧ roleOf s q ≠ roleSWITCH) || atomicOp p = 2 || atomicOp p = 10 || decide (atomicEpoch p ≠ 0))

/-- A packet that is not for this module alone: it is forwarded; true when this module takes a multicast copy. -/
def forward (s : State) (q : Nat) (c : Colour) (t : Ns) (p : Packet) : Bool × State :=
  if isGroup p.dst && !multicastOk p then (false, refuse s q p kMALFORMED 0 0)
  else if badCombined s q p then (false, refuse s q p kMALFORMED 0 0)
  else match compFor s p.epoch with
    | none => (false, reroute s q p)
    | some comp =>
      if isGroup p.dst then forwardGroup s q c t comp p
      else match combine s q p with
        | some s => (false, s)
        | none => (false, routeNode s q c t comp p.dst p)

end Sys2Proof.Machine
end

