-- ==== Sys2Proof/Machine/Command.lean ====
section
/-! DEFINITION. Command space (R89, R119, R492, R493): mover doorbells, bead queues and host mailboxes. -/

namespace Sys2Proof.Machine

/-! ### Host mailboxes (R492, R493) -/

/-- The host mailbox an address lies in, and the offset in it (Table 17-5). -/
def hostBoxOf (addr : Nat) : Option (Nat × Nat) :=
  if 0x1000000 ≤ addr ∧ addr < 0x1100000 then some ((addr - 0x1000000) / 0x10000, addr % 0x10000) else none

/-- An access to a host mailbox may come only on its bound port, in TC0, for a job of that port. -/
def hostBoxOpen (s : State) (m q : Nat) (p : Packet) : Bool :=
  p.tc = 0 && (mboxOf s (.host m)).bound = some q && decide (p.job ∈ portJobs s q)

/-- A command slot that is published and not yet taken. -/
def slotPublished (b : Mbox) (i : Nat) : Bool := decide (gap 6 i b.cmdHead < gap 16 b.cmdTail b.cmdHead)

/-- The command and response tails of a doorbell. -/
def bellCmd (p : Packet) : Nat := field p.payload 0 2
def bellRsp (p : Packet) : Nat := field p.payload 2 2

/-- A doorbell moves CMD_TAIL as a RING does and RSP_TAIL within what has been written; none where it may not (R493). -/
def bellMove (b : Mbox) (p : Packet) : Option Mbox :=
  let n := gap 16 (bellCmd p) b.cmdTail
  let stale := n = 0 || decide (32768 ≤ n)
  if !stale && decide (64 < gap 16 (bellCmd p) b.cmdHead) then none
  else if gap 16 b.rspHead b.rspTail < gap 16 (bellRsp p) b.rspTail then none
  else some { b with cmdTail := if stale then b.cmdTail else bellCmd p, rspTail := bellRsp p }

/-- What a STORE to a host mailbox does, or the code that refuses it (R492, R493). -/
def hostStore (s : State) (m off q : Nat) (p : Packet) : State ⊕ Nat :=
  let b := mboxOf s (.host m)
  if !hostBoxOpen s m q p then .inr kACCESS_DENIED
  else if off < 0x4000 then
    if off % 256 ≠ 0 ∨ lenOf p ≠ 256 then .inr kMISALIGNED
    else if slotPublished b (off / 256) then .inr kACCESS_DENIED
    else .inl (setMbox s (.host m) { b with slots := tset b.slots (off / 256) p.payload })
  else if off = 0x8000 then
    if lenOf p ≠ 8 then .inr kMISALIGNED
    else if field p.payload 4 4 ≠ 0 then .inr kMALFORMED
    else match bellMove b p with
      | some b => .inl (setMbox s (.host m) (pushRing b.rspWait.length b))
      | none => .inr kMALFORMED
  else .inr kACCESS_DENIED

/-- The 16 bytes of a host mailbox's status (Table 17-5). -/
def hostStatus (s : State) (m : Nat) : List Byte :=
  let b := mboxOf s (.host m)
  le 2 b.cmdHead ++ le 2 b.cmdTail ++ le 2 b.rspHead ++ le 2 b.rspTail ++ le 2 (b.bound.getD 0xFFFF) ++ le 1 (flag (serving s)) ++ zeros 5

/-- The 16 KiB of a host mailbox's response ring. -/
def hostRing (b : Mbox) : List Byte := (List.range 64).flatMap fun i => padTo 256 (tgetD b.rspRing i [])

/-- What a LOAD from a host mailbox reads, or the code that refuses it. -/
def hostLoad (s : State) (m off q : Nat) (p : Packet) : List Byte ⊕ Nat :=
  let n := loadSize p
  if !hostBoxOpen s m q p then .inr kACCESS_DENIED
  else if 0x4000 ≤ off ∧ off + n ≤ 0x8000 then .inl (((hostRing (mboxOf s (.host m))).drop (off - 0x4000)).take n)
  else if off = 0x8040 ∧ n = 16 then .inl (hostStatus s m)
  else .inr kACCESS_DENIED

/-! ### Entry -/

/-- A STORE to command space that has passed the common checks, first or again. -/
def attemptCommand (s : State) (w : Waiter) : State :=
  let p := w.req.pkt
  if flowBlocked s p then waitFor s w .behind
  else match doorbellChannel p.addr, beadQueueOf p.addr, hostBoxOf p.addr with
    | some ch, _, _ => serveDoorbell s w ch
    | none, some c, _ => attemptBead s w c
    | none, none, some (m, off) => match hostStore s m off w.req.lport p with
      | .inl t => respondOk (openDedup t p) w.req.lport p []
      | .inr k => failWith s w k 0 0
    | none, none, none => failWith s w kADDRESS_INVALID 0 0

/-- A STORE to command space as it arrives: its copies, its fields, its dedup entry (R89, R101, R103). -/
def serveCommandStore (s : State) (r : Req) : State :=
  let p := r.pkt
  let w : Waiter := { req := r, why := .behind, quarter := quarterOf r.lport }
  match dedupOf s p with
  | some d => absorbCopy s r.lport p d
  | none =>
    if waitingCopy s p then (if hasFlag p fPOSTED then s else ackPacket s r.lport p)
    else match (if p.pcnt ≠ 0 then some kMALFORMED else memFieldCheck s r.lport p) with
      | some c => refuseAtHome s w c 0 0
      | none =>
        if dedupFull s then refuseAtHome (bump s (cDEDUP_FULL_COUNT w.quarter)) w kDEDUP_FULL 0 0
        else attemptCommand s w

/-- A LOAD from command space. -/
def serveCommandLoad (s : State) (r : Req) : State :=
  let p := r.pkt
  let w : Waiter := { req := r, why := .behind, quarter := quarterOf r.lport }
  match memFieldCheck s r.lport p with
  | some c => refuseAtHome s w c 0 0
  | none =>
    match hostBoxOf p.addr with
    | none => refuseAtHome s w kADDRESS_INVALID 0 0
    | some (m, off) => match hostLoad s m off r.lport p with
      | .inl d => respondData s p { data := d }
      | .inr k => refuseAtHome s w k 0 0

end Sys2Proof.Machine
end

