-- ==== Sys2Proof/Machine/Retry.lean ====
section
/-! DEFINITION. Waiting requests that run again, and what becomes possible once something has taken effect (R128, R130, R139, R148, R444). -/

namespace Sys2Proof.Machine

/-- A request that waits for the dirty budget of its quarter. -/
def onBudget (w : Waiter) : Bool :=
  match w.why with
  | .budget _ => true
  | _ => false

/-- The cells of a request that no longer waits for the dirty budget are given back (R222). -/
def giveCells (s : State) (w : Waiter) : State :=
  if w.credit && !(s.pool.waiters.any fun x => x.req.order = w.req.order && onBudget x) then
    returnCredits { s with pool := { s.pool with waiters := s.pool.waiters.map fun x => if x.req.order = w.req.order then { x with credit := false } else x } }
      w.req.lport w.req.pkt.tc (cellsOf w.req.pkt)
  else s

/-- An attempt of a request accepted earlier, by its operation. -/
def attemptOnce (s : State) (w : Waiter) : State :=
  let p := w.req.pkt
  let w := { w with holds := none }
  if p.op = opCREQ then attemptCreq s w
  else if p.op = opGATHER then attemptGather s w
  else if p.op = opPUBLISH then attemptPublish s w
  else if p.op = opSIEVE then s
  else if toCommandSpace p then attemptCommand s w
  else attemptMem s w

/-- A request accepted earlier is attempted again. -/
def attempt (s : State) (w : Waiter) : State := giveCells (attemptOnce s w) w

/-- A waiter leaves the list and is attempted again. -/
def rerun (s : State) (w : Waiter) : State :=
  attempt { s with pool := { s.pool with waiters := s.pool.waiters.erase w } } w

/-- Every waiter of a kind runs again, in the order of acceptance. -/
def rerunAll (s : State) (pick : Waiter → Bool) : State :=
  let ws := sortBy (fun w => w.req.order) (s.pool.waiters.filter pick)
  ws.foldl attempt { s with pool := { s.pool with waiters := s.pool.waiters.filter fun w => !pick w } }

/-- A waiter whose reason has gone: an ordered packet no longer behind another, a FENCE with nothing before it, a list whose copy is done. -/
def mayRun (s : State) (w : Waiter) : Bool :=
  match w.why with
  | .behind => !(if w.req.pkt.op ∈ [opATOMIC, opFENCE] then waitsBehind s w else flowBlocked s w.req.pkt)
  | .fence => !fencePending { s with pool := { s.pool with waiters := s.pool.waiters.erase w } } w.req.pkt w.req.order
  | .copy src msg => match tget s.net.dedup (src, msg) with
    | some d => d.done
    | none => true
  | _ => false

/-- Waiters that may run do so, one after another; `fuel` bounds their number. -/
def settleWith : Nat → State → State
  | 0, s => s
  | fuel + 1, s =>
    match (sortBy (fun w => w.req.order) s.pool.waiters).find? (mayRun s) with
    | some w => settleWith fuel (rerun s w)
    | none => s

/-- What an effect lets happen: packets kept aside or held back that may go now (R94, R115), inputs of engines that serve again (R268), waiters that may run, and the next step of a drain (R448). -/
def settle (s : State) : State :=
  let s := releaseHeld (releaseOwn (sendAside s))
  drainAdvance (settleWith (2 * s.pool.waiters.length + 2) s)

/-- A request held for a hand-off runs under this module, unless its record came with the hand-off (R443, R444). -/
def rerunHandoff (s : State) (tray : Nat) : State :=
  let ws := sortBy (fun w => w.req.order) (s.pool.waiters.filter fun w => w.why = .handoff tray)
  ws.foldl (fun st w => match (if nonIdempotent w.req.pkt then dedupOf st w.req.pkt else none) with
      | some d => if d.done then replayDedup (leaveWindow st w) w.req.lport w.req.pkt d else attempt st w
      | none => attempt st w)
    { s with pool := { s.pool with waiters := s.pool.waiters.filter fun w => w.why ≠ .handoff tray } }

/-! ### The snoops of a transaction (R196 to R199, R202 to R211) -/

/-- The directory entry of a line once its snoops are answered (Tables 7-6, 7-7). -/
def dirAfter (d : DirEntry) (t : Tracker) : Option DirEntry :=
  match d.st with
  | .lost _ => some d
  | .owned o =>
    if o ∈ t.tgt then (if t.share && decide (o ∈ t.kept) then some { d with st := .shared [o] } else none) else some d
  | .shared v => if t.share then some d else sharedBy (v.filter fun a => !(a ∈ t.tgt)) d.grantAt

/-- The line is no longer busy, and its entry is as the answers leave it. -/
def freeLine (s : State) (h : Nat) (t : Tracker) : State :=
  let s := match dirOf s h with
    | some d => setDir s h (dirAfter d t)
    | none => s
  { s with coh := { s.coh with busy := tdel s.coh.busy h } }

/-- A CREQ whose snoops are answered goes on; one in progress when its agent became DETACHING is still granted, and the detach takes the line back (R208). -/
def resumeCreq (s : State) (r : Req) (share : Bool) : State :=
  let w : Waiter := { req := r, why := .behind, quarter := quarterOf r.lport, share := share }
  if (agentOf s (creqAgent r)).state = .detaching then creqRead s w else attemptCreq s w

/-- A line whose transaction has ended takes the DIR_CFG in force with its next one (R9, R13). -/
def transactionOver (s : State) (h : Nat) : State :=
  if underWay s h then s else { s with coh := { s.coh with oldCfg := tdel s.coh.oldCfg h } }

/-- What follows the end of a transaction. -/
def follow (s : State) (t : Tracker) : State :=
  match t.cont with
  | .creq r => resumeCreq s r t.share
  | .access w => attempt s w
  | .backInval none => s
  | .backInval (some h) => match tget s.coh.busy h with
    | some u => match u.cont with
      | .creq r => transactionOver (resumeCreq (freeLine s h u) r u.share) h
      | _ => s
    | none => s

/-- A transaction ends once its last snoop is answered (R198); flushes that waited on it go on (R223). -/
def endTracker (s : State) (h : Nat) : State :=
  match tget s.coh.busy h with
  | some t =>
    if t.awaiting = [] then
      let s := flushAdvance (transactionOver (follow (freeLine s h t) t) h)
      if h ∈ s.pool.discard then (if (dirOf s h).isNone && !underWay s h then discarded s h else probeLines s [h]) else s
    else s
  | none => s

/-- The next snoop that waits for room at an agent is sent (R196). -/
def nextSnoop (s : State) (a : Nat) : State :=
  match s.coh.snoopQueue.find? fun e => e.1 = a with
  | some e =>
    if (agentOf s a).snoops < (agentOf s a).snpCap then
      emitSnoop { s with coh := { s.coh with snoopQueue := s.coh.snoopQueue.erase e } } a e.2.1 e.2.2.1 e.2.2.2
    else s
  | none => s

/-- An agent's answer to a snoop of a line. -/
def snoopAnswered (s : State) (a m h : Nat) (kept : Bool) : State :=
  let x := agentOf s a
  let s := setAgent s a { x with snoops := x.snoops - 1 }
  let s := { s with coh := { s.coh with
    snoopMsg := tdel s.coh.snoopMsg (a, m)
    busy := tmod s.coh.busy h fun t => { t with awaiting := tdel t.awaiting a, kept := if kept then t.kept ++ [a] else t.kept } } }
  endTracker (nextSnoop s a) h

/-- Whether a line's transaction asked its holders to share. -/
def askedToShare (s : State) (h : Nat) : Bool := ((tget s.coh.busy h).map (·.share)).getD false

/-- Fields of an agent's CRSP or CDAT that R191 fixes: it comes from the link partner. -/
def cohAnswerOk (s : State) (q : Nat) (p : Packet) : Bool :=
  decide (p.src = (lport s q).partnerNode) && decide (p.flags / 2 % 256 = 0 ∧ p.flow = 0 ∧ p.fseq = 0 ∧ p.pidx = 0 ∧ p.pcnt = 0 ∧ p.cap = 0 ∧ p.job = 0 ∧ p.addr < 2 ^ 29)

/-- The line of the snoop that an answer names, when that snoop is outstanding. -/
def snoopOf (s : State) (a : Nat) (p : Packet) : Option Nat :=
  match tget s.coh.snoopMsg (a, p.msg) with
  | some h => if h = p.addr then some h else none
  | none => none

/-- A CRSP of an agent: SNP_I or SNP_S (Table 7-3). -/
def takeCrsp (s : State) (q : Nat) (p : Packet) : State :=
  let a := q / 8
  if (agentOf s a).state = .reclaiming ∨ (agentOf s a).state = .none then lateDrop s q
  else match snoopOf s a p with
    | none => lateDrop s q
    | some h =>
      if !cohAnswerOk s q p || decide (lenOf p ≠ 0) || !(p.oparg = 8 || p.oparg = 9 && askedToShare s h) then s
      else
        let s := if p.oparg = 8 && askedToShare s h then bump s (cDIR_STALE_SNOOP (h / 2 ^ 27)) else s
        snoopAnswered s a p.msg h (p.oparg = 9)

/-- A CDAT of an agent: SNP_I_DATA or SNP_S_DATA; memory takes the data before the transaction goes on (Table 7-4, R199, R211). -/
def takeCdat (s : State) (q : Nat) (p : Packet) : State :=
  let a := q / 8
  let k := p.oparg % 16
  if (agentOf s a).state = .reclaiming ∨ (agentOf s a).state = .none then lateDrop s q
  else match snoopOf s a p with
    | none => lateDrop s q
    | some h =>
      if !cohAnswerOk s q p || decide (lenOf p ≠ 128 ∨ 32 ≤ p.oparg) || !(k = 8 || k = 9 && askedToShare s h) then s
      else
        let s := match lineOfHln s h with
          | some l => takeAgentData s h l (bit p.oparg 4) p.payload
          | none => s
        snoopAnswered s a p.msg h (k = 9)

/-! ### Reclamation (R208, R209) -/

/-- A transaction stops waiting for a reclaimed agent: an owner leaves the line Lost, a sharer counts as SNP_I. -/
def reclaimAnswer (s : State) (h a : Nat) : State :=
  let s := reclaimEntry s h a
  endTracker { s with coh := { s.coh with busy := tmod s.coh.busy h fun t => { t with awaiting := tdel t.awaiting a } } } h

/-- The CREQs of an agent that wait are from then on CREQs of an agent being reclaimed (R208). -/
def agentAway (s : State) (a : Nat) : State :=
  let mine (r : Req) : Bool := r.pkt.op = opCREQ && creqAgent r = a
  let left (r : Req) : Req := { r with gone := true }
  { s with
    coh := { s.coh with busy := s.coh.busy.map fun e => match e.2.cont with
      | .creq r => if mine r then (e.1, { e.2 with cont := .creq (left r) }) else e
      | _ => e }
    pool := { s.pool with waiters := s.pool.waiters.map fun w => if mine w.req then { w with req := left w.req } else w } }

/-- Reclamation of an agent starts (R209 steps 1 and 2). -/
def startReclaim (s : State) (a : Nat) : State :=
  let x := agentOf s a
  let s := setEvt (setAgent s a { x with state := .reclaiming, snoops := 0, lostLines := 0 }) aDIR_CFG 10
  let hs := (s.coh.busy.filter fun e => thas e.2.awaiting a).map (·.1)
  let s := agentAway { s with coh := { s.coh with
    snoopQueue := s.coh.snoopQueue.filter fun e => e.1 ≠ a
    snoopMsg := s.coh.snoopMsg.filter fun e => e.1.1 ≠ a } } a
  hs.foldl (fun st h => reclaimAnswer st h a) s

/-- An attached or detaching agent whose port went DOWN is reclaimed (R208). -/
def reclaimPort (s : State) (q : Nat) : State :=
  let a := q / 8
  if q % 8 = 0 && ((agentOf s a).state = .attached || (agentOf s a).state = .detaching) then startReclaim s a else s

/-- The agent is gone; a DETACH_AGENT that waited completes. -/
def agentGone (s : State) (a : Nat) : State :=
  let x := agentOf s a
  let s := { s with coh := { s.coh with agents := tdel s.coh.agents a } }
  x.detach.foldl (fun st c => answerOk st c mbDETACH_AGENT []) s

/-- The scan ends: no entry names the agent any more (R209 steps 3 and 5). -/
def endReclaim (s : State) (a : Nat) : State :=
  let s := (s.coh.dir.map (·.1)).foldl (fun st h => reclaimEntry st h a) s
  agentGone (event s eAGENT_RECLAIMED sevDEGRADED 2 (8 * a) a (agentOf s a).lostLines) a

end Sys2Proof.Machine
end

