-- ==== Sys2Proof/Machine/Complete.lean ====
section
/-! DEFINITION. The answers to the module's own messages: ACK and NAK entries, responses, timers and abandonment (R93 to R100, R105, R108), the reaction to congestion marks (R383), and what each completion does. -/

namespace Sys2Proof.Machine

/-- How a message of the module ended: its code, detail and hint, and whether a NAK or the module's own timer ended it. -/
structure Ended where
  code : Nat
  detail : Nat := 0
  hint : Nat := 0
  nak : Bool := false
  timeout : Bool := false
  deriving DecidableEq, Repr

/-- The data of a message was delivered, whole or with poisoned lines masked. -/
def Ended.delivered (e : Ended) : Bool := e.code = kSUCCESS || isPClass e.code

/-! ### Congestion marks (R383) -/

/-- The line rate of a port in MB/s: 240 of 256 bytes of each active lane's 25 GB/s (R385). -/
def lineRate (s : State) (q : Nat) : Nat := 240 * (activeLanes s q).length * 25 * 1000 / 256

/-- A mark halves the rate entry of a destination, at most once in 20 µs, or makes it; none free is counted. The quarter is that of the egress port. -/
def markCe (s : State) (dst : Nat) : State :=
  let n := quarterOf (egressPort s dst)
  match tget s.queues.rates (n, dst) with
  | some r =>
    let r : RateEntry := if r.halvedAt + us 20 ≤ s.now then { r with rate := max 1000 (r.rate / 2), halvedAt := s.now, markAt := s.now } else { r with markAt := s.now }
    { s with queues := { s.queues with rates := tset s.queues.rates (n, dst) r } }
  | none =>
    if 4096 ≤ (s.queues.rates.filter fun e => e.1.1 = n).length then bump s (cCE_IGNORED n)
    else
      let r : RateEntry := { rate := max 1000 (lineRate s (egressPort s dst) / 2), halvedAt := s.now, markAt := s.now }
      { s with queues := { s.queues with rates := tset s.queues.rates (n, dst) r } }

/-! ### Combined requests (R145, R148, R572) -/

/-- A combining entry is over. -/
def dropCombine (s : State) (i : Nat) : State := { s with pool := { s.pool with combine := tdel s.pool.combine i } }

/-- One joiner is refused as its entry was. -/
def failJoiner (s : State) (r : Req) (e : Ended) : State :=
  if e.timeout then s
  else if e.nak then nakPacket s r.lport r.pkt e.code e.detail e.hint
  else respond s r.lport r.pkt e.code e.detail e.hint 0 []

/-- A response packet of a combined LOAD, for one of its joiners. -/
def joinerData (p x : Packet) : Packet :=
  { responsePacket p opRSP_DATA x.status x.oparg x.addr x.payload with
    pidx := x.pidx, pcnt := x.pcnt, flags := if x.pidx = x.pcnt then 2 ^ fLAST else 0 }

/-- The joiners of a combined LOAD are answered (R145). -/
def endCombinedLoad (s : State) (i : Nat) (e : Ended) (got : List Packet) : State :=
  match tget s.pool.combine i with
  | none => s
  | some c =>
    let s := dropCombine s i
    if e.delivered && got ≠ [] then c.joiners.foldl (fun st r => got.foldl (fun st x => send st (joinerData r.pkt x)) st) s
    else c.joiners.foldl (fun st r => failJoiner st r e) s

/-- One joiner's result: an RSP with RACK, an ACK of a POSTED one, or the poison answer of R572. -/
def answerJoiner (s : State) (r : Req) (b : List Byte) : State :=
  let st := field b 6 2
  if isPClass st then respondPoison s r.pkt 8 1 st 0
  else if st = kSUCCESS then respondOk s r.lport r.pkt (b.drop 8)
  else respond s r.lport r.pkt st 0 0 0 []

/-- The joiners of a combined atomic are answered, each with its part of the list (R148). -/
def endCombinedAtomic (s : State) (i : Nat) (e : Ended) (list : List Byte) : State :=
  match tget s.pool.combine i with
  | none => s
  | some c =>
    let s := dropCombine s i
    if e.code = kSUCCESS && decide (list.length = 16 * (entryJoiners c).length) then
      (c.joiners.foldl (fun (a : State × List Byte) r =>
        let n := 16 * (joinersIn r.pkt).length
        let b := a.2.take n
        (if atomicCmb r.pkt then respondData a.1 r.pkt { data := b } else answerJoiner a.1 r b, a.2.drop n)) (s, list)).1
    else c.joiners.foldl (fun st r => failJoiner st r e) s

/-! ### What completions do -/

/-- Requests that wait for lines no longer being filled run again. -/
def rerunFills (s : State) : State :=
  rerunAll s fun w => match w.why with
    | .fill l => !(lineInfo s l).filling
    | _ => false

/-- A fill's data, or its failure (R217, R409). -/
def endFill (s : State) (l n : Nat) (tag : Bool) (e : Ended) (d : List Byte) (marks : List Nat) : State :=
  let s := if e.delivered then
      (if tag then fillArrived s l n none (some d) [] 0 else fillArrived s l n (some d) none marks e.code)
    else
      let s := fillFailed s l n
      if e.timeout then trayFailed s (nodeOf (l * 128)) else s
  (List.range n).foldl (fun st i => dropUnsound st (l + i)) (rerunFills s)

/-- The lines of a mark that its tray has taken may become dirty; the writes that wait go on (R220). -/
def endMark (s : State) (page : Nat) (ls : List Nat) (e : Ended) : State :=
  let s := if e.code = kSUCCESS then { s with pool := { s.pool with marked := s.pool.marked ++ ls } }
    else if e.timeout then trayFailed s (nodeOf (page * 65536)) else s
  rerunAll s fun w => w.why = .mark page

/-- A write-back's data, its tag, or the poison notice of a line has been answered (R221, R236). -/
def endWriteBack (s : State) (l : Nat) (e : Ended) : State :=
  let s := writeBackAnswered s l e.delivered
  if !e.delivered && e.timeout then trayFailed s (nodeOf (l * 128)) else s

/-- A scrub's write has landed and its lines are counted, or its part is to be tried again (R424). -/
def endScrub (s : State) (slot : Nat) (p : Packet) (e : Ended) : State :=
  let k := tgetD s.ten.slots slot {}
  if e.delivered then
    if offOf p.addr < 2 ^ 49 then
      bumpBy { s with ten := { s.ten with slots := tset s.ten.slots slot { k with scrubbed := k.scrubbed + lenOf p / 128 } } }
        cSCRUB_LINES (lenOf p / 128)
    else s
  else
    let s := if e.timeout then trayFailed s p.dst else s
    let k' := { k with scrub := k.scrub ++ [(p.addr, lenOf p, decide (field p.payload 124 4 ≠ 0))], retryAt := s.now + ms 10 }
    { s with ten := { s.ten with slots := tset s.ten.slots slot k' } }

/-- The mailbox command that sent an ABT_UP completes (R244). -/
def endAbortUp (s : State) (c : Caller) (e : Ended) : State :=
  if e.code = kSUCCESS then answerOk s c mbABORT_REDUCTION [] else answer s c mbABORT_REDUCTION mFABRIC_STATUS e.code []

/-- A record STORE of the module was refused or abandoned: it is counted in the quarter that sent it, and is not sent again (R168, R170; log entry 39). -/
def recordDropped (s : State) (n : Nat) : State := setEvt (bump s (cWINDOW_EVT_DROP n)) aROD_WINDOW_CFG 9

/-- What the end of a message means to what sent it. -/
def endPurpose (s : State) (m : OwnMsg) (e : Ended) : State :=
  let first := ((sortBy (fun g => g.1) m.got).map (·.2))
  let d := first.flatMap (·.payload)
  match m.purpose with
  | .fill l n => endFill s l n false e d ((List.range n).filter fun i => first.any fun p => bit p.oparg i)
  | .fillTag l n => endFill s l n true e d []
  | .mark page ls => endMark s page ls e
  | .writeBack l => endWriteBack s l e
  | .writeBackTag l => endWriteBack s l e
  | .poisonLines l => endWriteBack s l e
  | .faultRecord job fid =>
    if e.code = kSUCCESS then s else event (recordDropped s (quarterOf (egressPort s m.dst))) eFAULT_RECORD_FAILED sevINFO 15 0 job fid
  | .windowEvent i => if e.code = kSUCCESS then s else recordDropped s (windowQuarter i)
  | .poolFatal _ => if e.code = kSUCCESS then s else recordDropped s (quarterOf (egressPort s m.dst))
  | .combinedLoad i => endCombinedLoad s i e first
  | .combinedAtomic i => endCombinedAtomic s i e d
  | .partialUp _ => s
  | .abortUp c => endAbortUp s c e
  | .resultWrite rid round abseq => resultDone s rid round abseq (e.code = kSUCCESS)
  | .completionRecord rid round abort => recordDone s rid round abort (e.code = kSUCCESS)
  | .beadPartial ch order => partialDone s ch order e.code
  | .scrub slot => endScrub s slot m.pkt e
  | .late => bump s cTENANT_LATE_DROP
  | .plain => s

/-- The end of an access of a slot under removal: what it brings is discarded (R422). -/
def endDraining (s : State) (m : OwnMsg) : State :=
  match m.purpose with
  | .fill l n => rerunFills (fillFailed (bump s cTENANT_DISCARD) l n)
  | .fillTag l n => rerunFills (fillFailed (bump s cTENANT_DISCARD) l n)
  | _ => s

/-- The packets of a message that the module still keeps. -/
def keptOf (s : State) (msg : Nat) : List ((Nat × Nat × Nat × Bool) × Sent) := s.net.sent.filter fun e => e.1.2.1 = msg && !e.1.2.2.2

/-- The packets of a message are no longer kept, nor copies of it that never found a route. -/
def dropPackets (s : State) (msg : Nat) : State :=
  { s with
    net := { s.net with sent := s.net.sent.filter fun x => !(x.1.2.1 = msg && !x.1.2.2.2) }
    queues := { s.queues with noRoute := s.queues.noRoute.filter fun p => !(p.msg = msg && retransmitted p) } }

/-- A message is over: its MSG value rests, from its answer on after a non-idempotent operation (R94), and its purpose is told. -/
def closeOwn (s : State) (k : Nat × Nat) (m : OwnMsg) (e : Ended) : State :=
  let s := dropPackets s k.2
  let s := { s with net := { s.net with
    own := tdel s.net.own k
    msgFree := if nonIdempotent m.pkt then tupd s.net.msgFree k.2 0 (max (s.now + ms 16)) else s.net.msgFree } }
  settle (if m.slot.isSome then (if m.purpose = .late then endPurpose s m e else endDraining s m) else endPurpose s m e)

/-- A write of the module, whose completion R100 reports late when it was transmitted more than once. -/
def lateWrite (m : OwnMsg) : Bool := m.pkt.op = opSTORE || m.pkt.op = opREDUCE_WRITE

/-- A message must not be reported yet: a copy of it waits to leave, or it was sent again less than 4 ms ago (R100). -/
def reportHeld (s : State) (m : OwnMsg) : Bool :=
  lateWrite m && (copyQueued s m.pkt.msg || (match m.again with
    | some t => !due s t (ms 4)
    | none => false))

/-- A message has completed, and is reported now or after the delay of R100. -/
def finishOwn (s : State) (k : Nat × Nat) (m : OwnMsg) (e : Ended) : State :=
  let s := dropPackets s k.2
  if reportHeld s m then { s with net := { s.net with own := tset s.net.own k { m with waiting := some e.code } } } else closeOwn s k m e

/-- A message that completed and waited is reported (R100). -/
def reportLate (s : State) (dst msg : Nat) : State :=
  match tget s.net.own (dst, msg) with
  | some m => match m.waiting with
    | some c => if reportHeld s m then s else closeOwn s (dst, msg) m { code := c, timeout := decide (c = kTRANSPORT_TIMEOUT) }
    | none => s
  | none => s

/-- The message of the module that a NAK names by its MSG: a switch on the path may refuse it as well as its destination (R98, R115; log entry 33). -/
def ownNamed (s : State) (msg : Nat) : Option ((Nat × Nat) × OwnMsg) := s.net.own.find? fun e => e.1.2 = msg && e.2.waiting.isNone

/-- The message of the module that a node answers by its MSG: one sent to it, or to a group of which it is a member. -/
def ownOf (s : State) (src msg : Nat) : Option ((Nat × Nat) × OwnMsg) :=
  s.net.own.find? fun e => e.1.2 = msg && e.2.waiting.isNone
    && (e.1.1 = src || (isGroup e.1.1 && decide (src ∈ ackers s { dst := e.1.1 })))

/-! ### ACK and NAK entries (R96 to R98) -/

/-- A well-formed ACK or NAK packet (R96). -/
def entriesOk (p : Packet) : Bool :=
  decide (lenOf p % 16 = 0 ∧ lenOf p ≤ 4096 ∧ p.msg = 0 ∧ p.pidx = 0 ∧ p.pcnt = 0)
    && (chunks 16 256 p.payload).all fun b => decide (field b 3 1 < 2 ∧ field b 7 1 = 0)

/-- The entries of a packet. -/
def entriesIn (p : Packet) : List AckEntry := (chunks 16 256 p.payload).map parseEntry

/-- The packets an entry names are no longer kept. -/
def dropKept (s : State) (src : Nat) (e : AckEntry) : State :=
  { s with net := { s.net with sent := s.net.sent.filter fun x =>
      !(x.1.1 = src && x.1.2.1 = e.emsg && decide (e.epidx ≤ x.1.2.2.1) && decide (x.1.2.2.1 ≤ e.epidx + e.erun) && x.1.2.2.2 == e.ersp) } }

/-- The acknowledgement of a response (R101, R105). -/
def ackResponse (s : State) (src : Nat) (e : AckEntry) : State :=
  let s := dropKept s src e
  { s with net := { s.net with dedup := tmod s.net.dedup (src, e.emsg) fun d => { d with ackedAt := some s.now } } }

/-- One ACK entry: packets are no longer kept, a mark slows the destination, and a POSTED message completes with its last packet. -/
def takeAckEntry (s : State) (src : Nat) (e : AckEntry) : State :=
  if e.ersp then ackResponse s src e
  else match ownOf s src e.emsg with
    | none => s
    | some (k, m) =>
      let s := if e.ece && paced m.purpose then markCe s src else s
      let s := dropKept s src e
      if (hasFlag m.pkt fPOSTED || m.pkt.tc = 5) && keptOf s k.2 = [] then finishOwn s k m { code := kSUCCESS } else s

/-- The packet of a message is to be sent again no earlier than the hint, or at its timer (R98): to the node that refused it, where it is one the packet is kept for, else to each. -/
def delaySent (s : State) (m : OwnMsg) (src hint code : Nat) : State :=
  let nodes := if src ∈ ackers s m.pkt then [src] else ackers s m.pkt
  nodes.foldl (fun st n =>
    let k := (n, m.pkt.msg, m.pkt.pidx, false)
    let x := (tget st.net.sent k).getD { pkt := { m.pkt with dst := n }, first := some st.now, last := st.now, queued := false }
    { st with net := { st.net with sent := tset st.net.sent k { x with nak := code, reissueAt := if hint = 0 then none else some (st.now + us hint) } } }) s

/-- An entry names a packet. -/
def entryNames (e : AckEntry) (p : Packet) : Bool := decide (e.emsg = p.msg ∧ e.epidx ≤ p.pidx ∧ p.pidx ≤ e.epidx + e.erun)

/-- A NAK entry for a response (R96 to R98): an R-class code asks for it again, any other ends its sending. -/
def nakResponse (s : State) (src : Nat) (e : AckEntry) : State :=
  if isRClass e.estatus then
    { s with net := { s.net with sent := s.net.sent.map fun x =>
        if x.1.1 = src ∧ x.1.2.2.2 = true ∧ entryNames e x.2.pkt = true then
          (x.1, { x.2 with nak := e.estatus, reissueAt := if e.ehint = 0 then none else some (s.now + us e.ehint) }) else x } }
  else dropKept s src e

/-- One NAK entry: an R-class code asks for a re-issue, any other completes the message (R98, R117); one that names no packet of the message does nothing (R96). -/
def takeNakEntry (s : State) (src : Nat) (e : AckEntry) : State :=
  if e.estatus = kSUCCESS then s
  else if e.ersp then nakResponse s src e
  else match ownNamed s e.emsg with
    | none => s
    | some (k, m) =>
      if !entryNames e m.pkt then s
      else if isRClass e.estatus then delaySent s m src e.ehint e.estatus
      else finishOwn s k m { code := e.estatus, detail := e.edetail, hint := e.ehint, nak := true }

/-- An ACK packet (R97). -/
def takeAckPacket (s : State) (p : Packet) : State :=
  if !entriesOk p then s else (entriesIn p).foldl (fun st e => takeAckEntry st p.src e) s

/-- A NAK packet (R98). -/
def takeNakPacket (s : State) (p : Packet) : State :=
  if !entriesOk p then s else (entriesIn p).foldl (fun st e => takeNakEntry st p.src e) s

/-! ### Responses (R108) -/

/-- The ACK of a response with RACK, with E_RSP set, for every copy of it (R96, R108). -/
def ackRack (s : State) (q : Nat) (p : Packet) : State :=
  if hasFlag p fRACK then
    gatherEntry s false (quarterOf q) p.src { emsg := p.msg, ersp := true, epidx := p.pidx, estatus := kSUCCESS, ece := hasFlag p fCE }
  else s

/-- A response to a message that the module does not hold. -/
def strayRsp (s : State) (q : Nat) : State := bump s (cSTRAY_RSP_DROP (quarterOf q))

/-- An RSP that is not laid out as R105 and Table 4-7 give: the whole structure is refused (R5). -/
def rspMalformed (p : Packet) : Bool :=
  if p.status = kSUCCESS then decide (16 < lenOf p) else decide (lenOf p ≠ 16 ∨ field p.payload 2 2 ≠ 0)

/-- An RSP (R105, R106, R108). -/
def takeRsp (s : State) (q : Nat) (p : Packet) : State :=
  if rspMalformed p then refuse s q p kMALFORMED 0 0
  else
    let s := ackRack s q p
    match ownOf s p.src p.msg with
    | none => strayRsp s q
    | some (k, m) =>
      if isRClass p.status then delaySent s m p.src (field p.payload 0 2) p.status
      else finishOwn s k m
        { code := p.status, detail := if p.status = kSUCCESS then 0 else field p.payload 4 4, hint := if p.status = kSUCCESS then 0 else field p.payload 0 2 }

/-- The fields that the packets of one RSP_DATA message share (R90); OPARG is each packet's own mask (R107; log entry 36). -/
def sameAnswer (a b : Packet) : Bool :=
  decide (a.tc = b.tc ∧ a.job = b.job ∧ a.pcnt = b.pcnt) && [fORDERED, fCOMBINABLE, fPOSTED, fCLRPSN].all fun i => hasFlag a i = hasFlag b i

/-- The code of a delivery: that of its lowest poisoned packet, or SUCCESS. -/
def deliveryCode (got : Table Nat Packet) : Nat × Nat :=
  match (sortBy (fun g => g.1) got).find? fun g => g.2.status ≠ kSUCCESS with
  | some g => (g.2.status, g.2.addr % 2 ^ 32)
  | none => (kSUCCESS, 0)

/-- An RSP_DATA: its packets are gathered by PIDX, copies discarded, and the last completes the message; one that differs from the first completes it with MALFORMED (R90, R91, R107, R108). -/
def takeRspData (s : State) (q : Nat) (p : Packet) : State :=
  let s := ackRack s q p
  match ownOf s p.src p.msg with
  | none => strayRsp s q
  | some (k, m) =>
    if m.got.any fun g => !sameAnswer g.2 p then finishOwn s k m { code := kMALFORMED }
    else if thas m.got p.pidx || decide (p.pcnt < p.pidx) then s
    else
      let got := tset m.got p.pidx p
      let m := { m with got := got }
      if p.pcnt < got.length then finishOwn s k m { code := (deliveryCode got).1, detail := (deliveryCode got).2 }
      else { s with net := { s.net with own := tset s.net.own k m } }

/-! ### Timers (R97, R102, R105) -/

/-- A kept packet that has left is due to be sent again. -/
def retxDue (s : State) (x : Sent) : Bool :=
  x.first.isSome && !x.queued && (match x.reissueAt with
    | some t => decide (t ≤ s.now)
    | none => due s x.last x.timer)

/-- 10 ms have passed since a kept packet first left (R97). -/
def tooLong (s : State) (x : Sent) : Bool :=
  match x.first with
  | some t => due s t (ms 10)
  | none => false

/-- A packet is to be transmitted again with RETX: its timer doubles up to 1,280 µs, and runs from the new transmission (R97). -/
def retransmit (s : State) (k : Nat × Nat × Nat × Bool) (x : Sent) : State :=
  let s := { s with net := { s.net with sent := tset s.net.sent k { x with queued := true, timer := min (us 1280) (2 * x.timer), count := x.count + 1, reissueAt := none } } }
  send (bump s (cROD_RETX_SENT (nativeOf (egressPort s k.1) % 64))) (withFlag x.pkt fRETX)

/-- An unanswered idempotent request that is no longer kept is re-issued with the same MSG (R105). -/
def reissueQuiet (s : State) (dst msg : Nat) : State :=
  match tget s.net.own (dst, msg) with
  | some m =>
    if m.purpose = .late then { s with net := { s.net with own := tdel s.net.own (dst, msg) } }
    else if m.waiting.isNone && keptOf s msg = [] && !hasFlag m.pkt fPOSTED && m.pkt.tc ≠ 5 && !nonIdempotent m.pkt && !copyQueued s msg
        && due s (max m.opened m.lastTx) (ms 10) then
      send (keepSent s m.pkt false) (withFlag m.pkt fRETX)
    else s
  | none => s

/-- A retransmission timer expires. -/
def retxExpiry (s : State) (dst msg pidx : Nat) (rsp : Bool) : State :=
  match tget s.net.sent (dst, msg, pidx, rsp) with
  | some x => if retxDue s x && !tooLong s x then retransmit s (dst, msg, pidx, rsp) x else s
  | none => if rsp then s else reissueQuiet s dst msg

/-- A packet unanswered for 10 ms is abandoned: a request's message completes with TRANSPORT_TIMEOUT, a response is no longer sent (R97, R102). -/
def abandon (s : State) (dst msg pidx : Nat) (rsp : Bool) : State :=
  match tget s.net.sent (dst, msg, pidx, rsp) with
  | none => s
  | some x =>
    if !tooLong s x then s
    else if rsp then { s with net := { s.net with sent := tdel s.net.sent (dst, msg, pidx, rsp) } }
    else match ownOf s dst msg with
      | some (k, m) => finishOwn s k m { code := kTRANSPORT_TIMEOUT, detail := 1, timeout := true }
      | none => { s with net := { s.net with sent := tdel s.net.sent (dst, msg, pidx, rsp) } }

/-- The end of a dedup entry's retention (R102, R571). -/
def dedupOver (s : State) (d : Dedup) : Bool :=
  d.done && (match d.combined with
    | some k => !thas s.net.dedup k && due s d.created (ms 18) && (match d.ackedAt with
        | some t => due s t (ms 8)
        | none => d.sentAt = 0 || due s d.sentAt (ms 18))
    | none => due s d.created (ms 8) && (match d.ackedAt with
        | some t => due s t (ms 8)
        | none => due s d.sentAt (ms 18)))

/-- A dedup entry is freed once its retention is over. -/
def expireDedup (s : State) (src msg : Nat) : State :=
  match tget s.net.dedup (src, msg) with
  | some d => if dedupOver s d then { s with net := { s.net with dedup := tdel s.net.dedup (src, msg) } } else s
  | none => s

/-- The bitmap of an incomplete message with nothing accepted for 12 ms is freed and counted (R92). -/
def expireAssembly (s : State) (n src msg : Nat) : State :=
  match tget s.net.assembly (n, src, msg) with
  | some a => if a.got.length ≤ a.first.pcnt ∧ due s a.lastAt (ms 12) then endMessage (bump s (cASSEMBLY_TIMEOUT_COUNT n)) a.first else s
  | none => s

/-- A congestion rate entry rises by 2 GB/s for each 50 µs without a mark, and is freed at line rate (R383). -/
def recoverRate (s : State) (n dst : Nat) : State :=
  match tget s.queues.rates (n, dst) with
  | some r =>
    if !due s r.markAt (us 50) then s
    else if lineRate s (egressPort s dst) ≤ r.rate + 2000 then { s with queues := { s.queues with rates := tdel s.queues.rates (n, dst) } }
    else { s with queues := { s.queues with rates := tset s.queues.rates (n, dst) { r with rate := r.rate + 2000, markAt := s.now } } }
  | none => s

end Sys2Proof.Machine
end

