-- ==== Sys2Proof/Machine/Serve.lean ====
section
/-! DEFINITION. A packet that arrives: the checks of its port, the module's state and its place in the map, and the service it gets at this module (R99, R115, R121, R381, R428, R440, R447, R448, R521, R531 to R533, R570). -/

namespace Sys2Proof.Machine

/-! ### The answers of TC6 (R533) -/

/-- The junction sensors and the greatest valid temperature among them, as STATUS_TJMAX gives it (Table 19-4). -/
def hottest (s : State) : Nat :=
  match ((s.supply.sensors.filter fun x => x.1 < 13 && x.2.valid).map fun x => x.2.temp) with
  | [] => 0
  | t :: ts => ofSigned 16 (ts.foldl max t)

/-- DVORRO_VERSION: that of the running image, 0 before phase IMAGE ends and in fetch mode. -/
def dvorroVersion (s : State) : Nat := if s.supply.imageDone then s.rkn.running.version else 0

/-- The 64 bytes of an IDENTITY answer (Table 18-5). -/
def identityBytes (s : State) : List Byte :=
  padTo 64 (le 2 Config.vendor ++ le 2 0x1280 ++ le 1 Config.stepping ++ le 1 1 ++ zeros 2 ++ padTo 16 Config.deviceUid ++ le 2 (myNode s) ++ le 2 s.supply.phase
    ++ zeros 4 ++ le 8 (dvorroVersion s))

/-- The 32 bytes of a STATUS_QUERY answer (Table 18-6). -/
def statusBytes (s : State) : List Byte :=
  padTo 32 (le 2 (s.supply.phase + 2 ^ 3 * flag (isReady s) + 2 ^ 4 * s.supply.level + 2 ^ 7 * flag s.map.member + 2 ^ 8 * flag s.map.departing)
    ++ le 2 s.map.epoch ++ le 2 s.supply.vin ++ le 2 s.supply.pin ++ le 2 (hottest s) ++ zeros 6 ++ le 8 (timeNow s))

/-- IDENTITY or STATUS_QUERY: at most one answer every 10 µs on a port. -/
def serveQuery (s : State) (q : Nat) (p : Packet) : State :=
  let busy := match tget s.supply.tc6At q with
    | some t => !due s t (us 10)
    | none => false
  if busy then s
  else if lenOf p ≠ 0 ∨ p.oparg ≠ 0 ∨ p.addr ≠ 0 ∨ p.cap ≠ 0 then refuse s q p kMALFORMED 0 0
  else
    let d := if p.op = opIDENTITY then identityBytes s else statusBytes s
    let s := { s with supply := { s.supply with tc6At := tset s.supply.tc6At q s.now } }
    let a := sealPacket { responsePacket p opRSP_DATA kSUCCESS 0 0 d with tc := 6, src := myNode s }
    if p.src = 0xFFFF ∨ q ≠ selfPort ∧ p.dst = 0xFFFF then sendOn s q a else send s a

/-! ### The map protocol -/

/-- A map message on a port: hop messages only between switches (R428, R433). -/
def serveMap (s : State) (q : Nat) (p : Packet) : State :=
  let d := p.payload
  let kind := p.oparg % 256
  let hk := field d 0 4 % 16
  if roleOf s q ≠ roleSWITCH ∧ q ≠ selfPort ∧ p.op ≠ opMAP_ACK then s
  else if p.op = opMAP_LSR then (if lsrMalformed p then mapMalformed s else takeLsr s q p)
  else if p.op = opMAP_ACK then
    (if decide (lenOf p ≠ 8) || !(mapHeaderOk p true || mapHeaderOk p false) then mapMalformed s else takeAck s q p)
  else if p.op = opMAP_PREPARE then
    (if prepareMalformed p then mapMalformed s else if kind = 1 then takeSnapshot s q p else takePrepare s q p)
  else if p.op = opMAP_VOTE then
    if voteMalformed p false then mapMalformed s
    else
      let s := ackRouted s p.src opMAP_VOTE 0 0 (field d 0 4)
      match s.map.coord with
      | some c => if c.propId = field d 0 4 ∧ c.epoch = field d 4 1 then takeVote s p.src (field d 5 1) (field d 6 2) else s
      | none => s
  else if p.op = opMAP_COMMIT then (if voteMalformed p true then mapMalformed s else takeCommit s q p)
  else if p.op = opMAP_PULL then
    if !mapHeaderOk p true || decide (lenOf p ≠ 8 ∨ 1 < field d 0 1 ∨ field d 2 6 ≠ 0) then mapMalformed s
    else if field d 0 1 = 1 then floodLsr s
    else sendSnapshot s q (field d 1 1)
  else if p.op = opMAP_HANDOFF then
    if handoffMalformed p then mapMalformed s
    else if hk = 0 then
      let s := takeOffer s p
      if hoLast p then rerunHandoff s (hoTray p) else s
    else if hk = 1 then takeAccept s p
    else if hk = 2 then takeProbe s q p
    else rerunHandoff (takeClaim s p) (hoTray p)
  else s

/-! ### A request at this module -/

/-- A combinable request at its home is served by itself; one that was accepted and waits there beside an equal one has joined it (R144, R166). -/
def countJoined (s t : State) (q : Nat) (p : Packet) : State :=
  if (combinableAtomic s p || combinableLoad s true p) && s.pool.waiters.any (fun w => sameKey w.req.pkt p) && !waitingCopy s p && waitingCopy t p then
    bump t (cCOMBINE_JOINED (quarterOf q))
  else t

/-- What a packet does at this module, by its operation. -/
def serveOp (s : State) (r : Req) : State :=
  let p := r.pkt
  let q := r.lport
  if p.op = opLOAD then (if aspaceOf p = 3 then serveCommandLoad s r else countJoined s (serveMem s r) q p)
  else if p.op = opSTORE then (if toCommandSpace p then serveCommandStore s r else serveMem s r)
  else if p.op = opATOMIC then countJoined s (serveMem s r) q p
  else if p.op = opFENCE ∨ p.op = opREDUCE_WRITE then serveMem s r
  else if p.op = opPUBLISH then servePublish s r
  else if p.op = opGATHER then serveGather s r
  else if p.op = opSIEVE then serveSieve s r
  else if p.op = opWOPEN then serveWopen s r
  else if p.op = opWREVOKE then serveWrevoke s r
  else if p.op = opREDUCE ∨ p.op = opPARTIAL then serveCarry s r
  else if p.op = opCREQ then serveCreq s r
  else if p.op = opCRSP then takeCrsp s q p
  else if p.op = opCDAT then takeCdat s q p
  else if p.op = opRSP then takeRsp s q p
  else if p.op = opRSP_DATA then takeRspData s q p
  else if p.op = opACK then takeAckPacket s p
  else if p.op = opNAK then takeNakPacket s p
  else if p.op = opMIRROR then bump s (cMIRROR_DISCARD (quarterOf q))
  else if p.op = opIDENTITY ∨ p.op = opSTATUS_QUERY then serveQuery s q p
  else serveMap s q p

/-- The service of a packet at this module: one that its flow waited for is no longer pending (R139), one that differs from its message ends it (R90), another acts. -/
def serveHome (s : State) (r : Req) : State :=
  let s := unpend s r.pkt
  if oddPacket s r.pkt then endOdd s r.lport r.pkt ((heldPacket s r.pkt).getD r.pkt) else serveOp s r

/-- A request that this module already knows: a copy of one it holds a record of, or that waits here. -/
def knownCopy (s : State) (p : Packet) : Bool := (dedupOf s p).isSome || waitingCopy s p

/-- A request in the sense of R570 that is refused by a NAK or CRSP. -/
def asks (p : Packet) : Bool := isRequestOp p.op && p.op ≠ opSNOOP

/-- A packet for this module alone. -/
def forMe (s : State) (p : Packet) : Bool := p.dst = myNode s || p.dst = 0xFFFF

/-- The home quarter of a packet for this module: that of the first line it names, as the tables stand, or of its home line number; else the quarter it came in by (R111; log entry 34). -/
def homeQuarter (s : State) (q : Nat) (p : Packet) : Nat :=
  let w : Waiter := { req := { pkt := p, lport := q }, why := .behind, win := if throughWindow p then some (capIndex p.cap) else none }
  if p.op = opCREQ then (if ckind p < 3 then quarterOf q else p.addr / 2 ^ 27 % 4)
  else if (p.op ∈ [opLOAD, opSTORE, opATOMIC, opREDUCE_WRITE]) && !toCommandSpace p then
    match (reach s (quarterOf q) (accessJob s w) p.job rightRead (accessVa s w) 1).1 with
    | .ok (x :: _) => lineQuarter s (lineOf x.pa)
    | _ => quarterOf q
  else quarterOf q

/-- A packet of an ordered flow that a resequencer at its target orders (R109, R111). -/
def inFlow (p : Packet) : Bool := hasFlag p fORDERED && !isCohOp p.op && !(p.op ∈ [opACK, opNAK])

/-- A packet crosses to its home quarter (R21); an ordered one goes through its resequencer there, and what it releases follows it (R111); others are served at once. -/
def deliverHere (s : State) (q : Nat) (t : Ns) (p : Packet) : State :=
  let r : Req := { pkt := p, lport := q, at_ := t }
  let n := homeQuarter s q p
  let s := if q = selfPort then s else crossPacket s (quarterOf q) n p
  if inFlow p then
    match resequence s n r with
    | (.deliver first rest, s) => (first :: rest).foldl serveHome s
    | (.hold, s) => s
    | (.refuse code, s) => refuse s q p code 0 0
  else serveHome s r

/-- What an ACCELERATOR port checks of a request's JOB and address space (R120, R121). -/
def jobRefusal (s : State) (q : Nat) (p : Packet) : Option Nat :=
  if roleOf s q ≠ roleACCELERATOR ∨ !asks p ∨ !(p.tc ∈ [0, 3, 4, 5]) then none
  else if (p.op = opLOAD ∨ p.op = opSTORE ∨ p.op = opATOMIC) ∧ aspaceOf p = 2 then some kACCESS_DENIED
  else if (p.op = opLOAD ∨ p.op = opSTORE) ∧ aspaceOf p = 3 ∧ p.job = 0 then none
  else if !(p.job ∈ portJobs s q) || p.job = 0 then some kJOB_UNKNOWN
  else none

/-- A request that the supply or a departure turns away (R448, R521): the DETAIL of its NOT_READY. -/
def notAdmitted (s : State) (q : Nat) (p : Packet) : Option Nat :=
  if !asks p || p.tc = 6 || knownCopy s p then none
  else if 3 ≤ level s ∧ ((forMe s p && (p.tc = 0 || p.tc = 5)) || roleOf s q = roleACCELERATOR) then some 2
  else if s.map.departing && forMe s p then some 3
  else none

/-- An endpoint's packet before its node has an ID (R447). -/
def unassigned (s : State) (q : Nat) (p : Packet) : Bool :=
  (roleOf s q = roleACCELERATOR || roleOf s q = roleTRAY) && p.tc ≠ 6 && assignedAt s q = 0xFFFF

/-- The packet's EPOCH is judged at its home as on its way (R440); coherence packets cross one link and TC6 carries the map itself. -/
def staleEpoch (s : State) (p : Packet) : Bool :=
  asks p && !isCohOp p.op && (p.tc ∈ [0, 3, 4, 5]) && (compFor s p.epoch).isNone

/-- A packet that has passed the checks of its port, for this module or in transit. One whose source has no node ID is never forwarded (R84),
and coherence operations cross one link: one for another node is inconsistent (R88; log entry 35). -/
def place (s : State) (q : Nat) (c : Colour) (t : Ns) (p : Packet) : State :=
  if forMe s p then (if staleEpoch s p && !knownCopy s p then reroute s q p else deliverHere s q t p)
  else if p.src = 0xFFFF then s
  else if isCohOp p.op then refuse s q p kMALFORMED 0 0
  else match forward s q c t p with
    | (true, s) => deliverHere s q t p
    | (false, s) => s

/-- Identity and status exchanges are answered on every port and from phase ROM on (R428, R531). -/
def isQuery (p : Packet) : Bool := p.op = opIDENTITY || p.op = opSTATUS_QUERY

/-- A map message. -/
def isMap (p : Packet) : Bool := opMAP_LSR ≤ p.op && p.op ≤ opMAP_HANDOFF

/-- The checks a packet meets in order, once its CRC holds and it has its colour. -/
def admitPacket (s : State) (q : Nat) (c : Colour) (t : Ns) (p : Packet) : State :=
  if !isReady s && !(isQuery p && 3 ≤ s.supply.phase) && !(isMap p && 6 ≤ s.supply.phase && roleOf s q = roleSWITCH) then
    (if asks p then refuseNotReady s q p 1 (readyHint s) else s)
  else match headerCheck p with
    | some k => refuse s q p k (if k = kUNSUPPORTED_VERSION then 1 else 0) 0
    | none =>
      if isQuery p && forMe s p then serveQuery s q p
      else if roleOf s q = roleMIRROR then bump s (cMIRROR_DISCARD (quarterOf q))
      else if roleOf s q = roleNONE then refuse s q p kACCESS_DENIED 0 0
      else if unassigned s q p then refuse s q p kUNKNOWN_DESTINATION 0 0
      else match notAdmitted s q p with
        | some d => refuseNotReady s q p d 1000
        | none => match jobRefusal s q p with
          | some k => refuse s q p k 0 0
          | none => place s q c t p

/-! ### Reception -/

/-- The stream of a port in which a packet arrived. -/
def arrivedIn (x : LPort) (p : Packet) : Stream := if lossless p.tc then x.rxLossless else x.rxLossy

/-- When a packet's first byte entered its port's ingress dock; now for one that did not come over the link (R99). -/
def arrivedAt (s : State) (q : Nat) (p : Packet) : Ns :=
  (((arrivedIn (lport s q) p).packets.find? fun e => e.2 = packetBytes p).map (·.1)).getD s.now

/-- A packet's bytes leave the stream in which they arrived. -/
def takeBytes (x : Stream) (p : Packet) : Stream := { x with packets := x.packets.eraseP fun e => e.2 = packetBytes p }

/-- The packet leaves its port's ingress dock, where it came over the link. -/
def takeFromDock (s : State) (q : Nat) (p : Packet) : State :=
  let x := lport s q
  if lossless p.tc then setLport s q { x with rxLossless := takeBytes x.rxLossless p } else setLport s q { x with rxLossy := takeBytes x.rxLossy p }

/-- A packet that came whole over the link before its port went down is still in its dock (R77 discards only the replay buffer and the credits). -/
def inDock (s : State) (q : Nat) (p : Packet) : Bool := (arrivedIn (lport s q) p).packets.any fun e => e.2 = packetBytes p

/-- The cells of a port's packets of a class that wait in the ingress reserve (R373). -/
def reserveCells (s : State) (q tc : Nat) : Nat :=
  (s.queues.out.map fun e => cellsIn (e.2.reserve.filter fun x => x.ingress = some q && x.pkt.tc = tc && !x.freed)).sum

/-- A request that has just come to wait for the dirty budget keeps its cells (R222). -/
def keepCells (t : State) (q order : Nat) (p : Packet) : State :=
  let new (w : Waiter) : Bool := decide (p.tc = 0 ∧ order < w.req.order ∧ w.req.lport = q ∧ w.req.pkt = p) && onBudget w
  { t with pool := { t.pool with waiters := t.pool.waiters.map fun w => if new w then { w with credit := true } else w } }

/-- The cells of a port's requests that wait for the dirty budget. -/
def budgetCells (s : State) (q tc : Nat) : Nat :=
  ((s.pool.waiters.filter fun w => w.credit && decide (w.req.lport = q ∧ w.req.pkt.tc = tc)).map fun w => cellsOf w.req.pkt).sum

/-- The packet acts, and the credits of a lossless one return, but while it stays in the reserve, waits for the dirty budget or for an engine (R66, R222, R268).
Those of a packet that came before its port last went DOWN are gone (R77). -/
def withCredits (s : State) (q : Nat) (t : Ns) (p : Packet) (f : State → State) : State :=
  if lossless p.tc && decide ((lport s q).since ≤ t) then
    let u := keepCells (f s) q s.pool.accepted p
    returnCredits u q p.tc (cellsOf p - (reserveCells u q p.tc - reserveCells s q p.tc) - (budgetCells u q p.tc - budgetCells s q p.tc)
      - (if heldCopies s q p < heldCopies u q p then cellsOf p else 0))
  else f s

/-- A packet of the module for itself comes off its internal queue (R376). -/
def takeInternal (s : State) (p : Packet) : Option State :=
  let l := tgetD s.queues.intern p.tc []
  if l.any fun x => x.pkt = p then
    some (noteLeft { s with queues := { s.queues with intern := tset s.queues.intern p.tc (l.eraseP fun x => x.pkt = p) } } p)
  else none

/-- A packet that arrives on a port, or from the module itself: it is checked, and served here, forwarded, refused or discarded. -/
def receive (s : State) (q : Nat) (p : Packet) : State :=
  if q = selfPort then
    match takeInternal s p with
    | some s => settle (deliverHere s q s.now p)
    | none => s
  else if !isUp s q && !inDock s q p then s
  else
    let t := arrivedAt s q p
    let s := takeFromDock s q p
    withCredits s q t p fun s =>
      if p.crc ≠ packetCrc p then bump s (cROD_E2E_CRC_ERR (nativeOf q % 64))
      else
        let (c, s) := police s q p
        if 2 ≤ level s ∧ (p.tc = 3 ∨ p.tc = 4 ∨ p.tc = 7) then capture (bump s (cLPORT_DROP_SHED q)) q (2 * p.tc) 5 c p
        else settle (admitPacket (capture s q (2 * p.tc) 0 c p) q c t p)

end Sys2Proof.Machine
end

