-- ==== Sys2Proof/Machine/Timers.lean ====
section
/-! DEFINITION. The timers of the transport and of waiting requests (R92, R95, R97, R100, R102, R139, R142, R147, R151, R153, R198, R233, R383), and the end of a translation fence (R135).
A timer's command acts once its time has come; before it, and where nothing is left for it to act on, it changes nothing. -/

namespace Sys2Proof.Machine

/-! ### The transport -/

/-- The gathered acknowledgements of a source leave (R95). -/
def execAckGatherFlush (quarter src : Nat) (s : State) : Out State Fault Refusal := .next (flushEntries s quarter src)

/-- A retransmission timer expires (R97, R105). -/
def execRetxTimerExpiry (dst msg pidx : Nat) (rsp : Bool) (s : State) : Out State Fault Refusal := .next (settle (retxExpiry s dst msg pidx rsp))

/-- A packet unanswered for 10 ms is abandoned (R97). -/
def execPacketAbandon (dst msg pidx : Nat) (rsp : Bool) (s : State) : Out State Fault Refusal := .next (settle (abandon s dst msg pidx rsp))

/-- A message bitmap is freed (R92). -/
def execAssemblyTimeout (quarter src msg : Nat) (s : State) : Out State Fault Refusal := .next (settle (expireAssembly s quarter src msg))

/-- A dedup entry's retention ends (R102). -/
def execDedupExpiry (src msg : Nat) (s : State) : Out State Fault Refusal := .next (settle (expireDedup s src msg))

/-- A completed write that was transmitted again is reported (R100). -/
def execWriteCompletionDelay (dst msg : Nat) (s : State) : Out State Fault Refusal := .next (settle (reportLate s dst msg))

/-- A congestion rate entry recovers (R383). -/
def execRateEntryRecovery (quarter dst : Nat) (s : State) : Out State Fault Refusal := .next (recoverRate s quarter dst)

/-! ### Parked requests -/

/-- PARK_TIMEOUT of a job in ns; of a job that is not installed here the default of Table 5-6. -/
def parkTimeout (s : State) (job : Nat) : Ns := ((tget s.pool.jobs job).map (·.parkTimeout)).getD 100 * us 100

/-- Waiting requests leave without effect with a code, in the order of acceptance. -/
def failAll (s : State) (pick : Waiter → Bool) (code : Nat) : State :=
  let ws := sortBy (fun w => w.req.order) (s.pool.waiters.filter pick)
  ws.foldl (fun st w => failWith st w code 0 0) { s with pool := { s.pool with waiters := s.pool.waiters.filter fun w => !pick w } }

/-- A fault of a job leaves the list of open ones. -/
def closeFault (s : State) (job fid : Nat) : State :=
  match tget s.pool.jobs job with
  | some j => setJob s job { j with faults := tdel j.faults fid }
  | none => s

/-- The requests parked on a fault. -/
def onFault (job fid : Nat) (w : Waiter) : Bool := w.why = .fault job fid

/-- A fault still open PARK_TIMEOUT after its first park fails its requests and closes (R142); the count is kept in the quarter of the first of them. -/
def faultTimeout (s : State) (job fid : Nat) : State :=
  match tget s.pool.jobs job with
  | none => s
  | some j => match tget j.faults fid with
    | none => s
    | some f =>
      if !due s f.opened (j.parkTimeout * us 100) then s
      else
        let n := ((s.pool.waiters.find? (onFault job fid)).map (·.quarter)).getD 0
        failAll (closeFault (bump s (cFAULT_TIMEOUT_COUNT n)) job fid) (onFault job fid) kFAULT_TIMEOUT

/-- A fault times out (R142). -/
def execFaultTimeout (job fid : Nat) (s : State) : Out State Fault Refusal := .next (settle (faultTimeout s job fid))

/-- A packet of a flow that was refused is no longer pending (R139). -/
def flowExpiry (s : State) (src dst flow fseq : Nat) : State :=
  match tget s.pool.pendingFlow (src, flow, fseq) with
  | some (t, job) =>
    if dst = myNode s && due s t (parkTimeout s job) then
      { s with pool := { s.pool with pendingFlow := tdel s.pool.pendingFlow (src, flow, fseq) } }
    else s
  | none => s

/-- A refused packet stops being pending PARK_TIMEOUT after its refusal (R139). -/
def execFlowPendingExpiry (src dst flow fseq : Nat) (s : State) : Out State Fault Refusal := .next (settle (flowExpiry s src dst flow fseq))

/-- A request that has waited PARK_TIMEOUT for its own reason fails with `FAULT_TIMEOUT` (R139, R233). -/
def parkExpiry (s : State) (quarter src msg : Nat) (why : Why → Bool) : State :=
  failAll s (fun w => why w.why && decide (w.quarter = quarter ∧ w.req.pkt.src = src ∧ w.req.pkt.msg = msg)
    && due s w.since (parkTimeout s (accessJob s w))) kFAULT_TIMEOUT

/-- Parked behind an earlier packet of the flow. -/
def whyBehind (w : Why) : Bool := w = .behind

/-- Parked on an unreachable tray. -/
def whyTray (w : Why) : Bool :=
  match w with
  | .tray _ => true
  | _ => false

/-- A packet parked behind an earlier one fails (R139). -/
def execParkedBehindTimeout (quarter src msg : Nat) (s : State) : Out State Fault Refusal :=
  .next (settle (parkExpiry s quarter src msg whyBehind))

/-- A request parked on an unreachable tray fails (R233). -/
def execUnreachableTrayParkTimeout (quarter src msg : Nat) (s : State) : Out State Fault Refusal :=
  .next (settle (parkExpiry s quarter src msg whyTray))

/-! ### Ranked epochs -/

/-- The atomics held in an epoch. -/
def inEpoch (job r : Nat) (w : Waiter) : Bool := w.why = .ranked job r

/-- The place of an atomic among its source's in an epoch: how far its FSEQ lies past the earliest (R151). -/
def seqPlace (ws : List Waiter) (w : Waiter) : Nat :=
  let mine := ws.filter fun x => x.req.pkt.src = w.req.pkt.src
  let first := (mine.find? fun x => !mine.any fun y => earlierSeq y.req.pkt.fseq x.req.pkt.fseq).getD w
  gap 16 w.req.pkt.fseq first.req.pkt.fseq

/-- The held atomics of an epoch in ascending SRC, and in ascending FSEQ within one SRC (R151). -/
def epochOrder (s : State) (job r : Nat) : List Waiter :=
  let ws := s.pool.waiters.filter (inEpoch job r)
  sortBy (fun w => w.req.pkt.src * 65536 + seqPlace ws w) ws

/-- A held atomic is applied: it takes a new place in the order of requests, so that a FENCE of another source need not wait for it. -/
def applyHeld (s : State) (w : Waiter) : State :=
  let o := s.pool.accepted + 1
  runAtomic (bump { s with pool := { s.pool with accepted := o } } (cRANKED_APPLIED w.quarter)) { w with req := { w.req with order := o } }

/-- An epoch is applied and closed (R151, R152). -/
def applyEpoch (s : State) (job r : Nat) : State :=
  match tget s.pool.jobs job with
  | none => s
  | some j =>
    let ws := epochOrder s job r
    let s := setJob s job { j with epochs := tdel j.epochs r, lastApplied := r }
    ws.foldl applyHeld { s with pool := { s.pool with waiters := s.pool.waiters.filter fun w => !inEpoch job r w } }

/-- The sources of a job's RANKED_SET that have not closed an epoch. -/
def unclosed (j : Job) (r : Nat) : List Nat := j.rankedSet.filter fun n => !((tgetD j.epochs r (none, [])).2.contains n)

/-- No other epoch of the job that all sources have closed comes first. -/
def epochFirst (j : Job) (r : Nat) : Bool := j.epochs.all fun e => e.1 = r || decide (gap 8 e.1 r < 128) || decide (unclosed j e.1 ≠ [])

/-- The epoch is open, all of its sources have closed it, and none comes before it. -/
def epochReady (s : State) (job r : Nat) : Bool :=
  match tget s.pool.jobs job with
  | some j => thas j.epochs r && epochFirst j r && decide (unclosed j r = [])
  | none => false

/-- An epoch that all sources have closed is applied (R151). -/
def execRankedEpochApply (job repoch : Nat) (s : State) : Out State Fault Refusal :=
  .next (if epochReady s job repoch then settle (applyEpoch s job repoch) else s)

/-- The RANKED_TIMEOUT records of an epoch (R465). -/
def rankedRecords (s : State) (job r : Nat) (missing : List Nat) : State :=
  let m := missing.length
  (List.range (ceilDiv m 12)).foldl (fun st i =>
    let ids := ((missing.drop (12 * i)).take 12).flatMap (le 2)
    raise st { etype := eRANKED_TIMEOUT, sev := sevINFO, uclass := 15, arg0 := job + r * 65536, arg1 := m + i * 65536
               tail := ids ++ List.replicate (24 - ids.length) 255 }) s

/-- An epoch not closed PARK_TIMEOUT after its first atomic is applied as held, and its missing sources are named (R153). -/
def epochTimeout (s : State) (job r : Nat) : State :=
  match tget s.pool.jobs job with
  | none => s
  | some j => match tget j.epochs r with
    | some (some t, _) =>
      if due s t (j.parkTimeout * us 100) && decide (unclosed j r ≠ []) then rankedRecords (applyEpoch s job r) job r (sortAsc (unclosed j r)) else s
    | _ => s

/-- An epoch times out (R153). -/
def execRankedEpochTimeout (job repoch : Nat) (s : State) : Out State Fault Refusal := .next (settle (epochTimeout s job repoch))

/-! ### Combining and lines -/

/-- A combining entry reaches the head of its queue (R147). -/
def execCombinedAtomicSend (dst entry : Nat) (s : State) : Out State Fault Refusal :=
  .next (match tget s.pool.combine entry with
    | some e => if e.head.dst = dst && !e.sent && e.head.op = opATOMIC then sendCombined s entry else s
    | none => s)

/-- The next request that waits for a home line runs, once the line is at rest (R198). -/
def releaseLine (s : State) (h : Nat) : State :=
  if underWay s h then s
  else match (sortBy (fun w => w.req.order) (s.pool.waiters.filter fun w => w.why = .line h)) with
    | w :: _ => transactionOver (rerun s w) h
    | [] => s

/-- A line is released (R198). -/
def execLineRelease (line : Nat) (s : State) : Out State Fault Refusal := .next (settle (releaseLine s line))

/-! ### Translation fences -/

/-- What follows a fence: the parked requests walk again, the publication or the command is answered. -/
def fenceOver (s : State) (f : Fence) : State :=
  let s := match f.fault with
    | some (job, fid) => rerunAll (closeFault s job fid) (onFault job fid)
    | none => s
  let s := match f.publish with
    | some (w, v) => respond (leaveWindow s w) w.req.lport w.req.pkt kSUCCESS 0 0 v (le 8 v)
    | none => s
  match f.caller with
  | some (c, op) => answerOk s c op []
  | none => s

/-- A fence ends once no old page is held by an agent and no bead command uses one; until then its lines are back-invalidated (R135, R206, R349). -/
def fenceDone (s : State) (n : Nat) : State :=
  match tget s.pool.fences n with
  | none => s
  | some f =>
    if probeDone s f.probe && !beadsUse s f.spans then
      fenceOver { s with pool := { s.pool with fences := tdel s.pool.fences n } } f
    else probeLines s f.probe

/-- A translation fence is done (R135). -/
def execTranslationFenceDone (fence : Nat) (s : State) : Out State Fault Refusal := .next (settle (fenceDone s fence))

end Sys2Proof.Machine
end

