-- ==== Sys2Proof/Machine/Jobs.lean ====
section
/-! DEFINITION. Jobs at a home and their translation tables: SET_PORT_JOBS, INSTALL_JOB, REMOVE_JOB, WRITE_TT_ENTRIES and RESOLVE_FAULT (R121, R132, R135, R136, R141, R143, R180, R413, R421, R574). -/

namespace Sys2Proof.Machine

/-- JOBSET_EPOCH of each slot whose grant names a job rises by one (R421). -/
def jobsetMoved (s : State) (job : Nat) : State :=
  let l := s.ten.slots.map fun e =>
    if e.2.jobs.contains job then (e.1, { e.2 with jobsetEpoch := (e.2.jobsetEpoch + 1) % 2 ^ 32 }) else e
  { s with ten := { s.ten with slots := l } }

/-- The first member of a list that breaks a bound, as the DETAIL of its byte offset. -/
def badItem (off size : Nat) (bad : Nat → Bool) (l : List Nat) : Option Nat := (l.findIdx? bad).map fun i => off + size * i

/-! ### Job sets -/

/-- A job set is installed on a port (R121). -/
def setPortJobs (s : State) (c : Caller) (q : Nat) (jobs : List Nat) : State :=
  let op := mbSET_PORT_JOBS
  if 512 ≤ q then answer s c op mARGUMENT_INVALID 0 []
  else if 64 < jobs.length then answer s c op mARGUMENT_INVALID 2 []
  else match badItem 4 2 (fun j => 65536 ≤ j) jobs with
    | some d => answer s c op mARGUMENT_INVALID d []
    | none =>
      if !isLport s q then answer s c op mOBJECT_NOT_FOUND 0 []
      else
        let old := portJobs s q
        let moved := (sortAsc (old ++ jobs)).filter fun j => old.contains j ≠ jobs.contains j
        answerOk (moved.foldl jobsetMoved { s with pool := { s.pool with portJobs := tset s.pool.portJobs q jobs } }) c op []

/-- SET_PORT_JOBS (R121). -/
def execSetPortJobs (c : Caller) (lport : Nat) (jobs : List Nat) (s : State) : Out State Fault Refusal :=
  .next (mboxRun s c mbSET_PORT_JOBS [] fun s => setPortJobs s c lport jobs)

/-! ### Installing and removing a job -/

/-- A power of two from 16 to 65,536. -/
def slotsOk (n : Nat) : Bool := (List.range 13).any fun i => n = 2 ^ (i + 4)

/-- The byte offset of the first argument of INSTALL_JOB outside Table 5-6. -/
def installBad (s : State) (a : InstallJobArgs) : Option Nat :=
  if a.job = 0 ∨ 65536 ≤ a.job then some 0
  else if 1 < a.ranked then some 2
  else if 0x4000 ≤ a.pagerNode then some 4
  else if !slotsOk a.faultSlots then some 8
  else if a.parkTimeout = 0 ∨ 2500 < a.parkTimeout then some 12
  else if a.ttRoot % 4096 ≠ 0 ∨ ttSize s < a.ttRoot + 4096 then some 16
  else if a.pagerCap = 0 ∨ 2 ^ 64 ≤ a.pagerCap then some 24
  else if a.rankedSet.any fun n => decide (0x4000 ≤ n) then some 32
  else none

/-- A job is installed at this home (R136). -/
def installJob (s : State) (c : Caller) (a : InstallJobArgs) : State :=
  let op := mbINSTALL_JOB
  match installBad s a with
  | some d => answer s c op mARGUMENT_INVALID d []
  | none =>
    if thas s.pool.jobs a.job then answer s c op mOBJECT_STATE_CONFLICT 0 []
    else
      let j : Job := { ttRoot := a.ttRoot, pagerCap := a.pagerCap, pagerNode := a.pagerNode, faultSlots := a.faultSlots
                       parkTimeout := a.parkTimeout, ranked := decide (a.ranked = 1), rankedSet := sortAsc a.rankedSet }
      let s := jobsetMoved (setJob s a.job j) a.job
      answerOk (settle (noteLost s (s.pool.stacksLost ≠ []))) c op []

/-- INSTALL_JOB (R136). -/
def execInstallJob (c : Caller) (a : InstallJobArgs) (s : State) : Out State Fault Refusal :=
  .next (mboxRun s c mbINSTALL_JOB [a.job] fun s => installJob s c a)

/-- The leaves of a job's tables, with their levels. -/
def jobLeaves (s : State) (j : Job) : List (Nat × Nat) :=
  (List.range 512).flatMap fun i => leavesUnder s 3 ((ttEntry s (j.ttRoot + 8 * i)).getD 0)

/-- The windows that a job owns. -/
def ownedWindows (s : State) (job : Nat) : List Nat := (s.win.table.filter fun e => e.2.ownerJob = job).map (·.1)

/-- A job is removed: its parked requests, windows, channels and bead commands end, and the command completes once no agent holds a page of it (R135, R143, R180, R307, R340). -/
def removeJob (s : State) (c : Caller) (job : Nat) : State :=
  let op := mbREMOVE_JOB
  match tget s.pool.jobs job with
  | none => answer s c op mOBJECT_NOT_FOUND 0 []
  | some j =>
    let probe := (jobLeaves s j).flatMap fun x => heldOfLeaf s x.1 x.2
    let s := { s with pool := { s.pool with
      jobs := tdel s.pool.jobs job, xlate := s.pool.xlate.filter fun e => e.1.2.1 ≠ job } }
    let s := failAll s (fun w => parks w.why && w.req.pkt.job = job) kJOB_UNKNOWN
    let s := (ownedWindows s job).foldl forceRevoke s
    let s := releaseJobBeads (closeJobChannels s job) job
    settle (startFence (jobsetMoved s job) { caller := some (c, op), probe := probe, spans := [(job, 0, 2 ^ 48)] })

/-- REMOVE_JOB (R143). -/
def execRemoveJob (c : Caller) (job : Nat) (s : State) : Out State Fault Refusal :=
  .next (mboxRun s c mbREMOVE_JOB [job] fun s => removeJob s c job)

/-! ### Writing entries -/

/-- Frames of 64 KiB in a leaf at a level. -/
def levelFrames (l : Nat) : Nat := pageSize l / 65536

/-- An entry that a mapping command refuses at a level (R132, R215, R413). -/
def entryRefused (s : State) (level e : Nat) : Bool :=
  if ttKind e = 0 then decide (e ≠ 0)
  else if ttKind e = 3 then true
  else if ttKind e = 1 then decide (level = 3 ∨ bits e 63 37 ≠ 0 ∨ bits e 11 2 ≠ 0)
  else decide (level = 0 ∨ leafTier e = 3 ∨ bit e 11 ∨ bits e 23 22 ≠ 0 ∨ leafPfn e % levelFrames level ≠ 0)
    || (if leafProt e then decide ((keySlot s (leafSlot e)).state = .free) else decide (leafSlot e ≠ 0))
    || (if leafNode e = myNode s then decide (residentFrames s < leafPfn e + levelFrames level) else decide (leafTier e = tierCOMPRESSED))

/-- LEAF_REFS of the slot that a leaf names, changed (R413). -/
def countRef (s : State) (e : Nat) (f : Nat → Nat) : State :=
  if ttKind e = 2 && leafProt e then
    { s with ten := { s.ten with slots := tupd s.ten.slots (leafSlot e) {} fun k => { k with leafRefs := f k.leafRefs } } }
  else s

/-- The images of a compressed page that is no longer mapped are dropped. -/
def dropImages (s : State) (level e : Nat) : State :=
  if ttKind e = 2 && leafTier e = tierCOMPRESSED then
    let first := leafPfn e * 16
    { s with pool := { s.pool with images := s.pool.images.filter fun i => !(decide (first ≤ i.1) && decide (i.1 < first + 16 * levelFrames level)) } }
  else s

/-- A page of a lost tray that a new leaf names is served again (R234). -/
def reviveLeaf (s : State) (level e : Nat) : State :=
  if ttKind e = 2 && leafTier e ≠ tierABSENT && decide (leafNode e ∈ s.pool.traysLost) then
    { s with pool := { s.pool with revived := s.pool.revived ++ [(leafAddr level e 0, pageSize level)] } }
  else s

/-- An entry of the translation region is written at a level; one on a failed stack is not kept. -/
def writeEntry (s : State) (level off e : Nat) : State :=
  let old := (ttEntry s off).getD 0
  let s := countRef (countRef s old (· - 1)) e (· + 1)
  let s := reviveLeaf (if old = e then s else dropImages s level old) level e
  if ttStack s off ∈ s.pool.stacksLost then s
  else { s with pool := { s.pool with tt := if e = 0 then tdel s.pool.tt (off / 8) else tset s.pool.tt (off / 8) e } }

/-- Every quarter drops the leaves that their tables no longer give (R135). -/
def dropStale (s : State) : State :=
  { s with pool := { s.pool with xlate := s.pool.xlate.filter fun e => match walk s e.1.2.1 (e.1.2.2.2 * pageSize e.1.2.2.1) with
      | .leaf l x => decide (l = e.1.2.2.1 ∧ x = e.2)
      | _ => false } }

/-- The 64 KiB pages of a span. -/
def pagesOf (va len : Nat) : List Nat :=
  if len = 0 then [] else (List.range ((va + len - 1) / 65536 + 1 - va / 65536)).map fun i => (va / 65536 + i) * 65536

/-- A page of a job whose walk two states give differently. -/
def walkMoved (a b : State) (job va : Nat) : Bool :=
  match walk a job va, walk b job va with
  | .leaf l e, .leaf l' e' => decide (l ≠ l' ∨ e ≠ e')
  | .leaf _ _, _ => true
  | _, _ => false

/-- The operands of queued bead commands whose leaves changed between two states, as spans (R349). -/
def movedSpans (a b : State) : List (Nat × Nat × Nat) :=
  a.bead.channels.flatMap fun ch => ch.2.queue.flatMap fun x =>
    let p := x.req.pkt
    let runs := (beadOps p).map (fun o => (o.va, o.len)) ++
      (if bhBop p = bopATTN then (List.range (bhN p)).flatMap fun e => match peekEntry a ch.1 x e with
          | some d => [(beK d, keyBytes p d), (beV d, valueBytes p d)]
          | none => []
       else [])
    (runs.flatMap fun r => pagesOf r.1 r.2).filterMap fun va => if walkMoved a b p.job va then some (p.job, va, 65536) else none

/-- Entries are written and the command waits for R135; `fault` is the fault whose requests then walk again. -/
def writeEntries (s : State) (c : Caller) (op level : Nat) (l : List (Nat × Nat)) (fault : Option (Nat × Nat)) : State :=
  let changed := l.filter fun x => (ttEntry s x.1).getD 0 ≠ x.2
  let probe := changed.flatMap fun x => heldUnder s level ((ttEntry s x.1).getD 0)
  let t := dropStale (l.foldl (fun st x => writeEntry st level x.1 x.2) s)
  let t := noteLost t (t.pool.stacksLost ≠ [])
  settle (startFence t { caller := some (c, op), probe := probe, fault := fault, spans := movedSpans s t })

/-- WRITE_TT_ENTRIES, refused whole on any bad argument or entry (R132). -/
def writeTt (s : State) (c : Caller) (a : WriteTtArgs) : State :=
  let op := mbWRITE_TT_ENTRIES
  if !thas s.pool.jobs a.job then answer s c op mOBJECT_NOT_FOUND 0 []
  else if 4 ≤ a.level then answer s c op mARGUMENT_INVALID 2 []
  else if 2 ^ levelBits a.level < a.first + a.entries.length then answer s c op mARGUMENT_INVALID 4 []
  else if a.table % (8 * 2 ^ levelBits a.level) ≠ 0 ∨ ttSize s < a.table + 8 * 2 ^ levelBits a.level then answer s c op mARGUMENT_INVALID 8 []
  else match a.entries.findIdx? fun e => decide (2 ^ 64 ≤ e) || entryRefused s a.level e with
    | some i => answer s c op mTABLE_ENTRY_REFUSED i []
    | none => writeEntries s c op a.level (a.entries.mapIdx fun i e => (a.table + 8 * (a.first + i), e)) none

/-- WRITE_TT_ENTRIES (R132). -/
def execWriteTtEntries (c : Caller) (a : WriteTtArgs) (s : State) : Out State Fault Refusal :=
  .next (mboxRun s c mbWRITE_TT_ENTRIES [a.job] fun s => writeTt s c a)

/-! ### Resolving a fault -/

/-- The byte offset of the first argument of RESOLVE_FAULT that R574 refuses. -/
def resolveBad (a : ResolveFaultArgs) : Option Nat :=
  if 2 < a.outcome then some 2
  else if 1 < a.hasLeaf ∨ (a.hasLeaf = 1 ∧ a.outcome ≠ 0) then some 3
  else if (a.hasLeaf = 0 ∧ a.leaf ≠ 0) ∨ 2 ^ 64 ≤ a.leaf then some 8
  else none

/-- RETRY with a leaf: it replaces the LEAF entry at the level of the fault's page size, and the fault ends with its fence (R574). -/
def resolveLeaf (s : State) (c : Caller) (a : ResolveFaultArgs) (f : PageFault) : State :=
  let op := mbRESOLVE_FAULT
  let level := 3 - f.psize
  if entryRefused s level a.leaf then answer s c op mTABLE_ENTRY_REFUSED 0 []
  else match coveringEntry s a.job f.page level with
    | some (off, e) =>
      if ttKind e = 2 then writeEntries s c op level [(off, a.leaf)] (some (a.job, a.fid))
      else answer s c op mOBJECT_STATE_CONFLICT 0 []
    | none => answer s c op mOBJECT_STATE_CONFLICT 0 []

/-- The outcomes of R141. -/
def resolveFault (s : State) (c : Caller) (a : ResolveFaultArgs) : State :=
  let op := mbRESOLVE_FAULT
  match resolveBad a with
  | some d => answer s c op mARGUMENT_INVALID d []
  | none => match tget s.pool.jobs a.job with
    | none => answer s c op mOBJECT_NOT_FOUND 0 []
    | some j => match tget j.faults a.fid with
      | none => answer s c op mFAULT_NOT_OPEN 0 []
      | some f =>
        if a.hasLeaf = 1 then resolveLeaf s c a f
        else
          let s := closeFault s a.job a.fid
          let s := if a.outcome = 0 then rerunAll s (onFault a.job a.fid)
            else failAll s (onFault a.job a.fid) (if a.outcome = 1 then kADDRESS_INVALID else kACCESS_DENIED)
          answerOk (settle s) c op []

/-- RESOLVE_FAULT (R141). -/
def execResolveFault (c : Caller) (a : ResolveFaultArgs) (s : State) : Out State Fault Refusal :=
  .next (mboxRun s c mbRESOLVE_FAULT [a.job] fun s => resolveFault s c a)

end Sys2Proof.Machine
end

