-- ==== Sys2Proof/Machine/WindowRows.lean ====
section
/-! DEFINITION. The window commands of the mailboxes and the end of a window's drain (R158, R173, R178, R180, R182, R470). -/

namespace Sys2Proof.Machine

/-! ### Draining -/

/-- A REVOKING window with nothing in flight, whose revoke may complete (R178, R470). -/
def mayDrain (s : State) (i : Nat) : Bool :=
  (windowAt s i).state = .revoking && (windowAt s i).inflight = 0 && decide ((windowAt s i).holdUntil ≤ s.now)

/-- A window's drain is over (R178). -/
def execWindowDrained (index : Nat) (s : State) : Out State Fault Refusal := .next (if mayDrain s index then drained s index else s)

/-- The 4 ms of a window revoked after an uncorrectable error are over (R470). -/
def execWindowLostRevokeHold (index : Nat) (s : State) : Out State Fault Refusal :=
  .next (if decide ((windowAt s index).holdUntil ≠ 0) && mayDrain s index then drained s index else s)

/-- Dvorro reseeds each quarter's generator (R158). -/
def execDrbgReseed (s : State) : Out State Fault Refusal :=
  .next (if s.rkn.dvorro = .running then { s with win := { s.win with reseeds := s.win.reseeds + 1 } } else s)

/-! ### Commands -/

/-- The quarter where an OPEN_WINDOW starts its search: that of the host mailbox's port, else 0 (R172). -/
def callerQuarter (s : State) (c : Caller) : Nat :=
  match c.mbox with
  | .host _ => ((mboxOf s c.mbox).bound.map quarterOf).getD 0
  | _ => 0

/-- A refusal that the KFP operation would give, with its detail in DETAIL [31:16] (R182). -/
def fabricStatus (s : State) (c : Caller) (op code detail : Nat) : State := answer s c op mFABRIC_STATUS (code + detail * 65536) []

/-- OPEN_WINDOW: as WOPEN, with VIA_MAILBOX (R171, R172, R182). -/
def mailboxOpen (s : State) (c : Caller) (a : OpenWindowArgs) : State :=
  let op := mbOPEN_WINDOW
  let x : OpenAsk := { job := a.job, rights := a.rights, base := a.base, length := a.length, evtCap := a.evtCap
                       evtNode := a.evtNode, evtLog2 := a.evtLog2, via := true }
  if 32 ≤ a.rights then answer s c op mMALFORMED_COMMAND 2 []
  else if openMalformed x then fabricStatus s c op kMALFORMED 0
  else if a.base % 128 ≠ 0 then fabricStatus s c op kMISALIGNED 0
  else if !thas s.pool.jobs a.job then fabricStatus s c op kJOB_UNKNOWN 0
  else match openWindowAt s (callerQuarter s c) x with
    | (.no k d, s) => fabricStatus s c op k d
    | (.cap v, s) => answerOk s c op (le 8 v)

/-- OPEN_WINDOW (R182). -/
def execOpenWindow (c : Caller) (a : OpenWindowArgs) (s : State) : Out State Fault Refusal :=
  .next (mboxRun s c mbOPEN_WINDOW [a.job] fun s => mailboxOpen s c a)

/-- A command waits for the drain of a window. -/
def waitDrain (s : State) (c : Caller) (i : Nat) : State := modWindow s i fun x => { x with waitCmd := x.waitCmd ++ [c] }

/-- A revoke with FORCE names a window by its index alone (R180). -/
def mailboxForce (s : State) (c : Caller) (cap : Nat) : State :=
  let op := mbREVOKE_WINDOW
  if callerClass c ≠ .fm then answer s c op mPRIVILEGE_DENIED 0 []
  else if 2 ^ 20 ≤ cap then answer s c op mMALFORMED_COMMAND 8 []
  else match (windowAt s cap).state with
    | .free => answer s c op mOBJECT_NOT_FOUND 0 []
    | .open_ => settle (startRevoke (waitDrain s c cap) cap)
    | .revoking => waitDrain s c cap
    | .revoked => answerOk s c op []

/-- A revoke of a capability follows R174; a host revokes only its own jobs' windows (R182). -/
def mailboxRevoke (s : State) (c : Caller) (cap : Nat) : State :=
  let op := mbREVOKE_WINDOW
  let i := capIndex cap
  let owner := (windowAt s i).ownerJob
  match revokeCase s cap none with
  | .refused k =>
    if k ≠ kWINDOW_TAG_MISMATCH && !ownJob s c owner then answer s c op mJOB_NOT_PERMITTED owner []
    else fabricStatus s c op k 0
  | r =>
    if !ownJob s c owner then answer s c op mJOB_NOT_PERMITTED owner []
    else match r with
      | .start => settle (startRevoke (waitDrain s c i) i)
      | .join => waitDrain s c i
      | _ => answerOk s c op []

/-- REVOKE_WINDOW (R180). -/
def execRevokeWindow (c : Caller) (force cap : Nat) (s : State) : Out State Fault Refusal :=
  .next (mboxRun s c mbREVOKE_WINDOW [] fun s =>
    if 1 < force then answer s c mbREVOKE_WINDOW mARGUMENT_INVALID 0 [] else if force = 1 then mailboxForce s c cap else mailboxRevoke s c cap)

/-- The code of a window's state (Table 6-2). -/
def winCode (x : WinState) : Nat :=
  match x with
  | .free => 0
  | .open_ => 1
  | .revoking => 2
  | .revoked => 3

/-- A descriptor (Table 6-2). -/
def descriptorBytes (w : Window) : List Byte :=
  le 4 (winCode w.state + w.rights % 32 * 4 + flag w.viaMailbox * 128 + w.gen % 4096 * 256) ++ le 4 w.tag
    ++ le 4 (w.ownerJob % 65536 + w.ownerTenant % 4096 * 65536) ++ zeros 4 ++ le 8 w.base ++ le 8 w.length ++ le 8 w.evtCap
    ++ le 4 (w.evtNode % 65536 + w.evtLog2 % 32 * 65536) ++ zeros 4 ++ le 8 w.openTime ++ zeros 8

/-- QUERY_WINDOW: the descriptor and three counts; a host sees only its own jobs' windows (R182). -/
def mailboxQuery (s : State) (c : Caller) (i : Nat) : State :=
  let op := mbQUERY_WINDOW
  let w := windowAt s i
  if 2 ^ 20 ≤ i then answer s c op mARGUMENT_INVALID 0 []
  else if !ownJob s c w.ownerJob then answer s c op mJOB_NOT_PERMITTED w.ownerJob []
  else answerOk s c op (descriptorBytes w ++ le 4 w.inflight ++ le 4 w.violations ++ le 4 w.evSeq)

/-- QUERY_WINDOW (R182). -/
def execQueryWindow (c : Caller) (index : Nat) (s : State) : Out State Fault Refusal :=
  .next (mboxRun s c mbQUERY_WINDOW [] fun s => mailboxQuery s c index)

/-- SET_WINDOW_QUOTA (R173). -/
def setQuota (s : State) (c : Caller) (job quota : Nat) : State :=
  let op := mbSET_WINDOW_QUOTA
  if 65536 ≤ job then answer s c op mARGUMENT_INVALID 0 []
  else if 1048576 < quota then answer s c op mARGUMENT_INVALID 4 []
  else answerOk { s with win := { s.win with quota := tset s.win.quota job quota } } c op []

/-- SET_WINDOW_QUOTA (R173). -/
def execSetWindowQuota (c : Caller) (job quota : Nat) (s : State) : Out State Fault Refusal :=
  .next (mboxRun s c mbSET_WINDOW_QUOTA [job] fun s => setQuota s c job quota)

end Sys2Proof.Machine
end

