-- ==== Sys2Proof/Machine/AgentRows.lean ====
section
/-! DEFINITION. Agents of the coherence domain: attaching, detaching, a snoop that times out, and the end of a reclamation (R188, R190, R208, R209). -/

namespace Sys2Proof.Machine

/-! ### Reclamation -/

/-- SNOOP_TIMEOUT in ns as a line's transaction in progress sees it: a value below 5 is taken as 5 (Table 7-11, R9). -/
def snoopLimit (s : State) (h : Nat) : Ns := max 5 (bits (dirCfg s h).toNat 7 0) * us 10

/-- A snoop of a line to an agent has been sent and is unanswered since SNOOP_TIMEOUT. -/
def snoopLate (s : State) (a h : Nat) : Bool :=
  s.coh.snoopMsg.any (fun e => decide (e.1.1 = a ∧ e.2 = h)) && (match tget s.coh.busy h with
    | some t => (match tget t.awaiting a with
      | some t0 => due s t0 (snoopLimit s h)
      | none => false)
    | none => false)

/-- A snoop has timed out: the agent is reclaimed (R190). -/
def execSnoopTimeout (agent line : Nat) (s : State) : Out State Fault Refusal :=
  .next (if snoopLate s agent line && decide ((agentOf s agent).state ≠ .reclaiming) then
    settle (startReclaim (setEvt s (aDIR_AGENT_STATUS agent) 27) agent) else s)

/-- The scan of a reclamation ends (R209). -/
def execReclaimScanEnd (agent : Nat) (s : State) : Out State Fault Refusal :=
  .next (if (agentOf s agent).state = .reclaiming then settle (endReclaim s agent) else s)

/-! ### Attaching and detaching -/

/-- A native port may take an agent: BREAKOUT 0, role ACCELERATOR, a partner named by a HELLO, and no agent there yet (R188, R209). -/
def mayAttach (s : State) (n : Nat) : Bool :=
  widthOf s (agentPort n) = 8 && roleOf s (agentPort n) = roleACCELERATOR && (agentOf s n).state = .none
    && decide ((lport s (agentPort n)).partnerNode ≠ 0xFFFF)

/-- ATTACH_AGENT (R188). -/
def attachAgent (s : State) (c : Caller) (n snpCap credits : Nat) : State :=
  let op := mbATTACH_AGENT
  if 64 ≤ n then answer s c op mARGUMENT_INVALID 0 []
  else if snpCap < 64 ∨ 1024 < snpCap then answer s c op mARGUMENT_INVALID 2 []
  else if credits = 0 ∨ 256 < credits then answer s c op mARGUMENT_INVALID 4 []
  else if !mayAttach s n then answer s c op mOBJECT_STATE_CONFLICT 0 []
  else
    let x : Agent := { state := .attached, node := (lport s (agentPort n)).partnerNode, snpCap := snpCap, creqCredits := credits }
    answerOk (setAgent s n x) c op []

/-- ATTACH_AGENT (R188). -/
def execAttachAgent (c : Caller) (port snpCap creqCredits : Nat) (s : State) : Out State Fault Refusal :=
  .next (mboxRun s c mbATTACH_AGENT [] fun s => attachAgent s c port snpCap creqCredits)

/-- The home lines that an agent still holds. -/
def heldBy (s : State) (a : Nat) : List Nat := (s.coh.dir.filter fun e => (holders e.2).contains a).map (·.1)

/-- Every line that an agent holds and that is at rest is back-invalidated from it (R208). -/
def probeAgent (s : State) (a : Nat) : State :=
  (heldBy s a).foldl (fun st h => if underWay st h then st else startSnoops st h [a] false true (.backInval none)) s

/-- DETACH_AGENT (R208). -/
def detachAgent (s : State) (c : Caller) (n force : Nat) : State :=
  let op := mbDETACH_AGENT
  let x := agentOf s n
  if 64 ≤ n then answer s c op mARGUMENT_INVALID 0 []
  else if 1 < force then answer s c op mARGUMENT_INVALID 1 []
  else if x.state = .none then answer s c op mOBJECT_NOT_FOUND 0 []
  else if x.state = .reclaiming ∨ (x.state = .detaching ∧ force = 0) then answer s c op mOBJECT_STATE_CONFLICT 0 []
  else
    let s := setAgent s n { x with state := .detaching, detach := x.detach ++ [c] }
    settle (if force = 1 then startReclaim s n else probeAgent s n)

/-- DETACH_AGENT (R208). -/
def execDetachAgent (c : Caller) (port force : Nat) (s : State) : Out State Fault Refusal :=
  .next (mboxRun s c mbDETACH_AGENT [] fun s => detachAgent s c port force)

/-- No snoop of the agent is unanswered and no busy line waits for it. -/
def agentQuiet (s : State) (a : Nat) : Bool :=
  heldBy s a = [] && !(s.coh.busy.any fun e => thas e.2.awaiting a) && !(s.coh.snoopQueue.any fun e => e.1 = a)

/-- A detaching agent that holds nothing is gone; lines that it came to hold meanwhile are back-invalidated first (R208). -/
def execDetachComplete (agent : Nat) (s : State) : Out State Fault Refusal :=
  .next (if (agentOf s agent).state = .detaching then
      settle (if agentQuiet s agent then agentGone s agent else probeAgent s agent)
    else s)

end Sys2Proof.Machine
end

