-- ==== Sys2Proof/Machine/RegView.lean ====
section
/-! DEFINITION. What a register reads: the stored fields in force, the RO fields as the state gives them, the counters and gauges; and the admitted rates they show (R42 to R44, R538 to R548). -/

namespace Sys2Proof.Machine

/-! ### Units (Table 1-2, Table 19-7) -/

/-- Units of a kind on one die at manufacture, and its spares. -/
def unitCount : UnitKind → Nat
  | .rod => 16
  | .carry => 24
  | .sieve => 16
  | .mover => 8
def spareCount : UnitKind → Nat
  | .mover => 1
  | _ => 2

/-- The upper die of a unit. -/
def unitDie (k : UnitKind) (i : Nat) : Nat := i / unitCount k

/-- EV_UCLASS of a unit (Table 16-4). -/
def unitClass : UnitKind → Nat
  | .rod => 3
  | .carry => 4
  | .sieve => 5
  | .mover => 6

/-- The register of a unit (Table 19-1). -/
def aUnit (k : UnitKind) (i : Nat) : Nat :=
  match k with
  | .rod => aROD_STATUS i
  | .carry => aHEALTH_CARRY i
  | .sieve => aHEALTH_SIEVE i
  | .mover => aHEALTH_MOVER i

/-- The physical slot that serves a unit's index. -/
def unitSlot (s : State) (k : UnitKind) (i : Nat) : Nat := tgetD s.spares.slot (k, i) (i % unitCount k)

/-- The free spare slots of a kind on a die. -/
def freeSpares (s : State) (k : UnitKind) (die : Nat) : List Nat :=
  tgetD s.spares.spare (k, die) ((List.range (spareCount k)).map (unitCount k + ·))

/-- The switch-in that runs on a die. -/
def runningSwitch (s : State) (die : Nat) : Option SwitchIn := (tgetD s.spares.switching die []).head?

/-- The spare of the switch-in that runs on a die has loaded (R454). -/
def spareLoaded (s : State) (die : Nat) : Bool :=
  match runningSwitch s die with
  | some w => w.loaded
  | none => false

/-- A unit whose switch-in runs. -/
def switchingUnit (s : State) (k : UnitKind) (i : Nat) : Bool :=
  match runningSwitch s (unitDie k i) with
  | some w => w.kind = k && w.index = i
  | none => false

/-- UNIT_STATE of Table 19-7. -/
def unitState (s : State) (k : UnitKind) (i : Nat) : Nat :=
  if (k, i) ∈ s.spares.retired then 3 else if switchingUnit s k i then 1 else if (k, i) ∈ s.spares.degraded then 2 else 0

/-- The RO bits of a unit's register. -/
def unitBits (s : State) (k : UnitKind) (i : Nat) : Nat :=
  unitSlot s k i % 32 + 2 ^ 5 * unitState s k i + 2 ^ 7 * min 255 (tgetD s.spares.margin (k, i) 255) + 2 ^ 15 * min 63 (tgetD s.spares.switchins (k, i) 0)

/-- Spare macros left on a base die. -/
def macroSpares (s : State) (die : Nat) : Nat :=
  16 - ((s.spares.macroMap.filter fun e => e.1.1 = die).length + (tgetD s.spares.macroCopy die []).length)

/-- Channels of a quarter whose spare bank pair is in use. -/
def bankPairsUsed (s : State) (n : Nat) : Nat :=
  ((List.range 32).filter fun c => (s.spares.bankSpared.any fun u => u / 16 = 32 * n + c) || thas s.spares.bankCopy (32 * n + c)).length

/-- The RO bits of HEALTH_DIE_n. -/
def dieBits (s : State) (n : Nat) : Nat :=
  (freeSpares s .rod n).length + 2 ^ 2 * (freeSpares s .carry n).length + 2 ^ 4 * (freeSpares s .sieve n).length
    + 2 ^ 6 * (freeSpares s .mover n).length + 2 ^ 7 * macroSpares s n + 2 ^ 12 * bankPairsUsed s n

/-- A die has a kind with no spare left. -/
def exhausted (s : State) (n : Nat) : Bool :=
  [UnitKind.rod, .carry, .sieve, .mover].any (fun k => (freeSpares s k n).isEmpty) || macroSpares s n = 0

/-! ### Admission (R42 to R44, R458) -/

/-- The active lanes of the UP ports of a native port. -/
def upLanes (s : State) (n : Nat) : Nat :=
  (((lports s).filter fun q => nativeOf q = n && isUp s q).map fun q => (activeLanes s q).length).sum

/-- The thermal cap of 0.50 on a die: its own sensor's, or that of the base die below it (Table 20-7). -/
def dieHot (s : State) (die : Nat) : Bool := (tgetD s.supply.sensors die {}).action || (tgetD s.supply.sensors (4 + die) {}).action

/-- A native port's admission cap in GB/s: a port of it in the middle of a packet keeps the cap the packet began with (R9, R13). -/
def admitCap (s : State) (n : Nat) : Nat :=
  let w := (((List.range 8).filterMap fun i => (lport s (8 * n + i)).oldRate).head?).getD (regWord s (aPORT_ADMIT_RATE n))
  clamp 1 200 (w.toNat % 256)

/-- A native port's admitted rate as its lanes, its cap, the shed level and the die's temperature ask for it, in 10 MB/s. -/
def askedRate (s : State) (n : Nat) : Nat :=
  let r := min (25 * upLanes s n) (admitCap s n)
  let r := if 2 ≤ level s then r * clamp 25 100 (regField s aSUPPLY_SHED 8 7) else 100 * r
  if dieHot s (n / 16) then min r 10000 else r

/-- Phases lost on a die's core rail, which is rail n of Table 18-2 (R458). -/
def railState (s : State) (r : Nat) : Rail := tgetD s.supply.rails r {}

/-- The admitted rate in force: a decrease acts at once, an increase when it is released (R44); 0.75 of 200 GB/s at most once a second phase of the die's rail is lost (R458). -/
def admittedRate (s : State) (n : Nat) : Nat :=
  let r := min (tgetD s.admitted n 0) (askedRate s n)
  if 2 ≤ phasesLost (railState s (n / 16)) then min r 15000 else r

/-- The greatest admitted rate of a die's rods. -/
def dieRate (s : State) (die : Nat) : Nat := ((List.range 16).map fun i => admittedRate s (16 * die + i)).foldl max 0

/-- The floor of Table 2-3 for a rate, in mV. -/
def floorFor (rate : Nat) : Nat := if rate ≤ 10000 then 620 else if rate ≤ 15000 then 670 else 720

/-- The ports of a die. -/
def diePorts (die : Nat) : List Nat := (List.range 16).map (16 * die + ·)

/-- What a port asks for with its die's rail as it is (R458). -/
def wantedRate (s : State) (n : Nat) : Nat := if 2 ≤ phasesLost (railState s (n / 16)) then min 15000 (askedRate s n) else askedRate s n

/-- The ports of a die whose increase is held. -/
def heldRaises (s : State) (die : Nat) : List Nat :=
  (diePorts die).filter fun n => admittedRate s n < wantedRate s n

/-- A die's governor state. -/
def dieState (s : State) (n : Nat) : Die := tgetD s.dies n {}

/-- The governor is absent: Dvorro restarts, is being updated, or spares a core (R45; before Dvorro first starts: log entry 23). -/
def governorAway (s : State) : Bool := s.rkn.dvorro = .restarting || s.rkn.dvorro = .activating

/-- The held increases of a die whose floor its rail has reached take effect, each port's by itself (R44, R45). -/
def releaseRaises (s : State) (die : Nat) : State :=
  { s with admitted := (diePorts die).foldl (fun t n => if floorFor (wantedRate s n) ≤ (dieState s die).voltSet then tset t n (wantedRate s n) else t) s.admitted }

/-- The RO bits of SUPPLY_CORE_n (Table 2-5); while a raise is held ADMIT_PCT shows the rates in force (log entry 23). -/
def coreBits (s : State) (n : Nat) : Nat :=
  (dieState s n).voltSet + 2 ^ 20 * ceilDiv (dieRate s n) 200 + 2 ^ 30 * flag (heldRaises s n ≠ []) + 2 ^ 31 * flag (governorAway s)

/-! ### RO fields -/

/-- A sensor's register (Table 19-6); while every UCIe module is down it shows STALE (R541). -/
def sensorBits (s : State) (i : Nat) : Nat :=
  let x := tgetD s.supply.sensors i {}
  ofSigned 16 x.temp + 2 ^ 16 * flag x.valid + 2 ^ 17 * flag (x.stale || (2 ≤ s.supply.phase && !anyUcie s)) + 2 ^ 18 * flag x.overWarn

/-- IDENTITY registers (Table 19-3). -/
def identityWord (s : State) (i : Nat) : Nat :=
  if i = 0 then Config.vendor % 65536
  else if i = 1 then 0x1280 + 2 ^ 16 * (Config.stepping % 256) + 2 ^ 24
  else if i < 6 then field (padTo 16 Config.deviceUid) (4 * (i - 2)) 4
  else dvorroVersion s / 2 ^ (32 * (i - 6)) % 2 ^ 32

/-- STATUS (Table 19-4). -/
def statusWord (s : State) : Nat :=
  s.supply.phase + 2 ^ 3 * flag (isReady s) + 2 ^ 4 * flag (s.rkn.dvorro = .fetch) + 2 ^ 5 * flag s.supply.unjoined + 2 ^ 6 * flag (s.events.alert ≠ [])
    + 2 ^ 7 * flag s.map.departed + 2 ^ 8 * s.supply.level + 2 ^ 11 * ((List.range 4).map fun n => 2 ^ n * flag (!ucieUp s n)).sum
    + 2 ^ 15 * (s.pool.stacksLost.map fun k => 2 ^ k).sum
    + 2 ^ 23 * flag (s.spares.degraded ≠ [] ∨ s.spares.retired ≠ []) + 2 ^ 24 * flag ((List.range 4).any (exhausted s)) + 2 ^ 25 * flag s.clock.locked

/-- The code of Dvorro's state (Table 17-10). -/
def dvorroCode : Dvorro → Nat
  | .rom => 0
  | .running => 1
  | .restarting => 2
  | .activating => 3
  | .fetch => 4

/-- RECKONER_STATUS (Table 17-10). -/
def reckonerBits (s : State) : Nat :=
  dvorroCode s.rkn.dvorro + 2 ^ 3 * coresLeft s + 2 ^ 7 * ((List.range 4).map fun n => 2 ^ n * flag (ucieUp s n)).sum
    + 2 ^ 11 * s.rkn.sessions.length + 2 ^ 13 * flag s.rkn.stagedValid + 2 ^ 14 * flag s.rkn.flashWrite + 2 ^ 15 * flag (s.rkn.managerKeys = [])

/-- MAP_STATUS (Table 15-10). -/
def mapBits (s : State) : Nat :=
  s.map.epoch + 2 ^ 8 * (match s.map.proposal with | some p => p.epoch | none => 0) + 2 ^ 16 * flag s.map.proposal.isSome
    + 2 ^ 17 * flag (graceRuns s) + 2 ^ 18 * flag s.map.member + 2 ^ 19 * flag s.map.departing + 2 ^ 20 * flag s.map.departed + 2 ^ 21 * flag (s.map.handoffs ≠ [])

/-- The code of a port's state (Table 3-3). -/
def portCode : PortState → Nat
  | .disabled => 0
  | .waitAdmit => 1
  | .training => 2
  | .lock => 3
  | .hello => 4
  | .up => 5
  | .down => 6
  | .held => 7

/-- LPORT_STATUS (Table 3-13). -/
def lportBits (s : State) (q : Nat) : Nat :=
  let p := lport s q
  let mask (f : Lane → Bool) : Nat := ((lanesOf s q).map fun l => 2 ^ (l - q) * flag (f (lane s l))).sum
  portCode p.state + 2 ^ 3 * flag p.precodeOn + 2 ^ 4 * mask (·.active) + 2 ^ 12 * mask (·.retired) + 2 ^ 20 * p.reason
    + 2 ^ 23 * flag (p.state = .held) + 2 ^ 27 * flag p.partnerReady

/-- The code of an agent's state (Table 7-12). -/
def agentCode : AgentState → Nat
  | .none => 0
  | .attached => 1
  | .detaching => 2
  | .reclaiming => 3

/-- The code of a channel's mode (Table 12-9). -/
def modeCode : BeadMode → Nat
  | .memory => 0
  | .compute => 1
  | .shared => 2

/-- BEAD_CH_STATUS (Table 12-9). -/
def beadBits (s : State) (c : Nat) : Nat :=
  let x := beadCh s c
  modeCode x.mode + 2 ^ 2 * modeCode x.saved + 2 ^ 4 * flag x.owner.isSome + 2 ^ 5 * x.owner.getD 0 + 2 ^ 21 * min 256 x.queue.length + 2 ^ 30 * flag x.shedHeld

/-- BEAD_READY (Table 12-10): the banks of a pair with a unit in progress are not ready. -/
def readyBits (s : State) (c : Nat) : Nat :=
  ((List.range 32).map fun b => 2 ^ b * flag (!(b / 2 ∈ (beadCh s c).active))).sum

/-- SUPPLY registers but SUPPLY_SHED, CORE and RAIL (Table 19-5). -/
def railBits (s : State) (r : Nat) : Nat :=
  let x := railState s r
  x.vout % 2 ^ 14 + 2 ^ 16 * ((Config.railPhases r % 16 - phasesLost x) % 16) + 2 ^ 20 * (Config.railPhases r % 16) + 2 ^ 24 * flag x.inReg

/-- Result of the last drill (Table 16-9), and the drill shown. -/
def drillBits (s : State) : Nat :=
  let (kind, result, id) := s.spares.lastDrill
  match s.spares.drill with
  | some d => 1 + 2 * d.args.dkind + 2 ^ 4 * result + 2 ^ 16 * d.args.id
  | none => 2 * kind + 2 ^ 4 * result + 2 ^ 16 * id

/-- A register within a block of registers of one kind: its index. -/
def inRun (a base count : Nat) : Option Nat := if base ≤ a ∧ a < base + 4 * count then some ((a - base) / 4) else none

/-- The RO bits of the registers of a block of the Reckoner (Tables 19-3 to 19-6, 14-9, 16-9, 16-10, 17-10). -/
def reckonerRo (s : State) (a : Nat) : Nat :=
  if a < 0x20 then identityWord s (a / 4)
  else if a = aIDENTITY_SECURITY then
    flag Config.ownerSigReq + 2 * flag Config.debugEnabled + 4 * flag s.ten.akReady
      + 2 ^ 3 * (s.ten.slots.filter fun e => e.2.state = .active).length + 2 ^ 14 * flag (s.ten.slots.any fun e => e.2.state = .draining)
  else if a = aSTATUS then statusWord s
  else if a = aSTATUS + 4 then s.supply.readyMs
  else if a = aSTATUS + 8 then hottest s
  else if a = aSUPPLY then s.supply.vin % 65536 + 65536 * (s.supply.vinMin % 65536)
  else if a = aSUPPLY + 4 then s.supply.iin % 65536
  else if a = aSUPPLY + 8 then s.supply.pin % 65536 + 65536 * (s.supply.pinMax % 65536)
  else if a = aSUPPLY_SHED then s.supply.level + 2 ^ 3 * s.supply.levelMax + 2 ^ 6 * flag s.supply.holdupReady
  else if a = aSUPPLY + 0x10 then s.supply.vstore % 2 ^ 14 + 2 ^ 16 * (s.supply.capUf % 65536)
  else if a = aTHERMAL + 4 then sensorBits s 13
  else if a = 0x40000 then timeNow s % 2 ^ 32
  else if a = 0x40004 then timeNow s / 2 ^ 32
  else if a = aTIME_STATUS then flag s.clock.locked + 2 ^ 16 * ofSigned 16 (max (-32767) (min 32767 s.clock.offset))
  else if a = aRECKONER_STATUS then reckonerBits s
  else if a = aEVENT_CFG then 2 ^ 9 * flag (s.events.alert ≠ [])
  else if a = aDRILL_STATUS then drillBits s
  else match inRun a (aSUPPLY_CORE 0) 4, inRun a (aSUPPLY_RAIL 0) 9, inRun a (aTHERMAL + 0x40) 13 with
    | some n, _, _ => coreBits s n
    | _, some r, _ => railBits s r
    | _, _, some i => sensorBits s i
    | _, _, _ => 0

/-- The RO bits of the registers of the map, the engines and the ports. -/
def deckRo (s : State) (a : Nat) : Nat :=
  if a = aMAP_STATUS then mapBits s
  else if a = aMAP_NODE then myNode s
  else if a = aNEAR_CFG then 2 ^ 17 * flag (s.pool.flushes ≠ [])
  else if a = aSIEVE_CFG then 2 ^ 5 * flag (1 ≤ level s)
  else if a = aMOVER_CFG then 2 * flag (1 ≤ level s)
  else match inRun a (aHEALTH_CARRY 0) 96, inRun a (aHEALTH_SIEVE 0) 64, inRun a (aHEALTH_MOVER 0) 32, inRun a (aHEALTH_DIE 0) 4 with
    | some i, _, _, _ => unitBits s .carry i
    | _, some i, _, _ => unitBits s .sieve i
    | _, _, some i, _ => unitBits s .mover i
    | _, _, _, some n => dieBits s n
    | _, _, _, _ => match inRun a (aROD_STATUS 0) 64, inRun a (aLPORT_STATUS 0) 512, inRun a (aDIR_AGENT_STATUS 0) 64 with
      | some i, _, _ => unitBits s .rod i
      | _, some q, _ => lportBits s q
      | _, _, some i => agentCode (agentOf s i).state + 2 ^ 2 * ((agentOf s i).node % 2 ^ 14) + 2 ^ 16 * ((agentOf s i).snoops % 2 ^ 11)
      | _, _, _ => match inRun a (aMOVER_CH_STATUS 0) 128, inRun a (aBEAD_CH_STATUS 0) 128, inRun a (aBEAD_READY 0) 128 with
        | some i, _, _ => chCode (chan s i).state + 2 ^ 3 * (chan s i).prio + 2 ^ 5 * ((chan s i).head % 65536)
        | _, some i, _ => beadBits s i
        | _, _, some i => readyBits s i
        | _, _, _ => match inRun a (aQUEUE_DEPTH 0) 8192, inRun a (aTALLY_CFG 0) 4, inRun a (aTALLY_HEAD 0) 4 with
          | some k, _, _ => occupancy s k % 2 ^ 22
          | _, some _, _ => 2 ^ 20 * flag (1 ≤ level s)
          | _, _, some n => (tally s n).head
          | _, _, _ => 0

/-- The RO bits of a register. -/
def roBits (s : State) (a : Nat) : Nat := if a < 0x80000 then reckonerRo s a else deckRo s a

/-! ### Counters and gauges (Tables 19-8, 19-9) -/

/-- The 64-bit value at an address of the TEL block: its counter, or what a gauge shows; none where no value lies.
DEDUP_OCCUPANCY of a quarter is not stated for a table that the whole device shares (R103): it is left to `openValue`. -/
def telCounter (s : State) (a : Nat) : Option Ctr :=
  let o := a - aTEL
  if o < 0x4000 then some (.quarter (o / 0x1000) (o % 0x1000 / 8 * 8))
  else if o < 0x4200 then some (.module ((o - 0x4000) / 8 * 8))
  else if 0x10000 ≤ o ∧ o < 0x11000 then
    (if (o - 0x10000) % 0x40 / 8 < 5 then some (.rod ((o - 0x10000) / 0x40) ((o - 0x10000) % 0x40 / 8)) else none)
  else if 0x20000 ≤ o ∧ o < 0x28000 then
    (if isLport s ((o - 0x20000) / 0x40) then some (.lport ((o - 0x20000) / 0x40) ((o - 0x20000) % 0x40 / 8)) else none)
  else if 0x30000 ≤ o ∧ o < 0x32000 then some (.lane ((o - 0x30000) / 0x10) ((o - 0x30000) % 0x10 / 8))
  else none

/-- A gauge of a quarter, by its offset; none for a counter. -/
def gauge (s : State) (n off : Nat) : Option Nat :=
  match off with
  | 0x18 => some (reseqIn s n).length
  | 0x20 => some ((reseqIn s n).foldl (fun t e => t + e.2.held.length) 0)
  | 0x50 => some (parkedIn s n)
  | 0x80 => some (s.win.table.filter fun e => windowQuarter e.1 = n && decide (e.2.state = .open_ ∨ e.2.state = .revoking)).length
  | 0xF0 => some (s.coh.dir.filter fun e => e.1 / 2 ^ 27 = n && isLostEntry e.2).length
  | 0x110 => some (128 * (dirtyOf s n).length)
  | 0x128 => some ((s.pool.images.filter fun e => lineQuarter s (ownAddr s 0 / 128 + 32 * e.1) = n).length + (packedBlocks s n).length)
  | 0x178 => some (stagingUsed s n)
  | 0x240 => some (sharedFree s n)
  | 0x248 => some (reseqUsed s n)
  | _ => none

/-- A value that the spec leaves open: DEDUP_OCCUPANCY of one quarter, and the UCIe errors that retry corrected (R481). -/
def openValue (a : Nat) : Bool := (a < aTEL + 0x4000 && (a - aTEL) % 0x1000 < 8) || (aTEL + 0x4130 ≤ a && a < aTEL + 0x4150)

/-- The unit of a record of the HS block, by its group and index (Table 19-9). -/
def hsUnit (a : Nat) : Option (HsGroup × Nat) :=
  let i := (a - aHS) % 0x1000 / 16
  match (a - aHS) / 0x1000 with
  | 0 => if i < 64 then some (.rod, i) else none
  | 1 => if i < 96 then some (.carry, i) else none
  | 2 => if i < 64 then some (.sieve, i) else none
  | 3 => if i < 32 then some (.mover, i) else none
  | 4 => if i < 128 then some (.dir, i) else none
  | _ => none

/-- The 64-bit value at an address. -/
def value64 (s : State) (a : Nat) : Nat × State :=
  if aHS ≤ a then (((hsUnit a).map fun u => (hsOf s u.1 u.2).count).getD 0, s)
  else if openValue a then drawFree s
  else match telCounter s a with
    | some (.quarter n off) => ((gauge s n off).getD (ctr s (.quarter n off)), s)
    | some c => (ctr s c, s)
    | none => (0, s)

/-- An address of a 64-bit value: the low or the high word of TEL and HS values and of TIME_NOW; the rate word of an HS record is a plain register. -/
def isPair (a : Nat) : Bool :=
  (aTEL ≤ a && a < aTEL + 0x80000) || (aHS ≤ a && a < aHS + 0x5000 && a % 16 < 8) || a = 0x40000 || a = 0x40004

/-- A register indexed by logical port (R539): its port. -/
def portIndexed (a : Nat) : Option Nat :=
  match inRun a (aLPORT_STATUS 0) 512, inRun a (aLPORT_ROLE 0) 512, inRun a (aQUEUE_PARAM 0) 8192, inRun a (aQUEUE_SHAPE 0) 8192 with
  | some q, _, _, _ => some q
  | _, some q, _, _ => some q
  | _, _, some k, _ => some (k / 16)
  | _, _, _, some k => some (k / 16)
  | _, _, _, _ => match inRun a (aPOLICE_RATE 0) 4096, inRun a (aPOLICE_BURST 0) 4096, inRun a (aQUEUE_DEPTH 0) 8192 with
    | some k, _, _ => some (k / 8)
    | _, some k, _ => some (k / 8)
    | _, _, some k => some (k / 16)
    | _, _, _ => none

/-- A register of a port that does not exist under the present breakout. -/
def absentPort (s : State) (a : Nat) : Bool :=
  match portIndexed a with
  | some q => !isLport s q
  | none => false

/-- A register's word: its stored fields, or their pending copies, with its RO fields. -/
def plainWord (s : State) (pend : Bool) (a : Nat) : Word :=
  if absentPort s a then 0
  else
    let fs := regFields a
    let st := maskOf (fun f => f.kind = .staged) fs
    let ro := maskOf (fun f => f.kind = .ro) fs
    let w := acceptedWord s a
    let w := if pend then (w &&& ~~~st) ||| (pendWord s a &&& st) else w
    (w &&& ~~~ro) ||| (BitVec.ofNat 32 (roBits s a) &&& ro)

/-- The words of a 64-bit value as a mailbox reads them (R540): the low word latches the high word of that instant; the high word comes from the latch when the last low-word read was of the same value. -/
def pairWord (s : State) (m : MboxId) (a : Nat) : Nat × State :=
  let lo := a / 8 * 8
  let (v, s) := if lo = 0x40000 then (timeNow s, s) else value64 s lo
  let b := mboxOf s m
  if a % 8 = 0 then (v % 2 ^ 32, setMbox s m { b with latch := some (lo, v / 2 ^ 32 % 2 ^ 32) })
  else match b.latch with
    | some (x, h) => if x = lo then (h, s) else (v / 2 ^ 32 % 2 ^ 32, s)
    | none => (v / 2 ^ 32 % 2 ^ 32, s)

/-- A rate register of an HS record (Table 19-10). -/
def rateWord (s : State) (g : HsGroup) (i : Nat) : Nat := hsRate s g i false + 2 ^ 16 * (if g = .rod then hsRate s g i true else 0)

/-- One register as a mailbox reads it. -/
def readReg (s : State) (m : MboxId) (pend : Bool) (a : Nat) : Nat × State :=
  if aHS ≤ a ∧ 8 ≤ a % 16 then (if a % 16 = 8 then ((hsUnit a).map fun u => rateWord s u.1 u.2).getD 0 else 0, s)
  else if isPair a then pairWord s m a
  else ((plainWord s pend a).toNat, s)

end Sys2Proof.Machine
end

