-- ==== Sys2Proof/Machine/Links.lean ====
section
/-! DEFINITION. Lanes and links (chapter 03): port states, training starts, HELLO, flits, credits, link-level retry, lane retirement and link failure. -/

namespace Sys2Proof.Machine

/-! ### Ports -/

/-- A LIVE field of PORT_CFG as a port uses it: a port in the middle of a packet keeps the value the packet began with (R9, R13). -/
def portCfg (s : State) (q lo width : Nat) : Nat := ((((lport s q).oldCfg.getD (regWord s (aPORT_CFG (nativeOf q)))).toNat) >>> lo) % 2 ^ width

/-- The port's LPORT_ENABLE bit (Table 3-12). -/
def portEnabled (s : State) (q : Nat) : Bool := bit (portCfg s q 4 8) (q % 8)

/-- MIN_LANES of a port, at most its width (R81). -/
def minLanes (s : State) (q : Nat) : Nat := min (clamp 1 8 (portCfg s q 12 4)) (widthOf s q)

/-- The lanes of a port that are not retired. -/
def liveLanes (s : State) (q : Nat) : List Nat := (lanesOf s q).filter fun l => !(lane s l).retired

/-- A change to each of some lanes. -/
def modLanes (s : State) (ls : List Nat) (f : Lane → Lane) : State := ls.foldl (fun st l => setLane st l (f (lane st l))) s

/-- A change to a port. -/
def modLport (s : State) (q : Nat) (f : LPort → LPort) : State := setLport s q (f (lport s q))

/-- A port in a new state since now. -/
def toState (s : State) (q : Nat) (st : PortState) : State := modLport s q fun p => { p with state := st, since := s.now }

/-- The rod of a port is being replaced: it hands nothing off until the spare has loaded (R454). -/
def rodPaused (s : State) (q : Nat) : Bool := switchingUnit s .rod (nativeOf q) && !spareLoaded s (unitDie .rod (nativeOf q))

/-- The rod of a port is out of service with no spare: the port stays DOWN (R459). -/
def rodOut (s : State) (q : Nat) : Bool := s.spares.retired.contains (.rod, nativeOf q)

/-! ### Training starts (R57) -/

/-- The place of a request for a training start: its port, or its lane. -/
def startKey (x : StartReq) : Nat := x.lane.getD x.lport

/-- A request joins the queue of starts: late ones at its end, the others in ascending order before them. -/
def addStart (s : State) (x : StartReq) : State :=
  let l := s.links.starts
  let early := l.filter fun y => !y.late
  let late := l.filter fun y => y.late
  let l := if x.late then l ++ [x] else sortBy startKey (early ++ [x]) ++ late
  { s with links := { s.links with starts := l } }

/-- A port waits for a training start. -/
def toWaitAdmit (s : State) (q : Nat) : State :=
  let s := modLport s q fun p => { p with state := .waitAdmit, since := s.now, departed := false }
  if s.links.starts.any fun x => x.lport = q && x.lane.isNone then s else addStart s { lport := q }

/-- A request whose port or lane still waits. -/
def startWaits (s : State) (x : StartReq) : Bool :=
  match x.lane with
  | some l => (lane s l).retrain = .waiting && isUp s x.lport
  | none => (lport s x.lport).state = .waitAdmit

/-- The lanes of a port as training begins. -/
def startTraining (s : State) (q : Nat) : State :=
  toState (modLanes s (liveLanes s q) fun l =>
    { l with active := false, ready := false, locked := false, precode := false, hello := none, retrain := .idle }) q .training

/-- One training start is granted. -/
def grantStart (s : State) : State :=
  let free := match s.links.lastStart with
    | some t => due s t (us 125)
    | none => true
  if !s.links.open_ || !free then s
  else match s.links.starts.find? (startWaits s) with
    | none => s
    | some x =>
      let s := { s with links := { s.links with starts := s.links.starts.erase x, lastStart := some s.now } }
      match x.lane with
      | some l => setLane s l { lane s l with retrain := .training, ready := false, locked := false, precode := false, hello := none, since := s.now }
      | none => startTraining s x.lport

/-! ### Leaving UP (R76, R77, R79) -/

/-- A packet queued for a port that is no longer UP enters another port's queue, as it stood; credits already returned for it do not return again (R77). -/
def moveOn (s : State) (k : Nat) (x : QPkt) (port : Nat) : State :=
  match x.ingress with
  | some i =>
    if lossless x.pkt.tc && !x.freed then
      let before := reserveCells s i x.pkt.tc
      let s := enqueue s port (k % 2) x
      returnCredits s i x.pkt.tc (cellsOf x.pkt - (reserveCells s i x.pkt.tc - before))
    else enqueue s port (k % 2) x
  | none => enqueue s port (k % 2) x

/-- A packet queued for a port that is no longer UP, whose route set has no other port, is discarded and counted (R77). -/
def moveNowhere (s : State) (q k : Nat) (x : QPkt) : State :=
  let s := dropAt s q k 2 (cLPORT_DROP_TAIL q) x
  match x.ingress with
  | some i => if lossless x.pkt.tc && !x.freed then returnCredits s i x.pkt.tc (cellsOf x.pkt) else s
  | none => s

/-- A group's packet queued here is on its way down the tree: it came down, or this module is the root (R432). -/
def goesDown (s : State) (comp : Composition) (root : Nat) (ms : List Nat) (x : QPkt) : Bool :=
  match x.ingress with
  | some i => onTree s i comp root ms
  | none => decide (root = myNode s)

/-- The ports by which a packet queued for port `q` can leave instead, each with one copy: one of its route set, or, down a group's tree, the lowest ports toward the members that `q` served; `was` is the state in which `q` was still UP (R77, R432). -/
def otherPorts (was s : State) (q : Nat) (x : QPkt) : List Nat × State :=
  let comp := (compFor s x.pkt.epoch).getD s.map.comp
  let one (n : Nat) : List Nat × State :=
    let r := choosePort s (routeSet s comp n) x.pkt
    (r.1.toList, r.2)
  match tget comp.groups x.pkt.dst with
  | some (root, ms) =>
    if goesDown was comp root ms x then
      let served := (membersHere was comp root ms).filter fun m => firstPort was comp (myNode s) m = some q
      (sortAsc (served.filterMap (firstPort s comp (myNode s))), s)
    else one root
  | none => one x.pkt.dst

/-- A packet queued for a port that is no longer UP moves to another port of its route set, or is discarded and counted (R77). -/
def moveOne (was s : State) (q k : Nat) (x : QPkt) : State :=
  match otherPorts was s q x with
  | ([], s) => moveNowhere s q k x
  | (l, s) => l.foldl (fun st port => moveOn st k x port) s

/-- The packets queued for a port, or chosen and not begun, move to other ports of their route sets, or are discarded and counted (R77). -/
def moveQueued (was s : State) (q : Nat) : State :=
  let ks := (List.range 16).map (16 * q + ·)
  let p := lport was q
  let chosen := p.txLossless.queued ++ p.txLossy.queued
  let xs := chosen ++ ks.flatMap fun k => ((outQ s k).packets ++ (outQ s k).reserve).map fun x => (k, x)
  let s := ks.foldl (fun st k => setOutQ st k { outQ st k with packets := [], reserve := [] }) s
  xs.foldl (fun st e => moveOne was st q e.1 e.2) s

/-- Nothing of the link's streams, replay buffer and credits is kept. -/
def clearLink (s : State) (q : Nat) : State :=
  let s := modLanes s (lanesOf s q) fun l => { l with active := false, ready := false, locked := false, hello := none, retrain := .idle }
  modLport s q fun p => { p with
    txSeq := 0, replay := [], resend := [], ctl := [], lackIn := 4095, replays := 0, nakDone := none, rxSeq := 0, lnak := false, ahead := [],
    credits := [0, 0, 0, 0], ccumIn := [0, 0, 0, 0], ccumOut := [0, 0, 0, 0], txLossless := {}, txLossy := {}, draining := none, oldCfg := none, oldRate := none, retireSent := 0,
    rxLossless := { p.rxLossless with part := [] }, rxLossy := { p.rxLossy with part := [] }, lossySkip := false, retireLater := [] }

/-- What came over a link that is gone owes its partner no credits (R77). -/
def forgetCredits (s : State) (q : Nat) : State :=
  { s with
    pool := { s.pool with waiters := s.pool.waiters.map fun w => if w.req.lport = q then { w with credit := false } else w }
    queues := { s.queues with out := s.queues.out.map fun e =>
      (e.1, { e.2 with reserve := e.2.reserve.map fun x => if x.ingress = some q then { x with freed := true } else x }) } }

/-- A port that was UP no longer carries anything: its packets move, its agent is reclaimed, its record changes. -/
def leaveUp (s : State) (q : Nat) (st : PortState) : State :=
  linkChanged (reclaimPort (moveQueued s (toState (clearLink (forgetCredits s q) q) q st) q) q)

/-- A port goes DOWN (R76, R78): `cause` is the row of Table 3-9, for a port that was UP. -/
def goDown (s : State) (q cause : Nat) : State :=
  let wasUp := isUp s q
  let s := modLport s q fun p => { p with downTimes := (s.now :: p.downTimes).take 8, departed := cause = 5 }
  let s := if wasUp then leaveUp s q .down else toState (clearLink s q) q .down
  if wasUp then event (setEvt s (aLPORT_STATUS q) 24) ePORT_DOWN sevDEGRADED 2 q q cause else setEvt s (aLPORT_STATUS q) 24

/-- The port went DOWN eight times within 60 s (R78). -/
def flapping (p : LPort) : Bool :=
  match p.downTimes.head?, p.downTimes[7]? with
  | some a, some b => a < b + ms 60000
  | _, _ => false

/-- The back-off after DOWN ends (R78). -/
def backoffOver (s : State) (q : Nat) : State :=
  let p := lport s q
  if p.state = .down ∧ due s p.since (ms p.backoff) ∧ !rodOut s q then
    if !portEnabled s q then toState s q .disabled
    else if flapping p then event (toState s q .held) ePORT_HELD sevDEGRADED 2 q q 8
    else toWaitAdmit (setLport s q { p with backoff := min 1024 (2 * p.backoff) }) q
  else s

/-! ### Enabling and disabling (R56, R79) -/

/-- A port whose LPORT_ENABLE bit is 1 leaves DISABLED once phase LINKS has begun. -/
def enablePort (s : State) (q : Nat) : State :=
  if isLport s q && portEnabled s q && (lport s q).state = .disabled && s.links.open_ && !rodOut s q then toWaitAdmit s q else s

/-- The ports of a native port whose LPORT_ENABLE bit is 1 leave DISABLED. -/
def enablePorts (s : State) (n : Nat) : State := ((List.range 8).map (8 * n + ·)).foldl enablePort s

/-- A port whose LPORT_ENABLE bit has become 0, at a packet boundary: an UP one sends LINK_DOWN and waits for its flits to be acknowledged, any other but a HELD one is DISABLED at once (R79). -/
def disablePort (s : State) (q : Nat) : State :=
  match (lport s q).state with
  | .disabled => s
  | .held => s
  | .up =>
    if (lport s q).draining.isSome then s
    else modLport s q fun p => { p with ctl := p.ctl ++ [[4, 0]], draining := some s.now }
  | _ => toState (clearLink s q) q .disabled

/-- A port being disabled has every flit acknowledged, or 10 µs have passed (R79). -/
def disableEnd (s : State) (q : Nat) : State :=
  let p := lport s q
  match p.draining with
  | some t => if (p.replay = [] ∧ p.ctl = []) ∨ due s t (us 10) then enablePort (leaveUp s q .disabled) q else s
  | none => s

/-- A port stands between two packets: none is partly sent on it. -/
def betweenPackets (p : LPort) : Bool := p.txLossless.part = [] && p.txLossy.part = []

/-- A port acts by PORT_CFG as it is now in force: its orderly disable (R79), or DOWN with too few lanes (R76). -/
def cfgActs (s : State) (q : Nat) : State :=
  if isLport s q && !portEnabled s q then disablePort s q
  else if isUp s q && decide ((activeLanes s q).length < minLanes s q) then goDown s q 1 else s

/-- A packet boundary of a port: LIVE values written while a packet was being sent take force (R8, R13). -/
def portBoundary (s : State) (q : Nat) : State :=
  let p := lport s q
  if betweenPackets p && (p.oldCfg.isSome || p.oldRate.isSome) then
    releaseRaises (cfgActs (setLport s q { p with oldCfg := none, oldRate := none }) q) (q / 128)
  else s

/-- The ports of a native port that are in the middle of a packet keep its PORT_CFG as it stood (R9). -/
def keepCfg (s : State) (n : Nat) (old : Word) : State :=
  ((List.range 8).map (8 * n + ·)).foldl (fun st q =>
    let p := lport st q
    if isUp st q && !betweenPackets p && p.oldCfg.isNone then setLport st q { p with oldCfg := some old } else st) s

/-- The ports of a native port that are in the middle of a packet keep its PORT_ADMIT_RATE as it stood (R9). -/
def keepRate (s : State) (n : Nat) (old : Word) : State :=
  ((List.range 8).map (8 * n + ·)).foldl (fun st q =>
    let p := lport st q
    if isUp st q && !betweenPackets p && p.oldRate.isNone then setLport st q { p with oldRate := some old } else st) s

/-- PORT_CFG of a native port was written: its ports act by it at their next packet boundary, at once where no packet is being sent (R8, R13, R79). -/
def cfgWritten (s : State) (n : Nat) : State :=
  let qs := (List.range 8).map (8 * n + ·)
  qs.foldl (fun st q => if (lport st q).oldCfg.isSome then st else cfgActs st q) (enablePorts s n)

/-- The end of flap hold (R78; log entry 30). -/
def releaseHold (s : State) (q : Nat) : State :=
  let s := modLport s q fun p => { p with downTimes := [], backoff := 1 }
  if rodOut s q then toState s q .down else if portEnabled s q then toWaitAdmit s q else toState s q .disabled

/-! ### Control messages (Table 3-10) -/

/-- A control message joins those to be sent. -/
def sendCtl (s : State) (q : Nat) (m : List Byte) : State := modLport s q fun p => { p with ctl := p.ctl ++ [m] }

/-- The lanes that a mask names. -/
def maskLanes (s : State) (q mask : Nat) : List Nat := (lanesOf s q).filter fun l => bit mask (l - q)

/-- The mask of some lanes of a port. -/
def laneMask (q : Nat) (ls : List Nat) : Nat := (ls.map fun l => 2 ^ (l - q)).sum

/-- Every unacknowledged flit is to be sent again (R70). -/
def replayAll (s : State) (q : Nat) : State :=
  if (lport s q).replay = [] then s
  else bump (setEvt (modLport s q fun p => { p with resend := p.replay, replays := p.replays + 1 }) (aLPORT_STATUS q) 26) (cLPORT_REPLAY_COUNT q)

/-- The drill that retires a lane, when one runs (Table 16-7). -/
def laneDrill (s : State) (l : Nat) : Option Drill := s.spares.drill.filter fun d => d.args.dkind = 2 && d.args.target = l

/-- The record of a lane's retirement, marked where a drill caused it (Tables 16-4, 16-5). -/
def laneRecord (s : State) (q l reason : Nat) : EventRec :=
  let r : EventRec := { etype := eLANE_RETIRED, sev := sevCORRECTED, uclass := 1, unit := l, arg0 := q, arg1 := reason }
  match laneDrill s l with
  | some d => if reason = 5 then { r with drill := true, drillId := d.args.id } else r
  | none => r

/-- Active lanes leave service with a reason (R72, R73). -/
def dropLanes (s : State) (q : Nat) (ls : List Nat) (reason : Nat) : State :=
  ls.foldl (fun st l => raise (setLane st l { lane st l with active := false, retired := true, reason := reason }) (laneRecord st q l reason))
    (setEvt (modLport s q fun p => { p with reason := reason }) (aLPORT_STATUS q) 25)

/-- The port goes DOWN when too few lanes are left; otherwise its record shows the lanes (R73). -/
def lanesLeft (s : State) (q : Nat) : State := if (activeLanes s q).length < minLanes s q then goDown s q 1 else linkChanged s

/-- The module retires lanes of an UP port: it stops accepting their flits, sends LANE_RETIRE and sets LNAK (R73); during a rod pause it acts when the spare resumes (R455). -/
def retireLanes (s : State) (q mask reason : Nat) : State :=
  let ls := (maskLanes s q mask).filter fun l => (lane s l).active
  if !isUp s q || ls = [] then s
  else if rodPaused s q then modLport s q fun p => { p with retireLater := p.retireLater ++ [(mask, reason)] }
  else
    let s := dropLanes s q ls reason
    let s := sendCtl s q [2, BitVec.ofNat 8 (laneMask q ls)]
    lanesLeft (modLport s q fun p => { p with lnak := true, ahead := [], retireSent := p.retireSent ||| laneMask q ls }) q

/-- The partner's LANE_RETIRE (R73): the lanes it names that are in use leave service, the flits are replayed, and the module answers with its own LANE_RETIRE for the same mask;
a mask that the module's own LANE_RETIRE flits have named is the partner's answer, and is not answered again (log entry 24).
Table 3-5 gives no reason for a retirement that the partner began: it is left open (log entry 3). -/
def partnerRetire (s : State) (q mask : Nat) : State :=
  let ls := (maskLanes s q mask).filter fun l => (lane s l).active
  if !isUp s q then s
  else
    let s := if ls = [] then s else
      let (v, s) := drawFree s
      dropLanes s q ls (1 + v % 6)
    let s := if mask &&& (lport s q).retireSent = mask then s
      else modLport (sendCtl s q [2, BitVec.ofNat 8 mask]) q fun p => { p with retireSent := p.retireSent ||| mask }
    let s := replayAll s q
    if ls = [] then s else lanesLeft s q

/-- The unit that a drill's own records name (Table 16-7). -/
def drillUnit (a : DrillArgs) : Nat × Nat :=
  match a.dkind with
  | 1 => (3, a.target)
  | 2 => (1, a.target)
  | 3 => if a.target / 2 ^ 24 = 1 then (1, a.target % 2 ^ 16) else (15, 0)
  | 4 => (6, a.target)
  | 6 => (a.target / 65536, a.target % 65536)
  | _ => (15, 0)

/-- A drill's own record: DRILL_START or DRILL_END (Table 16-5). -/
def drillRecord (a : DrillArgs) (etype arg0 arg1 : Nat) : EventRec :=
  { etype := etype, sev := sevINFO, drill := true, drillId := a.id, uclass := (drillUnit a).1, unit := (drillUnit a).2, arg0 := arg0, arg1 := arg1 }

/-- The result of a drill (Table 16-5). -/
def drillResult (d : Drill) : Nat := if d.interrupted then 2 else if d.aborted then 1 else 0

/-- A drill ends: DRILL_END is raised and kept in the drill log of the last 1,024 (R473, R475). -/
def endDrill (s : State) (d : Drill) (effect : Nat) : State :=
  let r := drillRecord d.args eDRILL_END (drillResult d) effect
  let s := raise (setEvt s aDRILL_STATUS 6) r
  let kept := s.spares.log ++ [{ r with seq := s.events.seq, time := timeNow s, node := s.map.node }]
  latchLive { s with spares := { s.spares with
      drill := none, lastDrill := (d.args.dkind, drillResult d, d.args.id), lastEnd := some s.now, log := kept.drop (kept.length - 1024) } } fun a => decide (a / 0x10000 = 7)

/-- A lane that a drill retired is back in use: the drill ends (R473). -/
def laneBack (s : State) (l : Nat) : State :=
  match laneDrill s l with
  | some d => if (lane s l).active then endDrill s d 0 else s
  | none => s

/-- A port's precoding as its active lanes have it (Table 3-13). -/
def precodeSeen (s : State) (q : Nat) : State := modLport s q fun p => { p with precodeOn := (activeLanes s q).any fun l => (lane s l).precode }

/-- Lanes that exchanged HELLO alone are in use again: the port's record, its admitted rate and a lane drill follow (R44, R75). -/
def lanesBack (s : State) (q : Nat) (ls : List Nat) : State :=
  let s := modLanes s ls fun l => { l with active := true, retired := false, retrain := .idle, uncorr := [] }
  let s := modLport s q fun p => { p with retireSent := p.retireSent - (p.retireSent &&& laneMask q ls) }
  ls.foldl laneBack (releaseRaises (linkChanged (precodeSeen s q)) (q / 128))

/-- The partner's LANE_ADD (R75): lanes that exchanged HELLO alone are in use again. -/
def partnerAdd (s : State) (q mask : Nat) : State :=
  let ls := (maskLanes s q mask).filter fun l => (lane s l).retrain = .hello
  if !isUp s q || ls = [] then s
  else lanesBack s q ls

/-- A control message of the partner (Table 3-10). -/
def takeControl (s : State) (q : Nat) (m : List Byte) : State :=
  match field m 0 1 with
  | 2 => partnerRetire s q (field m 1 1)
  | 3 => partnerAdd s q (field m 1 1)
  | 4 => goDown s q 4
  | 5 => goDown s q 5
  | _ => s

/-! ### HELLO (R58, R67) -/

/-- The HELLO that a lane sends. -/
def helloOf (s : State) (l : Nat) : Hello :=
  let q := lportOfLane s l
  let w := widthOf s q
  { node := myNode s, lport := q, width := w, lane := l - q, credTc0 := 1024 * w, credTc1 := 1024 * w, credTc2 := 1024 * w, credTc5 := 1024 * w,
    replayDepth := 256 * w, ready := isReady s }

/-- The lane exchanges HELLO, with its port or alone. -/
def inHello (s : State) (l : Nat) : Bool :=
  let q := lportOfLane s l
  ((lport s q).state = .hello && !(lane s l).retired) || (isUp s q && (lane s l).retrain = .hello)

/-- A HELLO flit leaves the lane (R58, R62). -/
def sendHello (s : State) (l : Nat) : State :=
  if inHello s l && due s (lane s l).lastHello (us 1) then
    let f : Flit := { fkind := 3, pend := 32, txlane := l - lportOfLane s l, payload := helloBytes (helloOf s l) }
    let s := setLane s l { lane s l with lastHello := s.now }
    { s with links := { s.links with lastTx := tset s.links.lastTx l (sealFlit f) } }
  else s

/-- The least credit a HELLO advertises. -/
def leastCredit (h : Hello) : Nat := min (min h.credTc0 h.credTc1) (min h.credTc2 h.credTc5)

/-- A HELLO that is laid out as Table 3-11 gives. -/
def helloWell (h : Hello) : Bool := h.helloVer = 1 && h.rsv = 0 && (h.width ∈ [1, 2, 4, 8]) && decide (h.lport < 512)

/-- The keys of a list by how often they occur, the most frequent first and the least key among equals; `none` for an empty list. -/
def mostOf (key : Nat → Nat) (l : List Nat) : Option Nat :=
  l.foldl (fun best x => match best with
    | none => some x
    | some y =>
      let cx := l.count x
      let cy := l.count y
      if cy < cx ∨ cx = cy ∧ key x < key y then some x else some y) none

/-- The partner of a port: the node and logical port that the most valid HELLOs name (R58), as node × 65,536 + port. -/
def partnerOf (s : State) (q : Nat) : Option Nat :=
  mostOf id ((liveLanes s q).filterMap fun l => (lane s l).hello.map fun h => h.node * 65536 + h.lport)

/-- The width that the most lanes naming the partner advertise, the greater among equals. -/
def partnerWidth (s : State) (q pn : Nat) : Option Nat :=
  mostOf (fun w => 8 - w) ((liveLanes s q).filterMap fun l => match (lane s l).hello with
    | some h => if h.node * 65536 + h.lport = pn then some h.width else none
    | none => none)

/-- The lanes of a port that agree (R58). -/
def agreeing (s : State) (q : Nat) : List Nat :=
  match partnerOf s q with
  | none => []
  | some pn => match partnerWidth s q pn with
    | none => []
    | some w => (liveLanes s q).filter fun l => match (lane s l).hello with
      | some h => h.node * 65536 + h.lport = pn && h.width = w
      | none => false

/-- Why a lane that does not agree is retired: MISWIRED or LOCK_LOSS (R58). -/
def disagreeReason (h : Option Hello) (pn : Nat) : Nat :=
  match h with
  | some h => if h.node * 65536 + h.lport = pn then 1 else 4
  | none => 1

/-- The scheduler of a port that enters UP: V and every tag 0, every shaper full (R379, R380). -/
def freshSched (s : State) (q : Nat) : State :=
  let s := setSched s q { sched s q with v := 0 }
  (List.range 16).foldl (fun st i =>
    let k := 16 * q + i
    setOutQ st k { outQ st k with fin := 0, tokens := 10 * bucketBytes st q (regField st (aQUEUE_SHAPE k) 12 16), tokensAt := st.now }) s

/-- What a port does once it is UP: its record changes, a switch that is not a member pulls a snapshot, an endpoint is told the epoch (R430, R441, R446). -/
def afterUp (s : State) (q : Nat) : State :=
  let s := linkChanged s
  if roleOf s q = roleSWITCH ∧ (s.supply.unjoined ∨ 6 ≤ s.supply.phase ∧ !s.map.member) then sendPull { s with map := { s.map with pulling := true, snapshot := none } } q 0 0
  else if (roleOf s q = roleACCELERATOR ∨ roleOf s q = roleTRAY) ∧ s.map.member then sendEpoch s q
  else s

/-- The lanes of a port that do not agree are retired, as MISWIRED or LOCK_LOSS (R55, R58). -/
def dropDisagreeing (s : State) (q : Nat) : State :=
  let ok := agreeing s q
  let pn := (partnerOf s q).getD 0
  ((liveLanes s q).filter fun l => !(l ∈ ok)).foldl (fun st l => dropLanes st q [l] (disagreeReason (lane st l).hello pn)) s

/-- A port enters UP with its agreeing lanes (R58, R65); what R44 lets rise at once rises. -/
def enterUp (s : State) (q : Nat) : State :=
  let ok := agreeing s q
  let pn := (partnerOf s q).getD 0
  let h := (ok.head?.bind fun l => (lane s l).hello).getD (helloOf s q)
  let s := clearLink s q
  let s := modLanes s ok fun l => { l with active := true, uncorr := [] }
  let s := setLport s q { lport s q with
    state := .up, since := s.now, partnerNode := pn / 65536, partnerLport := pn % 65536, partnerWidth := h.width,
    credits := [h.credTc0, h.credTc1, h.credTc2, h.credTc5], lackAt := s.now }
  ok.foldl laneBack (releaseRaises (afterUp (freshSched s q) q) (q / 128))

/-- The HELLO exchange of a port ends: UP, or DOWN with too few agreeing lanes; those that do not agree are retired either way (R58; log entry 25). -/
def helloOver (s : State) (q : Nat) : State :=
  let up := decide (minLanes s q ≤ (agreeing s q).length)
  let s := dropDisagreeing s q
  if up then enterUp s q else goDown s q 0

/-- A port whose every lane has reached the end of its present phase goes on to the next (R56, R58). -/
def portAdvance (s : State) (q : Nat) : State :=
  let ls := liveLanes s q
  match (lport s q).state with
  | .training =>
    if ls.all fun x => (lane s x).ready then modLport (toState s q .lock) q fun p => { p with precodeOn := ls.any fun x => (lane s x).precode } else s
  | .lock => if ls.all fun x => (lane s x).locked then toState s q .hello else s
  | .hello => if ls.all fun x => x ∈ agreeing s q then helloOver s q else s
  | _ => s

/-- A lane that exchanged HELLO alone rejoins its port when its HELLO names the partner and the partner's width, or stays retired with its new reason (R75). -/
def rejoin (s : State) (l : Nat) (h : Hello) : State :=
  let q := lportOfLane s l
  let p := lport s q
  let s := modLport (setLane s l { lane s l with hello := some h }) q fun p => { p with partnerReady := h.ready }
  if h.node = p.partnerNode ∧ h.lport = p.partnerLport ∧ h.width = p.partnerWidth then
    lanesBack (sendCtl s q [3, BitVec.ofNat 8 (2 ^ (l - q))]) q [l]
  else
    let reason := if h.node = p.partnerNode ∧ h.lport = p.partnerLport then 1 else 4
    modLport (setLane s l { lane s l with retrain := .idle, reason := reason }) q fun p => { p with reason := reason }

/-- A HELLO arrives on a lane (R58, R67); one that Table 3-11 does not allow acts not at all (R5). -/
def takeHello (s : State) (l : Nat) (h : Hello) : State :=
  let q := lportOfLane s l
  if !helloWell h then s
  else if isUp s q && (lane s l).active then goDown (modLport s q fun p => { p with partnerReady := h.ready }) q 3
  else if !inHello s l then s
  else if leastCredit h < 65 then
    event (setLane s l { lane s l with hello := none }) eHELLO_REFUSED sevINFO 2 q q (leastCredit h)
  else if isUp s q then rejoin s l h
  else
    let s := setLane s l { lane s l with hello := some h }
    portAdvance (modLport s q fun p => { p with partnerReady := h.ready }) q

/-- HELLO, or a lane's own, has lasted 10 ms. -/
def helloTimeout (s : State) (q : Nat) : State :=
  if (lport s q).state = .hello then (if due s (lport s q).since (ms 10) then helloOver s q else s)
  else
    let ls := (lanesOf s q).filter fun l => (lane s l).retrain = .hello && due s (lane s l).since (ms 10)
    if ls = [] then s
    else modLport (modLanes s ls fun l => { l with retrain := .idle, reason := 1 }) q fun p => { p with reason := 1 }

/-! ### Sending flits (R60 to R70) -/

/-- The most flits a port may have unacknowledged (R68). -/
def replayRoom (s : State) (q : Nat) : Nat := min 2047 (256 * widthOf s q)

/-- What a flit of a stream carries: its payload, the offset of the first packet that starts in it, what is left of a packet, and the packets left. -/
def packStream (part : List Byte) (ps : List (List Byte)) : List Byte × Nat × List Byte × List (List Byte) :=
  let rec fill (fuel : Nat) (acc : List Byte) (l : List (List Byte)) : List Byte × List Byte × List (List Byte) :=
    match fuel, l with
    | fuel + 1, p :: l =>
      if acc.length = 240 then (acc, [], p :: l)
      else if acc.length + p.length ≤ 240 then fill fuel (acc ++ p) l
      else (acc ++ p.take (240 - acc.length), p.drop (240 - acc.length), l)
    | _, l => (acc, [], l)
  if 240 ≤ part.length then (part.take 240, 255, part.drop 240, ps)
  else
    let r := fill ps.length part ps
    (r.1, if ps = [] then 255 else part.length, r.2)

/-- The next flit of a stream on its way out. A port that waits for a packet boundary ends the packet it is sending and begins no other. -/
def packTx (x : TxStream) (ending : Bool) : List Byte × Nat × TxStream :=
  let ps := if ending then [] else x.queued.map fun e => packetBytes e.2.pkt
  let r := packStream x.part ps
  (r.1, r.2.1, { part := r.2.2.1, queued := x.queued.drop (ps.length - r.2.2.2.length) })

/-- A stream has bytes to send. -/
def hasBytes (x : TxStream) (ending : Bool) : Bool := x.part ≠ [] || (!ending && x.queued ≠ [])

/-- The port begins no packet: it waits for a packet boundary, or it is being disabled (R13, R79). -/
def endsPackets (p : LPort) : Bool := p.oldCfg.isSome || p.oldRate.isSome || p.draining.isSome

/-- The fields that every flit of a port carries: LACK, LNAK, two classes' credits, the sending lane, and its link CRC (R66). -/
def dressFlit (s : State) (l : Nat) (f : Flit) : Flit :=
  let q := lportOfLane s l
  let p := lport s q
  let first := match tget s.links.lastTx l with
    | some g => if g.cselA = 0 then 2 else 0
    | none => 0
  sealFlit { f with
    lack := (p.rxSeq + 4095) % 4096, lnak := p.lnak, cselA := first, ccumA := p.ccumOut.getD first 0,
    cselB := first + 1, ccumB := p.ccumOut.getD (first + 1) 0, txlane := l - q }

/-- The flit a lane sent. -/
def sentFlit (s : State) (l : Nat) (f : Flit) : State := { s with links := { s.links with lastTx := tset s.links.lastTx l (dressFlit s l f) } }

/-- A DATA or CONTROL flit takes an LSEQ and is kept for replay. -/
def sendKept (s : State) (l : Nat) (f : Flit) : State :=
  let q := lportOfLane s l
  let p := lport s q
  let f := { f with lseq := p.txSeq }
  sentFlit (setLport s q { p with txSeq := (p.txSeq + 1) % 4096, replay := p.replay ++ [f], lackAt := if p.replay = [] then s.now else p.lackAt }) l f

/-- A DATA flit leaves: it is kept, its rod counts a handshake (R49), and a packet boundary it reaches lets LIVE values take force (R13). -/
def sendData (s : State) (l : Nat) (f : Flit) : State :=
  let q := lportOfLane s l
  portBoundary (handshake (sendKept s l f) .rod (nativeOf q) 1 true) q

/-- One flit slot of an active lane: a replayed flit, a CONTROL flit, DATA of the lossless and then of the lossy stream, or IDLE (R62; the order is the model's, log entry 26). -/
def transmitFlit (s : State) (l : Nat) : State :=
  let q := lportOfLane s l
  let p := lport s q
  if !isUp s q || !(lane s l).active then s
  else if rodPaused s q then sentFlit s l { lseq := p.txSeq }
  else match p.resend with
    | f :: rest => sentFlit (setLport s q { p with resend := rest }) l f
    | [] =>
      if replayRoom s q ≤ p.replay.length then sentFlit s l { lseq := p.txSeq }
      else match p.ctl with
        | m :: rest => sendKept (setLport s q { p with ctl := rest }) l { fkind := 2, pend := m.length, payload := m }
        | [] =>
          let ending := endsPackets p
          if hasBytes p.txLossless ending then
            let (d, fpo, x) := packTx p.txLossless ending
            sendData (setLport s q { p with txLossless := x }) l { fkind := 1, fpo := fpo, pend := d.length, payload := d }
          else if hasBytes p.txLossy ending then
            let (d, fpo, x) := packTx p.txLossy ending
            sendData (setLport s q { p with txLossy := x }) l { fkind := 1, flossy := true, fpo := fpo, pend := d.length, payload := d }
          else sentFlit s l { lseq := p.txSeq }

/-! ### Receiving flits -/

/-- Whole packets gathered off the front of a stream's bytes; `fuel` bounds them. -/
def splitPackets : Nat → List Byte → List (List Byte) × List Byte
  | 0, bs => ([], bs)
  | fuel + 1, bs =>
    if bs.length < 48 ∨ bs.length < announcedSize bs then ([], bs)
    else
      let r := splitPackets fuel (bs.drop (announcedSize bs))
      (bs.take (announcedSize bs) :: r.1, r.2)

/-- Bytes that join a stream at a time; each packet keeps the time of its first byte (R99). -/
def joinStream (x : Stream) (now : Ns) (d : List Byte) : Stream :=
  let bs := x.part ++ d
  let r := splitPackets (bs.length / 52 + 1) bs
  let start := if x.part = [] then now else x.partAt
  let whole := match r.1 with
    | [] => []
    | b :: l => (start, b) :: l.map fun b => (now, b)
  { part := r.2, partAt := if r.1 = [] then start else now, packets := x.packets ++ whole }

/-- How many packets start in bytes that begin with one. -/
def startsIn : Nat → List Byte → Nat
  | 0, _ => 0
  | fuel + 1, bs => if bs = [] then 0 else if bs.length < 48 then 1 else 1 + startsIn fuel (bs.drop (announcedSize bs))

/-- The lossy packets that a discarded flit discards: the one that continues into it, unless the flit before it was discarded too and so has counted it, and those that start in it (R64). -/
def lossyOverlap (f : Flit) (skipped : Bool) : Nat :=
  let d := f.payload.take f.pend
  (if f.fpo ≠ 0 ∧ d ≠ [] ∧ !skipped then 1 else 0) + (if f.fpo < f.pend then startsIn 6 (d.drop f.fpo) else 0)

/-- A lossy DATA flit in order: its bytes join the stream, or it is discarded at a full dock with every packet that overlaps it (R41, R64). -/
def takeLossy (s : State) (q : Nat) (f : Flit) (full : Bool) : State :=
  let p := lport s q
  if full then
    let p := { p with lossySkip := true, rxLossy := { p.rxLossy with part := [] } }
    bumpBy (bump (setLport s q p) (cPORT_DOCK_OVERFLOW (nativeOf q))) (cLPORT_LOSSY_DROP q) (lossyOverlap f (lport s q).lossySkip)
  else if p.lossySkip then
    if f.fpo < f.pend then setLport s q { p with lossySkip := false, rxLossy := joinStream p.rxLossy s.now ((f.payload.take f.pend).drop f.fpo) } else s
  else setLport s q { p with rxLossy := joinStream p.rxLossy s.now (f.payload.take f.pend) }

/-- A DATA or CONTROL flit in order reaches the rod; a DATA flit is one of its handshakes (R49). -/
def takeInOrder (s : State) (q : Nat) (f : Flit) (full : Bool) : State :=
  let s := modLport s q fun p => { p with rxSeq := (p.rxSeq + 1) % 4096, lnak := false }
  if f.fkind = 2 then takeControl s q (f.payload.take f.pend)
  else if f.flossy then takeLossy (handshake s .rod (nativeOf q) 1 false) q f full
  else modLport (handshake s .rod (nativeOf q) 1 false) q fun p => { p with rxLossless := joinStream p.rxLossless s.now (f.payload.take f.pend) }

/-- Held flits that are now in order follow; `fuel` bounds them. -/
def takeAhead (s : State) (q : Nat) : Nat → State
  | 0 => s
  | fuel + 1 =>
    let p := lport s q
    match p.ahead.find? fun e => e.1.lseq = p.rxSeq with
    | some e => takeAhead (takeInOrder (setLport s q { p with ahead := p.ahead.erase e }) q e.1 e.2) q fuel
    | none => s

/-- A DATA or CONTROL flit by its LSEQ; the wait for the next missing one begins as the one before arrives (R69). -/
def takeSequenced (s : State) (q : Nat) (f : Flit) (full : Bool) : State :=
  let p := lport s q
  let d := gap 12 f.lseq p.rxSeq
  if d = 0 then
    let s := takeInOrder s q f full
    modLport (takeAhead s q (lport s q).ahead.length) q fun p => { p with aheadAt := s.now }
  else if 2048 ≤ d || p.lnak || (p.ahead.any fun g => g.1.lseq = f.lseq) then s
  else setLport s q { p with ahead := p.ahead ++ [(f, full)], aheadAt := if p.ahead = [] then s.now else p.aheadAt }

/-- One credit report of a flit (R66). -/
def takeCredit (p : LPort) (sel cum : Nat) : LPort :=
  let d := gap 12 cum (p.ccumIn.getD sel 0)
  if 1 ≤ d ∧ d ≤ 2047 then { p with credits := p.credits.set sel (p.credits.getD sel 0 + d), ccumIn := p.ccumIn.set sel cum } else p

/-- LACK of a flit: the flits it covers are no longer kept (R68, R70). -/
def takeLack (p : LPort) (now : Ns) (lack : Nat) : LPort :=
  let n := gap 12 lack p.lackIn
  if 1 ≤ n ∧ n ≤ p.replay.length then
    let left := p.replay.drop n
    { p with replay := left, resend := p.resend.filter fun f => left.any fun g => g.lseq = f.lseq, lackIn := lack, lackAt := now, replays := 0, nakDone := none }
  else p

/-- A flit with LNAK whose LACK has not been answered asks for a replay (R70); one that carries a LACK since passed was on its way before it. -/
def takeLnak (s : State) (q : Nat) (f : Flit) : State :=
  if f.lnak ∧ f.lack = (lport s q).lackIn ∧ (lport s q).nakDone ≠ some f.lack then replayAll (modLport s q fun p => { p with nakDone := some f.lack }) q else s

/-- A flit that fails its LCRC, overlaps an uncorrectable codeword, or sets a reserved bit acts not at all (R5, R61). -/
def flitBad (f : Flit) : Bool := f.damaged || f.rsv ≠ 0 || f.lcrc ≠ crc32 (flitBody f)

/-- A flit slot of a lane passes: two codewords carry five flits, the third of which overlaps both. A codeword found uncorrectable is counted once, by the first damaged flit that shows it (R53, R72). -/
def passFlit (s : State) (l : Nat) (damaged : Bool) : State :=
  let x := lane s l
  let first := x.badFirst || (damaged && decide (x.place < 2))
  let second := x.badSecond || (damaged && (decide (2 < x.place) || (decide (x.place = 2) && !first)))
  let found := (first && !x.badFirst) || (second && !x.badSecond)
  let last := decide (x.place = 4)
  let x := { x with place := (x.place + 1) % 5, badFirst := first && !last, badSecond := second && !last }
  if found then bump (setLane s l { x with uncorr := s.now :: x.uncorr.take 7 }) (cLANE_FEC_UNCORR l) else setLane s l x

/-- A DATA or CONTROL flit enters its port's ingress dock, from which the rod has meanwhile read `drained` flits; says whether the dock was full (R41, R47). -/
def dockFlit (s : State) (q drained : Nat) : Bool × State :=
  let s := dockRead s .pcsIn (nativeOf q) drained
  if dockFull s .pcsIn (nativeOf q) then (true, s) else (false, dockWrite s .pcsIn (nativeOf q))

/-- A flit arrives on a lane. -/
def receiveFlit (s : State) (l : Nat) (f : Flit) (drained : Nat) : State :=
  let q := lportOfLane s l
  let s := passFlit s l f.damaged
  if rodPaused s q then s
  else if f.fkind = 3 ∧ flitBad f = false then takeHello s l (readHello (f.payload.take f.pend))
  else if !isUp s q || !(lane s l).active then s
  else if flitBad f then modLport s q fun p => { p with lnak := true, ahead := [] }
  else
    let s := modLport s q fun p => takeLack (takeCredit (takeCredit p f.cselA f.ccumA) f.cselB f.ccumB) s.now f.lack
    let s := takeLnak s q f
    if f.fkind = 0 then s
    else
      let (full, s) := dockFlit s q drained
      takeSequenced s q f full

/-! ### Lane errors and timers -/

/-- A missing LSEQ has not arrived within 256 ns (R69). -/
def missingLseq (s : State) (q : Nat) : State :=
  let p := lport s q
  if isUp s q && !p.lnak && p.ahead ≠ [] && due s p.aheadAt 256 then setLport s q { p with lnak := true, ahead := [] } else s

/-- LACK has not moved for 10 µs: the flits are replayed, or, after 16 replays in a row, the port goes DOWN (R70). -/
def replayTimeout (s : State) (q : Nat) : State :=
  let p := lport s q
  if isUp s q && !rodPaused s q && p.replay ≠ [] && due s p.lackAt (us 10) then
    if 16 ≤ p.replays then
      let s := match activeLanes s q with
        | l :: _ => sentFlit s l { fkind := 2, lseq := (lport s q).txSeq, pend := 2, payload := [4, 1] }
        | [] => s
      goDown s q 2
    else replayAll (setLport s q { p with lackAt := s.now }) q
  else s

/-- A drill injects errors on a lane (R472): they count toward no threshold. -/
def injectedLane (s : State) (l : Nat) : Bool :=
  match s.spares.drill with
  | some d => d.args.dkind = 3 && d.args.target = 2 ^ 24 + l && !d.acted
  | none => false

/-- A lane trains: it reports receiver ready (R56, Table 3-1). -/
def receiverReady (s : State) (l : Nat) (precode : Bool) : State :=
  let q := lportOfLane s l
  let ok := precode && regField s (aPORT_CFG (nativeOf q)) 3 1 = 1
  if (lport s q).state = .training && !(lane s l).retired then
    portAdvance (setLane s l { lane s l with ready := true, precode := ok }) q
  else if isUp s q && (lane s l).retrain = .training then setLane s l { lane s l with ready := true, precode := ok, retrain := .locking, since := s.now }
  else s

/-- A lane has codeword lock and flit lock (R56; where it is not reached in time: log entry 27). -/
def flitLock (s : State) (l : Nat) : State :=
  let q := lportOfLane s l
  if (lport s q).state = .lock && !(lane s l).retired then
    portAdvance (setLane s l { lane s l with locked := true, place := 0, badFirst := false, badSecond := false }) q
  else if isUp s q && (lane s l).retrain = .locking then
    setLane s l { lane s l with locked := true, retrain := .hello, since := s.now, place := 0, badFirst := false, badSecond := false }
  else s

/-- Training has lasted 500 ms: the port goes DOWN and waits at the end of the queue (R57); a lane's own training leaves it retired. -/
def trainingTimeout (s : State) (q : Nat) : State :=
  if (lport s q).state = .training then
    if due s (lport s q).since (ms 500) then addStart (goDown s q 0) { lport := q, late := true } else s
  else
    let ls := (lanesOf s q).filter fun l => (lane s l).retrain = .training && due s (lane s l).since (ms 500)
    if ls = [] then s
    else modLport (modLanes s ls fun l => { l with retrain := .idle, reason := 1 }) q fun p => { p with reason := 1 }

/-- A retired lane is to be trained again (R75); on a port that is not UP it takes part in the port's next training. -/
def retrainLane (s : State) (l : Nat) : State :=
  let q := lportOfLane s l
  if isUp s q then addStart (setLane s l { lane s l with retrain := .waiting }) { lport := q, lane := some l }
  else setLane s l { lane s l with retired := false }

end Sys2Proof.Machine
end

