-- ==== Sys2Proof/Machine/Transmit.lean ====
section
/-! DEFINITION. What a logical port sends next (chapter 13): gates, shapers, strict priority and fair queueing, and the packets that have been in the switch too long. -/

namespace Sys2Proof.Machine

/-! ### Gate schedules (R384 to R387) -/

/-- The cycle time of a schedule. -/
def gateCycle (g : Gate) : Nat := (g.entries.map (·.1)).sum

/-- The entries of a cycle from a place on, the first cut to what is left of it. -/
def gateFrom : Nat → List (Nat × Nat) → List (Nat × Nat)
  | _, [] => []
  | off, e :: l => if off < e.1 then (e.1 - off, e.2) :: l else gateFrom (off - e.1) l

/-- The place of a time in the cycle of a schedule. -/
def gatePlace (g : Gate) (t : Nat) : Nat :=
  let c := max 1 (gateCycle g)
  (t % c + (c - g.base % c)) % c

/-- The time left in a queue's open interval, over entries and the end of the cycle; `none` when it is always open (R384, R385). -/
def openLeft (g : Gate) (t k : Nat) : Option Nat :=
  if g.entries.all fun e => bit e.2 k then none
  else some (((gateFrom (gatePlace g t) g.entries ++ g.entries).takeWhile fun e => bit e.2 k).map (·.1)).sum

/-- How long a queue has been open without a break, over entries and the start of the cycle; a whole cycle when it is always open (R386). -/
def openFor (g : Gate) (t k : Nat) : Nat :=
  let past := gateCycle g - gatePlace g t
  (((gateFrom past g.entries.reverse ++ g.entries.reverse).takeWhile fun e => bit e.2 k).map (·.1)).sum

/-- A port's gate state. -/
def portGate (s : State) (q : Nat) : PortGate := tgetD s.queues.gates q {}

/-- The schedule a port follows now. -/
def gateNow (s : State) (q : Nat) : Gate :=
  let g := portGate s q
  match g.next with
  | some n => if g.takeAt ≤ timeNow s then n else g.cur
  | none => g.cur

/-- τ(b) of R385 with `a` lanes. -/
def sendTime (a b : Nat) : Nat := ceilDiv (b * 256) (240 * max 1 a * 25)

/-- Whether a head packet of `b` bytes may start under the gates: it fits, or it overruns an interval that opened once it had waited through a whole cycle (R385, R386). -/
def gateLets (s : State) (q k b : Nat) : Bool × Bool :=
  let g := gateNow s q
  match openLeft g (timeNow s) (k % 16) with
  | none => (true, false)
  | some left =>
    if sendTime (activeLanes s q).length b ≤ left then (true, false)
    else (decide (0 < left) && due s ((outQ s k).headSince + openFor g (timeNow s) (k % 16)) (gateCycle g), true)

/-! ### Shapers and credits (R379, R380) -/

/-- The tokens a shaper holds, in tenths of a byte: RATE is in 0.1 GB/s, a tenth of a byte per ns. -/
def shaperTokens (s : State) (k : Nat) : Nat :=
  let w := aQUEUE_SHAPE k
  min (10 * bucketBytes s (k / 16) (regField s w 12 16)) ((outQ s k).tokens + regField s w 0 12 * (s.now - (outQ s k).tokensAt))

/-- The head packet of a queue when it is eligible, with whether it overruns its gate (R379). -/
def eligible (s : State) (q k : Nat) : Option (QPkt × Bool) :=
  match (outQ s k).packets with
  | [] => none
  | x :: _ =>
    let b := packetSize x.pkt
    let (ok, overrun) := gateLets s q k b
    let shaped := regField s (aQUEUE_PARAM k) 9 1 = 0 || decide (10 * b ≤ shaperTokens s k)
    let credit := !lossless x.pkt.tc || decide (cellsOf x.pkt ≤ (lport s q).credits.getD (creditClass x.pkt.tc) 0)
    if ok && shaped && credit then some (x, overrun) else none

/-- The queue that sends at a packet boundary: the highest strict one, else the one with the least finish tag (R379). -/
def chooseQueue (s : State) (q : Nat) : Option (Nat × QPkt × Bool) :=
  let l := (List.range 16).filterMap fun i => (eligible s q (16 * q + i)).map fun x => (16 * q + i, x)
  match (l.filter fun e => regField s (aQUEUE_PARAM e.1) 8 1 = 1).getLast? with
  | some e => some e
  | none => l.foldl (fun best e => match best with
      | none => some e
      | some b => if (outQ s e.1).fin < (outQ s b.1).fin then some e else some b) none

/-! ### The ingress reserve (R373) -/

/-- A packet that leaves the ingress reserve returns its credits, unless they have been (R66, R373). -/
def releaseReserve (s : State) (x : QPkt) : State :=
  match x.ingress with
  | some i => if lossless x.pkt.tc && !x.freed then returnCredits s i x.pkt.tc (cellsOf x.pkt) else s
  | none => s

/-- The packets at the front of a queue's reserve list that it admits now; their reserve cells and credits are released. -/
def admitReserve (k : Nat) : Nat → State → State
  | 0, s => s
  | fuel + 1, s =>
    match (outQ s k).reserve with
    | [] => s
    | x :: rest =>
      if admits s k (cellsOf x.pkt) then
        let s := releaseReserve (enterQueue (setOutQ s k { outQ s k with reserve := rest }) k x) x
        admitReserve k fuel s
      else s

/-- Packets that wait in the ingress reserve for the queues of a quarter enter them as room allows. -/
def admitReserves (s : State) (n : Nat) : State :=
  let ks := (s.queues.out.filter fun e => quarterOf (e.1 / 16) = n && e.2.reserve ≠ []).map (·.1)
  ks.foldl (fun st k => admitReserve k (outQ st k).reserve.length st) s

/-! ### Sending -/

/-- The head packet leaves its queue; the next one is the head now. -/
def popHead (s : State) (k : Nat) : State :=
  let e := outQ s k
  match e.packets with
  | [] => s
  | _ :: [] => setOutQ s k { e with packets := [] }
  | _ :: y :: l => setOutQ s k { e with packets := y :: l, fin := finishTag s k (packetSize y.pkt), headSince := s.now }

/-- A port stands at a packet boundary: it is UP, it is not being disabled nor waits for LIVE values to take force, its rod works, and its links want bytes. -/
def atBoundary (s : State) (q : Nat) : Bool :=
  let p := lport s q
  let held (x : TxStream) : Nat := (x.queued.map fun e => packetSize e.2.pkt).foldl (· + ·) x.part.length
  isUp s q && !endsPackets p && !rodPaused s q && decide (held p.txLossless < 240) && decide (held p.txLossy < 240)

/-- Sending takes credits or nothing, tokens, and gives the packet to its stream; the timer of one of the module's own runs from now (R97). -/
def toStream (s : State) (q k : Nat) (x : QPkt) : State :=
  let c := creditClass x.pkt.tc
  let s := if x.ingress.isNone then noteLeft s x.pkt else s
  let s := if regField s (aQUEUE_PARAM k) 9 1 = 1 then setOutQ s k { outQ s k with tokens := shaperTokens s k - 10 * packetSize x.pkt, tokensAt := s.now } else s
  let p := lport s q
  if lossless x.pkt.tc then
    setLport s q { p with credits := p.credits.set c (p.credits.getD c 0 - cellsOf x.pkt), txLossless := { p.txLossless with queued := p.txLossless.queued ++ [(k, x)] } }
  else setLport s q { p with txLossy := { p.txLossy with queued := p.txLossy.queued ++ [(k, x)] } }

/-- A port's choice at a packet boundary (R379). -/
def transmitSelect (s : State) (q : Nat) : State :=
  if !atBoundary s q then s
  else match chooseQueue s q with
    | none => s
    | some (k, x, overrun) =>
      let s := if regField s (aQUEUE_PARAM k) 8 1 = 1 then s else setSched s q { sched s q with v := (outQ s k).fin }
      let s := toStream s q k x
      let s := bumpBy s (cLPORT_TX_BYTES q) (packetSize x.pkt)
      let s := if overrun then setEvt (bump s (cLPORT_GATE_OVERRUN q)) (aQUEUE_CFG (quarterOf q)) 28 else s
      let s := capture s q (k % 16) (if overrun then 7 else if x.marked then 6 else 1) x.colour x.pkt
      admitReserves (popHead s k) (quarterOf q)

/-- A transit packet has been in the switch for 1 ms (R99). -/
def overstayed (s : State) (x : QPkt) : Bool := x.ingress.isSome && due s x.at_ (ms 1)

/-- The packets of a queue, and of its reserve list, that have been in the switch for 1 ms are discarded and counted (R99). -/
def expireQueue (s : State) (q k : Nat) : State :=
  let old := (outQ s k).packets.filter (overstayed s)
  let held := (outQ s k).reserve.filter (overstayed s)
  if old = [] ∧ held = [] then s
  else
    let first := (outQ s k).packets.head?
    let e := outQ s k
    let s := setOutQ s k { e with packets := e.packets.filter fun x => !overstayed s x, reserve := e.reserve.filter fun x => !overstayed s x }
    let s := match (outQ s k).packets with
      | y :: _ => if first = some y then s else setOutQ s k { outQ s k with fin := finishTag s k (packetSize y.pkt), headSince := s.now }
      | [] => s
    let s := (old ++ held).foldl (fun st x => capture (bump st (cROD_LIFETIME_DROP (nativeOf q))) q (k % 16) 4 x.colour x.pkt) s
    admitReserves (held.foldl releaseReserve s) (quarterOf q)

/-- Packets chosen from a queue and not yet begun that have been in the switch for 1 ms are discarded and counted; the credits they took come back (R99). -/
def expireChosen (s : State) (q k : Nat) : State :=
  let p := lport s q
  let gone (e : Nat × QPkt) : Bool := decide (e.1 = k) && overstayed s e.2
  let old := ((p.txLossless.queued ++ p.txLossy.queued).filter gone).map (·.2)
  if old = [] then s
  else
    let back (c : List Nat) (x : QPkt) : List Nat := if lossless x.pkt.tc then c.set (creditClass x.pkt.tc) (c.getD (creditClass x.pkt.tc) 0 + cellsOf x.pkt) else c
    let s := setLport s q { p with
      credits := old.foldl back p.credits
      txLossless := { p.txLossless with queued := p.txLossless.queued.filter fun e => !gone e }
      txLossy := { p.txLossy with queued := p.txLossy.queued.filter fun e => !gone e } }
    old.foldl (fun st x => capture (bump st (cROD_LIFETIME_DROP (nativeOf q))) q (k % 16) 4 x.colour x.pkt) s

/-- The packets that the resequencers of a quarter have held until their time in the switch reached 1 ms are discarded (R99, R111). -/
def expireHeld (s : State) (n : Nat) : State :=
  (reseqIn s n).foldl (fun st e =>
    let old := e.2.held.filter fun r => due st r.at_ (ms 1)
    if old = [] then st
    else
      let st := setReseq st e.1 { e.2 with held := e.2.held.filter fun r => !due st r.at_ (ms 1) }
      old.foldl (fun st r => capture (bump st (cROD_LIFETIME_DROP (nativeOf r.lport % 64))) r.lport (2 * r.pkt.tc) 4 .green r.pkt) st) s

end Sys2Proof.Machine
end

