-- ==== Sys2Proof/Machine/Registers.lean ====
section
/-! DEFINITION. Registers as mailboxes read and write them, the agreement groups (chapters 17 and 19), and the governor of each die (chapter 02). -/

namespace Sys2Proof.Machine

/-! ### The governor (R42 to R46) -/

/-- The state with a die's governor replaced. -/
def setDie (s : State) (n : Nat) (d : Die) : State := { s with dies := tset s.dies n d }

/-- The floor that a die must reach: that of what its ports ask for (R42, R44). -/
def wantedFloor (s : State) (die : Nat) : Nat := floorFor (((diePorts die).map (wantedRate s)).foldl max 0)

/-- One evaluation of a die's target, every 1 ms while the governor is there: the floor, VOLT_MIN and the canary raise; it does not fall during a canary's hold. -/
def evaluateDie (s : State) (die : Nat) : State :=
  let d := dieState s die
  if governorAway s || !due s d.lastEval (ms 1) then s
  else
    let s := { s with admitted := (diePorts die).foldl (fun t n => tset t n (admittedRate s n)) s.admitted }
    let want := max (max (wantedFloor s die) (regField s (aSUPPLY_CORE die) 10 10)) d.canaryRaise
    let target := if d.canaryHold then max want d.target else want
    setDie s die { d with lastEval := s.now, target := ceilDiv target 10 * 10 }

/-- One step of 10 mV toward the target, at most every 20 µs; the regulator refuses a setpoint below the floor of the admitted rates (R42, R44). -/
def stepDie (s : State) (die : Nat) : State :=
  let d := dieState s die
  if governorAway s || !due s d.lastStep (us 20) || d.voltSet = d.target then s
  else
    let v := if d.voltSet < d.target then min d.target (d.voltSet + 10) else max d.target (d.voltSet - 10)
    if v < floorFor (dieRate s die) then s else setDie s die { d with voltSet := v, lastStep := s.now }

/-- The units of a kind that a module has. -/
def unitTotalOf (k : UnitKind) : Nat := 4 * unitCount k

/-! ### Reading (R539 to R541) -/

/-- The blocks that stay readable while every UCIe module is down (R541). -/
def reckonerBlocks : List Nat := [0x00000, 0x10000, 0x20000, 0x30000, 0x40000, 0x50000, 0x60000]

/-- Whether a range of registers lies in one block. -/
def rangeBlock (a n : Nat) : Option Nat :=
  if a % 4 ≠ 0 ∨ n = 0 then none
  else match blockOf a, blockOf (a + 4 * n - 1) with
    | some b, some c => if b = c then some b else none
    | _, _ => none

/-- The registers of a range, read in ascending order. -/
def readRange (s : State) (m : MboxId) (pend : Bool) : Nat → Nat → List Byte × State
  | 0, _ => ([], s)
  | n + 1, a =>
    let (v, s) := readReg s m pend a
    let (l, s) := readRange s m pend n (a + 4)
    (le 4 v ++ l, s)

/-- A mailbox's access to a block of registers: while every UCIe module is down only those kept in the Reckoner answer (R541). -/
def blockReached (s : State) (b : Nat) : Bool := anyUcie s || reckonerBlocks.contains b

/-- READ_REGISTER (R539). -/
def readRegisters (s : State) (c : Caller) (addr count pend : Nat) : State :=
  let op := mbREAD_REGISTER
  if count = 0 ∨ 56 < count then answer s c op mARGUMENT_INVALID 4 []
  else if 1 < pend then answer s c op mARGUMENT_INVALID 6 []
  else match rangeBlock addr count with
    | none => answer s c op mARGUMENT_INVALID 0 []
    | some b =>
      if callerClass c = .baseboard ∧ ¬ b ∈ [0x00000, 0x10000, 0x20000, 0x30000] then answer s c op mPRIVILEGE_DENIED 0 []
      else if !blockReached s b then answer s c op mOBJECT_STATE_CONFLICT 0 []
      else
        let (l, s) := readRange s c.mbox (decide (pend = 1)) count addr
        answerOk s c op l

/-! ### Writing (R506, R539) -/

/-- Ports that are DISABLED or HELD. -/
def portsIdle (s : State) (l : List Nat) : Bool := l.all fun q => (lport s q).state = .disabled || (lport s q).state = .held

/-- Whether the LOCKED fields of a register count as idle (R81, R156, R239, R397, R402, R450). -/
def lockIdle (s : State) (a : Nat) : Bool :=
  match inRun a (aPORT_CFG 0) 64, inRun a (aLPORT_ROLE 0) 512, inRun a (aQUEUE_CFG 0) 4, inRun a (aTALLY_CFG 0) 4 with
  | some n, _, _, _ => portsIdle s ((lports s).filter fun q => nativeOf q = n)
  | _, some q, _, _ => portsIdle s [q]
  | _, _, some n, _ => portsIdle s (quarterPorts s n)
  | _, _, _, some n => regField s (aTALLY_CFG n) 0 1 = 0
  | _, _, _, _ => s.pool.jobs = []

/-- The bit of a stack's NEAR_RESIDENT register that a quarter's DRAM tally ring occupies (R390). -/
def tallyBit (s : State) (stack : Nat) : Option Nat :=
  let w := aTALLY_CFG (stack / 2)
  if regField s w 1 1 = 1 ∧ regField s w 6 1 = stack % 2 then some (regField s w 2 4) else none

/-- How many bits of 16 are set. -/
def bitCount (v : Nat) : Nat := ((List.range 16).filter fun i => bit v i).length

/-- R214: a NEAR_RESIDENT value that is refused. -/
def residentRefused (s : State) (stack v : Nat) : Bool :=
  match tallyBit s stack with
  | some c => bit v c || 13 < bitCount v + 1
  | none => 13 < bitCount v

/-- R390: a TALLY_CFG value with TALLY_WHERE 1 that is refused. -/
def tallyRefused (s : State) (n v : Nat) : Bool :=
  let stack := 2 * n + bits v 6 6
  let mask := regField s (aNEAR_RESIDENT stack) 0 16
  bit v 1 && (bit mask (bits v 5 2) || 13 ≤ bitCount mask || (15 - bitCount mask) * 2 ^ 29 < ttSize s / 8 + 2 ^ 29)

/-- The word a write asks for: RO fields stay, W1C bits are cleared by ones, STAGED fields stay (their pending copy is written), the rest take their values. -/
def writtenWord (old mask value : Word) (a : Nat) : Word :=
  (regFields a).foldl (fun w f =>
    if !covers mask f then w
    else match f.kind with
      | .live => setWordField w f (takeField a f.lo (askedField old mask value f))
      | .locked => setWordField w f (takeField a f.lo (askedField old mask value f))
      | .w1c => setWordField w f (if askedField 0 mask value f = 1 then 0 else wordField old f)
      | .staged => w
      | .ro => w) old

/-- The pending copy after a write. -/
def writtenPending (old mask value : Word) (a : Nat) : Word :=
  (regFields a).foldl (fun w f => if covers mask f ∧ f.kind = .staged then setWordField w f (takeField a f.lo (askedField old mask value f)) else w) old

/-- A LOCKED field would change. -/
def locksChange (s : State) (a : Nat) (w : Word) : Bool :=
  let l := maskOf (fun f => f.kind = .locked) (regFields a)
  (regWord s a &&& l) ≠ (w &&& l)

/-- A write is refused as locked (R12, R214, R390). -/
def writeLocked (s : State) (a : Nat) (w : Word) : Bool :=
  locksChange s a w && (!lockIdle s a
    || (match inRun a (aNEAR_RESIDENT 0) 8, inRun a (aTALLY_CFG 0) 4 with
        | some n, _ => residentRefused s n (w.toNat % 65536)
        | _, some n => tallyRefused s n w.toNat
        | _, _ => false))

/-- A port that does not exist any more, or is new, starts from its first state; its counters restart from 0 (R547). -/
def freshPort (s : State) (old : List Nat) (q : Nat) : State :=
  let s := { s with ctrs := s.ctrs.filter fun e => match e.1 with
    | .lport x _ => decide (x ≠ q)
    | _ => true }
  if isLport s q ∧ q ∈ old then s
  else { s with links := { s.links with ports := tdel s.links.ports q, starts := s.links.starts.filter fun x => x.lport ≠ q } }

/-- What a write to PORT_CFG sets off: a new breakout, ports enabled and disabled (R56, R79), ports with too few lanes (R76), each at its packet boundary. -/
def portCfgWritten (s : State) (n : Nat) (old : List Nat) (rebroken : Bool) : State :=
  cfgWritten (if rebroken then ((List.range 8).map (8 * n + ·)).foldl (fun st q => freshPort st old q) s else s) n

/-- The port plan has changed: it is saved 10 s later (R528). -/
def planChanged (s : State) : State :=
  { s with supply := { s.supply with planDue := if s.supply.planDue.isSome then s.supply.planDue else some s.now } }

/-- What a write sets off beyond its register. -/
def afterWrite (s : State) (a : Nat) (old : Word) (ports : List Nat) : State :=
  match inRun a (aPORT_CFG 0) 64, inRun a (aPORT_ADMIT_RATE 0) 64, inRun a (aLPORT_ROLE 0) 512 with
  | some n, _, _ => portCfgWritten (if old = regWord s a then s else planChanged s) n ports (old.toNat % 4 ≠ (regWord s a).toNat % 4)
  | _, some n, _ => releaseRaises s (n / 16)
  | _, _, some _ => if old = regWord s a then s else linkChanged (planChanged s)
  | _, _, _ => if a = aCARRY_CFG then warnStaging s else s

/-- The home lines with a directory transaction in progress keep DIR_CFG as it stood when it began (R9, R13). -/
def keepDir (s : State) (old : Word) : State :=
  { s with coh := { s.coh with oldCfg := (s.coh.busy.map (·.1) ++ s.pool.waiters.filterMap (·.holds)).foldl (fun t h => if thas t h then t else tset t h old) s.coh.oldCfg } }

/-- The channels with units in progress keep BEAD_CFG as it stood at their last commit point (R9, R13). -/
def keepBead (s : State) (old : Word) : State :=
  { s with bead := { s.bead with channels := s.bead.channels.map fun e =>
      if (e.2.active ≠ [] ∨ e.2.runs ≠ []) ∧ e.2.oldCfg.isNone then (e.1, { e.2 with oldCfg := some old }) else e } }

/-- Units in progress keep a register's LIVE fields as they were (R9): ports their PORT_CFG and PORT_ADMIT_RATE, directory transactions their DIR_CFG, bead channels their BEAD_CFG. -/
def keepOld (s : State) (a : Nat) (old : Word) : State :=
  match inRun a (aPORT_CFG 0) 64, inRun a (aPORT_ADMIT_RATE 0) 64 with
  | some n, _ => keepCfg s n old
  | _, some n => keepRate s n old
  | _, _ => if a = aDIR_CFG then keepDir s old else if a = aBEAD_CFG then keepBead s old else s

/-- The word of an accepted write: in force at once, or its LIVE fields from the block's next unit boundary on (R8, R13). -/
def acceptWord (s : State) (a : Nat) (w : Word) : State :=
  if liveWaits s a then
    let force := (w &&& ~~~liveMask a) ||| (regWord s a &&& liveMask a)
    setRegWord { s with regsLive := if w = force then tdel s.regsLive a else tset s.regsLive a w } a force
  else
    let old := regWord s a
    setRegWord (if old &&& liveMask a = w &&& liveMask a then s else keepOld s a old) a w

/-- TALLY_TAIL while EXPORT is 1 (Table 13-13). -/
def tailHeld (s : State) (a : Nat) : Bool :=
  match inRun a (aTALLY_TAIL 0) 4 with
  | some n => regField s (aTALLY_CFG n) 9 1 = 1
  | none => false

/-- A control write to the decks goes to each quarter under its sequence number, over the quarter's UCIe module or, while that is down, over a beam link from another's (R25, R481). -/
def controlWrite (s : State) (b : Nat) : State :=
  if reckonerBlocks.contains b then s
  else (List.range 4).foldl (fun st n =>
    let st := { st with rkn := { st.rkn with controlSeq := tupd st.rkn.controlSeq n 0 (· + 1) } }
    match controlPath st n with
    | some m => if m = n then st else crossBeam st m n 64 true
    | none => st) s

/-- WRITE_REGISTER (R506); what its FIELD_LOCKED record holds where the spec is silent is log entry 29. -/
def writeRegister (s : State) (c : Caller) (addr mask value : Nat) : State :=
  let op := mbWRITE_REGISTER
  let m : Word := BitVec.ofNat 32 mask
  let v : Word := BitVec.ofNat 32 value
  match rangeBlock addr 1 with
  | none => answer s c op mARGUMENT_INVALID 0 []
  | some b =>
    if (regFields addr).all fun f => f.kind = .ro then answer s c op mARGUMENT_INVALID 0 []
    else if !blockReached s b then answer s c op mOBJECT_STATE_CONFLICT 0 []
    else if absentPort s addr || tailHeld s addr then answerOk s c op []
    else
      let w := writtenWord (acceptedWord s addr) m v addr
      if writeLocked s addr w then
        answer (event s eFIELD_LOCKED sevINFO 0 0 addr value) c op mFIELD_LOCKED addr []
      else
        let p := writtenPending (pendWord s addr) m v addr
        let staged := (regFields addr).any fun f => f.kind = .staged
        let old := regWord s addr
        let ports := lports s
        let s := controlWrite (acceptWord s addr w) b
        let s := if staged then { s with regsPending := tset s.regsPending addr p } else s
        answerOk (settle (afterWrite s addr old ports)) c op []

/-! ### Agreement groups (R507, R508) -/

/-- The staged registers of group QOS, in ascending order, that have a pending copy. -/
def qosPending (s : State) : List Nat :=
  (sortAsc (s.regsPending.map (·.1))).filter fun a => aAQM_PROFILE 0 ≤ a && !absentPort s a

/-- A field of a pending copy. -/
def pendField (s : State) (a lo width : Nat) : Nat := ((pendWord s a).toNat >>> lo) % 2 ^ width

/-- The checks of R396 that a pending register fails: the address to name. -/
def qosBad (s : State) (a : Nat) : Option Nat :=
  let shape (k : Nat) : Option Nat :=
    if pendField s (aQUEUE_PARAM k) 9 1 = 1 ∧ (pendField s (aQUEUE_SHAPE k) 0 12 = 0 ∨ pendField s (aQUEUE_SHAPE k) 12 16 < 65) then some (aQUEUE_SHAPE k) else none
  let police (k : Nat) : Option Nat :=
    let cir := pendField s (aPOLICE_RATE k) 0 16
    let pir := pendField s (aPOLICE_RATE k) 16 16
    if pir = 0 then none
    else if pir < cir then some (aPOLICE_RATE k)
    else if pendField s (aPOLICE_BURST k) 0 16 < 65 ∨ pendField s (aPOLICE_BURST k) 16 16 < 65 then some (aPOLICE_BURST k)
    else none
  match inRun a (aAQM_PROFILE 0) 32, inRun a (aQUEUE_PARAM 0) 8192, inRun a (aQUEUE_SHAPE 0) 8192 with
  | some _, _, _ => if pendField s a 12 12 ≠ 0 ∧ pendField s a 12 12 ≤ pendField s a 0 12 then some a else none
  | _, some k, _ => if pendField s a 0 8 = 0 then some a else shape k
  | _, _, some k => shape k
  | _, _, _ => match inRun a (aPOLICE_RATE 0) 4096, inRun a (aPOLICE_BURST 0) 4096 with
    | some k, _ => police k
    | _, some k => police k
    | _, _ => none

/-- A shaper's tokens as its register changes: those it holds now, or a full bucket when the commit enables it (R380). -/
def retoken (s : State) (k : Nat) (wasOn : Bool) (tok : Nat) : State :=
  let full := 10 * bucketBytes s (k / 16) (regField s (aQUEUE_SHAPE k) 12 16)
  setOutQ s k { outQ s k with tokens := if wasOn then min full tok else full, tokensAt := s.now }

/-- A pending register of group QOS takes force. -/
def swapReg (s : State) (a : Nat) : State :=
  let p := pendWord s a
  let put (s : State) : State := setRegWord { s with regsPending := tdel s.regsPending a } a p
  let shaped (k : Nat) : State :=
    let on := regField s (aQUEUE_PARAM k) 9 1 = 1
    let tok := shaperTokens s k
    let s := put s
    if regField s (aQUEUE_PARAM k) 9 1 = 1 then retoken s k on tok else s
  match inRun a (aQUEUE_PARAM 0) 8192, inRun a (aQUEUE_SHAPE 0) 8192 with
  | some k, _ => shaped k
  | _, some k => shaped k
  | _, _ => put s

/-- Group QOS: checked whole, then taken by every port. -/
def commitQos (s : State) (c : Caller) : State :=
  let op := mbCOMMIT_GROUP
  match (qosPending s).findSome? (qosBad s) with
  | some a => answer s c op mGROUP_INCONSISTENT a []
  | none => answerOk ((qosPending s).foldl swapReg s) c op []

/-- Group NEAR_TIER: its fields clamped as Table 8-6 gives; a budget below the dirty count starts the write-back (R238). -/
def commitNear (s : State) (c : Caller) : State :=
  let p := pendWord s aNEAR_CFG
  let w := (regFields aNEAR_CFG).foldl (fun w f => if f.kind = .staged then setWordField w f (takeField aNEAR_CFG f.lo (wordField p f)) else w) (regWord s aNEAR_CFG)
  let s := setRegWord { s with regsPending := tdel s.regsPending aNEAR_CFG } aNEAR_CFG w
  answerOk (settle ([0, 1, 2, 3].foldl trimQuarter s)) c mbCOMMIT_GROUP []

/-- The closed runs of a queue over two laps of its cycle: the entry each starts at and its length, newest first. -/
def closedRuns (k : Nat) : List (Nat × Nat) → Nat → Option (Nat × Nat) → List (Nat × Nat)
  | [], _, r => r.toList
  | e :: l, i, r =>
    if bit e.2 k then closedRuns k l (i + 1) none ++ r.toList
    else closedRuns k l (i + 1) (some ((r.map (·.1)).getD i, (r.map (·.2)).getD 0 + e.1))

/-- The entry at which a queue begins to be closed for more than 10 µs in a row, or for ever (R387). -/
def closedLong (g : Gate) (k : Nat) : Option Nat :=
  if g.entries.all fun e => !bit e.2 k then some 0
  else (((closedRuns k (g.entries ++ g.entries) 0 none).filter fun r => 10000 < r.2).map fun r => r.1 % g.entries.length).min?

/-- The longest open interval of a queue. -/
def openRun (g : Gate) (k : Nat) : Nat :=
  let r := (g.entries ++ g.entries).foldl (fun (best : Nat × Nat) e => if bit e.2 k then (max best.1 (best.2 + e.1), best.2 + e.1) else (best.1, 0)) (0, 0)
  r.1

/-- The entry of a schedule that breaks R384 or R387. -/
def gateBad (s : State) (q : Nat) (g : Gate) : Option Nat :=
  if g.entries = [] then none
  else match g.entries.findIdx? fun e => e.1 < 100 ∨ 500000 < e.1 with
    | some i => some i
    | none =>
      if gateCycle g < 1000 ∨ 500000 < gateCycle g then some 0
      else match [2, 3, 4, 5].findSome? (closedLong g) with
        | some i => some i
        | none => match (List.range 16).find? fun k => (g.entries.any fun e => bit e.2 k) && decide (openRun g k < sendTime (widthOf s q) 4148) with
          | some k => g.entries.findIdx? fun e => bit e.2 k
          | none => none

/-- When a port takes a new schedule: the end of its old cycle in progress, or the new BASE_TIME if that is later (R387). -/
def gateTakes (s : State) (q : Nat) (g : Gate) : Nat :=
  let old := gateNow s q
  let now := timeNow s
  let end_ := if old.entries = [] then now else now + (gateCycle old - gatePlace old now) % gateCycle old
  max end_ g.base

/-- The ports whose committed schedule waits. -/
def gatesWaiting (s : State) : Bool := s.queues.gates.any fun e => e.2.next.isSome

/-- A commit of group GATE completes once every port follows its new schedule (R508). -/
def gateDone (s : State) : State :=
  match s.queues.gateCommit with
  | some c => if gatesWaiting s then s else answerOk { s with queues := { s.queues with gateCommit := none } } c mbCOMMIT_GROUP []
  | none => s

/-- A port takes its committed schedule when its time has come; otherwise it moves to the entry in force (R384, R387). -/
def gateMove (s : State) (q : Nat) : State :=
  let g := portGate s q
  let cur := gateNow s q
  let left := gateFrom (gatePlace cur (timeNow s)) cur.entries
  let next := if timeNow s < g.takeAt then g.next else none
  let s := { s with queues := { s.queues with gates := tset s.queues.gates q { cur := cur, idx := cur.entries.length - left.length, next := next, takeAt := g.takeAt } } }
  gateDone s

/-- Group GATE: the pending schedules are checked and given to their ports. -/
def commitGate (s : State) (c : Caller) : State :=
  let op := mbCOMMIT_GROUP
  let l := (sortAsc (s.queues.gatePending.map (·.1))).filter (isLport s)
  let pend (q : Nat) : Gate := tgetD s.queues.gatePending q {}
  match l.findSome? fun q => (gateBad s q (pend q)).map fun i => 16 * q + i with
  | some d => answer s c op mGROUP_INCONSISTENT d []
  | none =>
    let s1 := l.foldl (fun st q =>
      let g := pend q
      if g = gateNow st q then st
      else { st with queues := { st.queues with gates := tset st.queues.gates q { portGate st q with next := some g, takeAt := gateTakes st q g } } }) s
    let s1 := { s1 with queues := { s1.queues with gatePending := [], gateCommit := some c } }
    gateDone (l.foldl gateMove s1)

/-- COMMIT_GROUP; a second commit of group GATE waits for the first (R508). -/
def commitGroup (s : State) (c : Caller) (g : Nat) : State :=
  if g = 1 then commitNear s c
  else if g = 2 then commitGate s c
  else if g = 3 then commitQos s c
  else answer s c mbCOMMIT_GROUP mARGUMENT_INVALID 0 []

/-- DISCARD_GROUP sets the pending copy to the values in force. -/
def discardGroup (s : State) (c : Caller) (g : Nat) : State :=
  let op := mbDISCARD_GROUP
  if g = 1 then answerOk { s with regsPending := tdel s.regsPending aNEAR_CFG } c op []
  else if g = 2 then answerOk { s with queues := { s.queues with gatePending := [] } } c op []
  else if g = 3 then answerOk { s with regsPending := s.regsPending.filter fun e => e.1 < aAQM_PROFILE 0 } c op []
  else answer s c op mARGUMENT_INVALID 0 []

/-! ### The rows -/

/-- WRITE_REGISTER. -/
def execWriteRegister (c : Caller) (addr mask value : Nat) (s : State) : Out State Fault Refusal :=
  .next (mboxRun s c mbWRITE_REGISTER [] fun s => writeRegister s c addr mask value)

/-- READ_REGISTER. -/
def execReadRegister (c : Caller) (addr count pend : Nat) (s : State) : Out State Fault Refusal :=
  .next (mboxRun s c mbREAD_REGISTER [] fun s => readRegisters s c addr count pend)

/-- The low word of a 64-bit value is read through a mailbox: the high word of that instant goes into the mailbox's latch (R540). -/
def execCounterLowWordRead (c : Caller) (addr : Nat) (s : State) : Out State Fault Refusal :=
  .next (if isPair addr && addr % 8 = 0 then (pairWord s c.mbox addr).2 else s)

/-- COMMIT_GROUP. -/
def execCommitGroup (c : Caller) (group : Nat) (s : State) : Out State Fault Refusal :=
  .next (if group = 2 ∧ s.queues.gateCommit.isSome then s else mboxRun s c mbCOMMIT_GROUP [] fun s => commitGroup s c group)

/-- DISCARD_GROUP. -/
def execDiscardGroup (c : Caller) (group : Nat) (s : State) : Out State Fault Refusal :=
  .next (mboxRun s c mbDISCARD_GROUP [] fun s => discardGroup s c group)

/-- The governor evaluates a die (R42). -/
def execGovernorEvaluation (die : Nat) (s : State) : Out State Fault Refusal := .next (evaluateDie s die)

/-- The setpoint of a die moves one step (R42). -/
def execSetpointStep (die : Nat) (s : State) : Out State Fault Refusal := .next (stepDie s die)

/-- Held increases of a die's admitted rates take effect (R44). -/
def execAdmissionRaiseRelease (die : Nat) (s : State) : Out State Fault Refusal := .next (releaseRaises s die)

/-- A gate schedule moves on (R384, R387). -/
def execGateEntryChange (lport : Nat) (s : State) : Out State Fault Refusal := .next (gateMove s lport)

end Sys2Proof.Machine
end

