-- ==== Sys2Proof/Machine/NearRows.lean ====
section
/-! DEFINITION. The near tier's timers and commands, publish regions and restored pages (R220, R222, R223, R228, R229, R232 to R235). -/

namespace Sys2Proof.Machine

/-! ### Marks, budget, flushes -/

/-- The waiting lines of a tray page are marked (R220). -/
def execDirtyMarkSend (page : Nat) (s : State) : Out State Fault Refusal := .next (sendMark s page)

/-- A quarter's write-back (R222). -/
def execWritebackThreshold (quarter : Nat) (s : State) : Out State Fault Refusal := .next (cleanQuarter s quarter)

/-- Writes held by the budget go on below the full share (R222). -/
def execBudgetWaitRelease (quarter : Nat) (s : State) : Out State Fault Refusal :=
  .next (if dirtyAbove s quarter 100 then s else settle (rerunAll s fun w => w.why = .budget quarter))

/-- FLUSH_NEAR_TIER (R223). -/
def execFlushNearTier (c : Caller) (s : State) : Out State Fault Refusal :=
  .next (mboxRun s c mbFLUSH_NEAR_TIER [] fun s => startFlush s false (some c))

/-- A flush that has nothing left to write back ends (R223). -/
def execFlushEnd (s : State) : Out State Fault Refusal := .next (settle (endFlush (flushAdvance s)))

/-! ### Losing stacks and trays -/

/-- A stack fails (R232). -/
def execStackFailure (stack : Nat) (s : State) : Out State Fault Refusal :=
  .next (if stack < 8 then settle (flushAdvance (failStack s stack)) else s)

/-- A request waits for something of a tray: the tray itself, a fill or a mark of one of its lines. -/
def onTray (tray : Nat) (w : Waiter) : Bool :=
  match w.why with
  | .tray n => n = tray
  | .fill l => nodeOf (l * 128) = tray
  | .mark page => nodeOf (page * 65536) = tray
  | _ => false

/-- An unreachable tray answers again: the requests parked on it and the flushes go on (R233). -/
def trayBack (s : State) (tray : Nat) : State :=
  if tray ∈ s.pool.unreachable then
    let s := { s with pool := { s.pool with unreachable := s.pool.unreachable.filter (· ≠ tray) } }
    flushAdvance (if trayReachable s tray then rerunAll s (fun w => w.why = .tray tray) else s)
  else if trayReachable s tray then rerunAll s (fun w => w.why = .tray tray)
  else s

/-- A tray can be reached again (R233). -/
def execTrayReachable (tray : Nat) (s : State) : Out State Fault Refusal := .next (settle (trayBack s tray))

/-- DECLARE_TRAY_LOST: what waits on the tray is answered as lost, and its dirty lines are dropped (R234). -/
def declareLost (s : State) (c : Caller) (tray : Nat) : State :=
  let op := mbDECLARE_TRAY_LOST
  if 0x4000 ≤ tray then answer s c op mARGUMENT_INVALID 0 []
  else match tget s.map.comp.nodes tray with
    | none => answer s c op mOBJECT_NOT_FOUND 0 []
    | some e =>
      if e.kind ≠ 2 then answer s c op mOBJECT_NOT_FOUND 0 []
      else answerOk (settle (flushAdvance (rerunAll (loseTray s tray) (onTray tray)))) c op []

/-- DECLARE_TRAY_LOST (R234). -/
def execDeclareTrayLost (c : Caller) (tray : Nat) (s : State) : Out State Fault Refusal :=
  .next (mboxRun s c mbDECLARE_TRAY_LOST [] fun s => declareLost s c tray)

/-- The record of a job whose pool range is gone (R235). -/
def execPoolFatalReport (job : Nat) (s : State) : Out State Fault Refusal := .next (reportPoolFatal s job)

/-! ### Publish regions -/

/-- The span of a SPAN code. -/
def spanBytes (code : Nat) : Nat := if code = 1 then 2 ^ 30 else 2 ^ 21

/-- The byte offset of the first argument of CREATE_PUBLISH_REGION that is out of range (R229). -/
def regionBad (a : PublishArgs) : Option Nat :=
  let span := spanBytes a.span
  if 1 < a.span then some 2
  else if 8 < a.pubs.length then some 3
  else match badItem 4 2 (fun j => 65536 ≤ j) a.pubs with
    | some d => some d
    | none =>
      if a.view % span ≠ 0 ∨ 2 ^ 48 < a.view + span then some 24
      else if a.vword % 8 ≠ 0 ∨ 2 ^ 48 ≤ a.vword ∨ (a.view ≤ a.vword ∧ a.vword < a.view + span) then some 32
      else none

/-- CREATE_PUBLISH_REGION: no agent holds a line of the view when it completes (R229). -/
def createRegion (s : State) (c : Caller) (a : PublishArgs) : State :=
  let op := mbCREATE_PUBLISH_REGION
  let span := spanBytes a.span
  if !thas s.pool.jobs a.job then answer s c op mOBJECT_NOT_FOUND 0 []
  else match regionBad a with
    | some d => answer s c op mARGUMENT_INVALID d []
    | none =>
      if s.pool.regions.any fun g => g.job = a.job && overlap a.view span g.view g.span then answer s c op mOBJECT_STATE_CONFLICT 0 []
      else if 65536 ≤ s.pool.regions.length then answer s c op mRESOURCE_EXHAUSTED 2 []
      else match coveringEntry s a.job a.view (spanLevel span) with
        | none => answer s c op mOBJECT_STATE_CONFLICT 0 []
        | some (_, e) =>
          if ttKind e ≠ 1 then answer s c op mOBJECT_STATE_CONFLICT 0 []
          else
            let g : Region := { job := a.job, span := span, view := a.view, vword := a.vword, version := a.version, pubs := a.pubs }
            let probe := heldUnder s (spanLevel span) e
            startFence { s with pool := { s.pool with regions := s.pool.regions ++ [g] } } { caller := some (c, op), probe := probe }

/-- CREATE_PUBLISH_REGION (R229). -/
def execCreatePublishRegion (c : Caller) (a : PublishArgs) (s : State) : Out State Fault Refusal :=
  .next (mboxRun s c mbCREATE_PUBLISH_REGION [a.job] fun s => createRegion s c a)

/-- DELETE_PUBLISH_REGION (R229). -/
def deleteRegion (s : State) (c : Caller) (job view : Nat) : State :=
  let op := mbDELETE_PUBLISH_REGION
  if s.pool.regions.any fun g => g.job = job && g.view = view then
    answerOk { s with pool := { s.pool with regions := s.pool.regions.filter fun g => !(g.job = job && g.view = view) } } c op []
  else answer s c op mOBJECT_NOT_FOUND 0 []

/-- DELETE_PUBLISH_REGION (R229). -/
def execDeletePublishRegion (c : Caller) (job view : Nat) (s : State) : Out State Fault Refusal :=
  .next (mboxRun s c mbDELETE_PUBLISH_REGION [job] fun s => deleteRegion s c job view)

/-! ### Restored pages -/

/-- The byte offset of each image in the arguments of RESTORE_PAGES (R487). -/
def imageOffsets : Nat → List (List Byte) → List Nat
  | _, [] => []
  | off, img :: r => (off + 8) :: imageOffsets (off + 8 + ceilDiv img.length 8 * 8) r

/-- The block of the resident space that a job-virtual address names, where its leaf is COMPRESSED and this module's. -/
def compressedBlock (s : State) (job va : Nat) : Option Nat :=
  match walk s job va with
  | .leaf l e => if leafTier e = tierCOMPRESSED ∧ leafNode e = myNode s then some (offOf (leafAddr l e va) / 4096) else none
  | _ => none

/-- An image is held for a block where it fits in 24 sectors (R227), and its content stands in the block's frame (R216; log entry 15). -/
def holdImage (s : State) (x : Nat × List Byte) : State :=
  let s := putBytes s (ownAddr s (x.1 * 4096)) ((decodeImage x.2).getD (zeros 4096))
  let s := (List.range 32).foldl (fun st i => poisonLine st (lineOf (ownAddr st (x.1 * 4096)) + i) 0) s
  { s with pool := { s.pool with images := if imageSize x.2 ≤ 3072 then tset s.pool.images x.1 x.2 else tdel s.pool.images x.1 } }

/-- RESTORE_PAGES: consecutive blocks from VA, refused whole on an invalid image (R228). -/
def restorePages (s : State) (c : Caller) (job va : Nat) (images : List (List Byte)) : State :=
  let op := mbRESTORE_PAGES
  if !thas s.pool.jobs job then answer s c op mOBJECT_NOT_FOUND 0 []
  else if va % 4096 ≠ 0 ∨ 2 ^ 48 < va + 4096 * images.length then answer s c op mARGUMENT_INVALID 8 []
  else match (images.zip (imageOffsets 16 images)).find? fun x => (decodeImage x.1).isNone with
    | some x => answer s c op mMALFORMED_COMMAND x.2 []
    | none =>
      let blocks := (List.range images.length).map fun i => compressedBlock s job (va + 4096 * i)
      if blocks.any fun b => b.isNone then answer s c op mOBJECT_STATE_CONFLICT 0 []
      else answerOk (((blocks.filterMap id).zip images).foldl holdImage s) c op []

/-- RESTORE_PAGES (R228). -/
def execRestorePages (c : Caller) (job va : Nat) (images : List (List Byte)) (s : State) : Out State Fault Refusal :=
  .next (mboxRun s c mbRESTORE_PAGES [job] fun s => restorePages s c job va images)

end Sys2Proof.Machine
end

