-- ==== Sys2Proof/Machine/CarryRows.lean ====
section
/-! DEFINITION. Reduction groups: their commands, the end of a round's delivery and its timeout (R240, R243, R244, R264, R265, R358). -/

namespace Sys2Proof.Machine

/-! ### Rounds -/

/-- The completion record of a round whose results have completed leaves (R264). -/
def execRoundCompletionRecord (rid : Nat) (s : State) : Out State Fault Refusal := .next (finishRound s rid)

/-- A round that has run out of time is aborted at the root (R265). -/
def roundTimeout (s : State) (rid : Nat) : State :=
  match groupOf s rid with
  | some g => if roundOverdue s g then abortRoot s rid else s
  | none => s

/-- ROUND_TIMEOUT passes (R265). -/
def execRoundTimeout (rid : Nat) (s : State) : Out State Fault Refusal := .next (roundTimeout s rid)

/-! ### Opening -/

/-- The byte offset of the first scalar argument of OPEN_REDUCTION outside Table 9-1 (R240, R245, R358). -/
def openReductionBad (s : State) (a : OpenReductionArgs) : Option Nat :=
  let attn := a.cop = 10
  let root := a.parent = myNode s
  let span := if attn then a.qn * qstr a else a.length * resultBytes a.cop a.rfmt
  let checks : List (Bool × Nat) :=
    [(decide (2 ^ 20 ≤ a.rid), 0), (decide (a.job = 0 ∨ 65536 ≤ a.job), 4), (decide (10 < a.cop), 6), (decide (19 < a.fmt), 7), (decide (19 < a.rfmt), 8),
     (decide (1 < a.rmode), 9), (decide (1 < a.sat ∨ (attn ∧ a.sat ≠ 0)), 10), (decide (1 < a.ranked ∨ (attn ∧ a.ranked ≠ 0)), 11),
     (if attn then decide (a.fmt ≠ 10) else false, 7), (if attn then decide (a.rfmt ∉ [8, 9, 10]) else false, 8),
     (if attn then false else !comboOk a.cop a.fmt a.rfmt a.ranked, 6),
     (if attn then decide (a.qn = 0 ∨ 4 < a.qn) else decide (a.qn ≠ 0), 12),
     (decide (1 < a.dmode), 13), (decide (a.dtc ≠ 0 ∧ a.dtc ≠ 3), 14), (decide (0x4000 ≤ a.parent), 16), (decide (65536 ≤ a.round0), 18),
     (decide (root ∧ a.dmode = 0 ∧ 0x4000 ≤ a.dnode), 20), (decide (root ∧ a.dmode = 1 ∧ (a.dgroup < 0xC000 ∨ 0xD000 ≤ a.dgroup)), 22),
     (if attn then decide (a.length ∉ [64, 128, 256]) else decide (a.length = 0 ∨ 8388608 < a.length) || (isMxFmt a.fmt && decide (a.length % 32 ≠ 0)), 24),
     (decide (a.ntotal = 0 ∨ 65536 < a.ntotal ∨ (a.ranked = 1 ∧ 512 < a.ntotal)), 28), (decide (a.roundTimeout = 0 ∨ 10000 < a.roundTimeout), 32),
     (decide (root ∧ a.resBase % 128 ≠ 0), 48), (decide (root ∧ (a.cplOffset % 16 ≠ 0 ∨ a.cplOffset < span)), 56),
     (decide (a.inputs = [] ∨ 512 < a.inputs.length), 64)]
  (checks.find? (·.1)).map (·.2)

/-- What is wrong with the entry `x` of INPUTS after the entries `l`, as an offset within the entry (R240, R358). -/
def inputBad (a : OpenReductionArgs) (l : List RedInput) (x : RedInput) : Option Nat :=
  if 1 < x.kind then some 0
  else if 0x4000 ≤ x.node ∨ (x.kind = 1 ∧ l.any fun y => y.kind = 1 && y.node = x.node) then some 2
  else if a.cop = 10 ∧ l.any fun y => y.node = x.node then some 2
  else if x.kind = 1 ∨ a.cop = 10 then (if x.rank ≠ 0 then some 4 else none)
  else if a.ntotal ≤ x.rank ∨ l.any fun y => y.kind = 0 && y.rank = x.rank then some 4
  else none

/-- The byte offset of the first bad entry of INPUTS. -/
def inputsBad (a : OpenReductionArgs) : Option Nat :=
  (List.range a.inputs.length).findSome? fun i => match a.inputs[i]? with
    | some x => (inputBad a (a.inputs.take i) x).map (68 + 8 * i + ·)
    | none => none

/-- The lowest quarter without the staging records a group needs (R243). -/
def stagingShort (s : State) (a : OpenReductionArgs) : Option Nat :=
  (List.range 4).find? fun n => decide (2097152 < stagingUsed s n + groupRecords s a n)

/-- OPEN_REDUCTION: a group is installed and its staging reserved (R240, R243, R244). -/
def openReduction (s : State) (c : Caller) (a : OpenReductionArgs) : State :=
  let op := mbOPEN_REDUCTION
  match openReductionBad s a <|> inputsBad a with
  | some d => answer s c op mARGUMENT_INVALID d []
  | none =>
    if thas s.carry.groups a.rid || (match tget s.carry.closed a.rid with
        | some t => decide (s.now < t + ms 8)
        | none => false) then answer s c op mOBJECT_STATE_CONFLICT 0 []
    else if 16384 ≤ s.carry.groups.length then answer s c op mRESOURCE_EXHAUSTED 3 []
    else match stagingShort s a with
      | some q => answer s c op mSTAGING_EXHAUSTED q []
      | none => 
        let s := { s with carry := { s.carry with failed := tdel s.carry.failed a.rid } }
        answerOk (warnStaging (setGroup s a.rid { a := a, round := a.round0 })) c op []

/-- OPEN_REDUCTION (R240). -/
def execOpenReduction (c : Caller) (a : OpenReductionArgs) (s : State) : Out State Fault Refusal :=
  .next (mboxRun s c mbOPEN_REDUCTION [a.job] fun s => openReduction s c a)

/-! ### Closing, aborting, querying -/

/-- A command on an open group that the caller may act on (R244). -/
def onGroup (s : State) (c : Caller) (op rid : Nat) (f : Group → State) : State :=
  if 2 ^ 20 ≤ rid then answer s c op mARGUMENT_INVALID 0 []
  else match groupOf s rid with
    | none => answer s c op mOBJECT_NOT_FOUND 0 []
    | some g => if ownJob s c g.a.job then f g else answer s c op mJOB_NOT_PERMITTED g.a.job []

/-- A group is closed: its round is discarded and its staging free (R244). -/
def closeGroup (s : State) (rid : Nat) : State :=
  let closed := tset (s.carry.closed.filter fun e => s.now < e.2 + ms 8) rid s.now
  { s with carry := { s.carry with groups := tdel s.carry.groups rid, closed := closed } }

/-- CLOSE_REDUCTION (R244). -/
def execCloseReduction (c : Caller) (rid : Nat) (s : State) : Out State Fault Refusal :=
  .next (mboxRun s c mbCLOSE_REDUCTION [] fun s =>
    onGroup s c mbCLOSE_REDUCTION rid fun _ => answerOk (settle (closeGroup s rid)) c mbCLOSE_REDUCTION [])

/-- ABORT_REDUCTION: at the root the round is aborted at once; elsewhere ABT_UP goes to PARENT, whose acceptance completes the command (R244, R265). -/
def abortReduction (s : State) (c : Caller) (rid : Nat) (g : Group) : State :=
  if isRoot s g.a then answerOk (abortRoot s rid) c mbABORT_REDUCTION [] else askAbort s (.abortUp c) rid

/-- ABORT_REDUCTION (R244). -/
def execAbortReduction (c : Caller) (rid : Nat) (s : State) : Out State Fault Refusal :=
  .next (mboxRun s c mbABORT_REDUCTION [] fun s => onGroup s c mbABORT_REDUCTION rid fun g => abortReduction s c rid g)

/-- The slices of the current round that are complete. -/
def slicesComplete (s : State) (g : Group) : Nat := (g.slices.filter fun e => e.2.left || sliceDone s g.a e.2).length

/-- The result of QUERY_REDUCTION: ROUND, SLICES, ABORTS and the OPEN arguments without the list (Table 17-8, R487). -/
def groupBytes (s : State) (g : Group) : List Byte :=
  let a := g.a
  le 2 g.round ++ zeros 2 ++ le 4 (slicesComplete s g) ++ le 4 g.aborts ++ le 4 a.rid ++ le 2 a.job
    ++ [a.cop, a.fmt, a.rfmt, a.rmode, a.sat, a.ranked, a.qn, a.dmode, a.dtc].flatMap (le 1) ++ zeros 1
    ++ [a.parent, a.round0, a.dnode, a.dgroup].flatMap (le 2) ++ [a.length, a.ntotal, a.roundTimeout].flatMap (le 4)
    ++ [a.dcap, a.resBase, a.cplOffset].flatMap (le 8) ++ le 2 a.inputs.length

/-- QUERY_REDUCTION (R244). -/
def execQueryReduction (c : Caller) (rid : Nat) (s : State) : Out State Fault Refusal :=
  .next (mboxRun s c mbQUERY_REDUCTION [] fun s =>
    onGroup s c mbQUERY_REDUCTION rid fun g => answerOk s c mbQUERY_REDUCTION (groupBytes s g))

end Sys2Proof.Machine
end

