-- ==== Sys2Proof/Machine/SieveRows.lean ====
section
/-! DEFINITION. Sieve requests in progress and the program slots (R272, R281, R293 to R295). -/

namespace Sys2Proof.Machine

/-- A chunk of a request starts, or goes on where it was held (R272). -/
def execSieveChunkStart (src msg : Nat) (s : State) : Out State Fault Refusal := .next (settle (startChunk s (src, msg)))

/-- A request that has ended is answered (R281). -/
def execSieveRequestEnd (src msg : Nat) (s : State) : Out State Fault Refusal := .next (settle (endSieve s (src, msg)))

/-! ### Loading a program -/

/-- LOAD_SIEVE_PROGRAM (R294). -/
def loadProgram (s : State) (c : Caller) (slot last owner partno : Nat) (instrs : List Nat) : State :=
  let op := mbLOAD_SIEVE_PROGRAM
  if 64 ≤ slot then answer s c op mARGUMENT_INVALID 0 []
  else if 1 < last then answer s c op mARGUMENT_INVALID 1 []
  else if instrs = [] ∨ 24 < instrs.length then answer s c op mARGUMENT_INVALID 2 []
  else if 65536 ≤ owner then answer s c op mARGUMENT_INVALID 4 []
  else loadPart s c slot (decide (last = 1)) owner partno instrs

/-- LOAD_SIEVE_PROGRAM (R294). -/
def execLoadSieveProgram (c : Caller) (slot last owner partno : Nat) (instrs : List Nat) (s : State) : Out State Fault Refusal :=
  .next (mboxRun s c mbLOAD_SIEVE_PROGRAM [owner] fun s => loadProgram s c slot last owner partno instrs)

/-! ### Unloading, querying, timing out -/

/-- UNLOAD_SIEVE_PROGRAM (R295): LOADED becomes UNLOADING while requests use the slot. -/
def unloadProgram (s : State) (c : Caller) (slot : Nat) : State :=
  let op := mbUNLOAD_SIEVE_PROGRAM
  let x := progSlot s slot
  if 64 ≤ slot then answer s c op mARGUMENT_INVALID 0 []
  else if x.state ≠ .free && !ownJob s c x.owner then answer s c op mJOB_NOT_PERMITTED x.owner []
  else unloadSlot s c slot

/-- UNLOAD_SIEVE_PROGRAM (R295). -/
def execUnloadSieveProgram (c : Caller) (slot : Nat) (s : State) : Out State Fault Refusal :=
  .next (mboxRun s c mbUNLOAD_SIEVE_PROGRAM [] fun s => unloadProgram s c slot)

/-- The result of QUERY_SIEVE_PROGRAM (Table 17-8). -/
def slotBytes (x : ProgSlot) : List Byte :=
  le 1 (slotCode x.state) ++ zeros 1 ++ le 2 x.owner ++ le 2 x.code.length ++ zeros 2 ++ le 8 x.requests ++ padTo 64 x.digest

/-- QUERY_SIEVE_PROGRAM: a host sees its own jobs' slots and those of job 0 (R295). -/
def queryProgram (s : State) (c : Caller) (slot : Nat) : State :=
  let op := mbQUERY_SIEVE_PROGRAM
  let x := progSlot s slot
  if 64 ≤ slot then answer s c op mARGUMENT_INVALID 0 []
  else if x.owner ≠ 0 && !ownJob s c x.owner then answer s c op mJOB_NOT_PERMITTED x.owner []
  else answerOk s c op (slotBytes x)

/-- QUERY_SIEVE_PROGRAM (R295). -/
def execQuerySieveProgram (c : Caller) (slot : Nat) (s : State) : Out State Fault Refusal :=
  .next (mboxRun s c mbQUERY_SIEVE_PROGRAM [] fun s => queryProgram s c slot)

/-- A slot left in LOADING for 1 s without a part is FREE again (R293). -/
def execSlotLoadTimeout (slot : Nat) (s : State) : Out State Fault Refusal :=
  .next (if (progSlot s slot).state = .loading && due s (progSlot s slot).lastPart (ms 1000) then freeProg s slot else s)

end Sys2Proof.Machine
end

