-- ==== Sys2Proof/Machine/MoverRows.lean ====
section
/-! DEFINITION. The movers' engines and the channel commands (R307, R313 to R315, R323, R331). -/

namespace Sys2Proof.Machine

/-- An engine whose spare is being switched in runs nothing (R452). -/
def engineRuns (s : State) (e : Nat) : Bool := decide (e < 32) && !switchingUnit s .mover e

/-- An engine takes the next ready channel (R313, R323). -/
def execDescriptorStart (engine : Nat) (s : State) : Out State Fault Refusal :=
  .next (if engineRuns s engine then settle (engineStart s engine) else s)

/-- One unit of a walk (R314). -/
def execMoverUnit (ch : Nat) (s : State) : Out State Fault Refusal :=
  .next (if engineRuns s (ch / 4) then settle (moverUnit s ch) else s)

/-- A step boundary (R315). -/
def execMoverStepBoundary (ch : Nat) (s : State) : Out State Fault Refusal :=
  .next (if engineRuns s (ch / 4) then settle (stepBoundary s ch) else s)

/-- The writes of a descriptor's end (R331). -/
def execDescriptorEnd (ch : Nat) (s : State) : Out State Fault Refusal :=
  .next (if engineRuns s (ch / 4) then settle (descriptorEnd s ch) else s)

/-! ### Commands -/

/-- OPEN_MOVER_CHANNEL (R307). -/
def openChannel (s : State) (c : Caller) (ch ringLog2 prio job base : Nat) : State :=
  let op := mbOPEN_MOVER_CHANNEL
  if 128 ≤ ch then answer s c op mARGUMENT_INVALID 0 []
  else if ringLog2 < 4 ∨ 16 < ringLog2 then answer s c op mARGUMENT_INVALID 1 []
  else if 3 < prio then answer s c op mARGUMENT_INVALID 2 []
  else if base % (64 * 2 ^ ringLog2) ≠ 0 ∨ 2 ^ 48 < base + 64 * 2 ^ ringLog2 then answer s c op mARGUMENT_INVALID 8 []
  else if !thas s.pool.jobs job then answer s c op mOBJECT_NOT_FOUND 0 []
  else if (chan s ch).state ≠ .closed then answer s c op mOBJECT_STATE_CONFLICT 0 []
  else answerOk (setChan s ch { state := .idle, prio := prio, job := job, ringBase := base, ringLog2 := ringLog2, record := (chan s ch).record }) c op []

/-- OPEN_MOVER_CHANNEL (R307). -/
def execOpenMoverChannel (c : Caller) (ch ringLog2 prio job ringBase : Nat) (s : State) : Out State Fault Refusal :=
  .next (mboxRun s c mbOPEN_MOVER_CHANNEL [job] fun s => openChannel s c ch ringLog2 prio job ringBase)

/-- A command on a channel of the caller's jobs (R307). -/
def onChannel (s : State) (c : Caller) (op ch : Nat) (f : Channel → State) : State :=
  if 128 ≤ ch then answer s c op mARGUMENT_INVALID 0 []
  else if (chan s ch).state ≠ .closed && !ownJob s c (chan s ch).job then answer s c op mJOB_NOT_PERMITTED (chan s ch).job []
  else f (chan s ch)

/-- CLOSE_MOVER_CHANNEL: completes when the channel is CLOSED (R307). -/
def closeCommand (s : State) (c : Caller) (ch : Nat) (x : Channel) : State :=
  if x.state = .closed || x.closing then answer s c mbCLOSE_MOVER_CHANNEL mOBJECT_STATE_CONFLICT 0 []
  else settle (askClose s ch kSUCCESS (some c))

/-- CLOSE_MOVER_CHANNEL (R307). -/
def execCloseMoverChannel (c : Caller) (ch : Nat) (s : State) : Out State Fault Refusal :=
  .next (mboxRun s c mbCLOSE_MOVER_CHANNEL [] fun s => onChannel s c mbCLOSE_MOVER_CHANNEL ch fun x => closeCommand s c ch x)

/-- SET_MOVER_PRIORITY: it acts at the engine's next step boundary, at once where the engine runs nothing (R307). -/
def setPriority (s : State) (c : Caller) (ch prio : Nat) (x : Channel) : State :=
  let op := mbSET_MOVER_PRIORITY
  if 3 < prio then answer s c op mARGUMENT_INVALID 1 []
  else if x.state = .closed then answer s c op mOBJECT_STATE_CONFLICT 0 []
  else if (runningOn s (ch / 4)).isSome then answerOk (setChan s ch { x with newPrio := some prio }) c op []
  else answerOk (setChan s ch { x with prio := prio, newPrio := none }) c op []

/-- SET_MOVER_PRIORITY (R307). -/
def execSetMoverPriority (c : Caller) (ch prio : Nat) (s : State) : Out State Fault Refusal :=
  .next (mboxRun s c mbSET_MOVER_PRIORITY [] fun s => onChannel s c mbSET_MOVER_PRIORITY ch fun x => setPriority s c ch prio x)

/-- The result of QUERY_MOVER_CHANNEL (Table 17-8). -/
def channelBytes (x : Channel) : List Byte :=
  le 1 (chCode x.state) ++ le 1 x.prio ++ le 2 x.job ++ le 2 x.head ++ le 2 x.tail ++ le 8 x.pos ++ padTo 32 x.record

/-- QUERY_MOVER_CHANNEL (R307). -/
def execQueryMoverChannel (c : Caller) (ch : Nat) (s : State) : Out State Fault Refusal :=
  .next (mboxRun s c mbQUERY_MOVER_CHANNEL [] fun s =>
    onChannel s c mbQUERY_MOVER_CHANNEL ch fun x => answerOk s c mbQUERY_MOVER_CHANNEL (channelBytes x))

end Sys2Proof.Machine
end

