-- ==== Sys2Proof/Machine/BeadRows.lean ====
section
/-! DEFINITION. The beads' commit points, the end of their commands, mode changes, and the channel commands (R339, R340, R342, R343, R350). -/

namespace Sys2Proof.Machine

/-- Waiting for a channel's commit point, and for its bead queue. -/
def onBank (ch : Nat) (w : Waiter) : Bool := w.why = .bank ch
def onBeadQueue (ch : Nat) (w : Waiter) : Bool := w.why = .bead ch

/-- A bead reaches a commit point: its unit takes effect, waiting accesses are served, and beads with work go on (R342, R344). -/
def commitPoint (s : State) (ch pair : Nat) : State :=
  if (beadCh s ch).active.contains pair then settle (startBeads (rerunAll (commitUnit s ch pair) (onBank ch)) ch) else s

/-- A commit point (R342). -/
def execBeadCommitPoint (ch pair : Nat) (s : State) : Out State Fault Refusal := .next (commitPoint s ch pair)

/-- A command of a channel ends, and held commands join the queue (R348, R350). -/
def execBeadCommandEnd (ch : Nat) (s : State) : Out State Fault Refusal :=
  .next (settle (rerunAll (endBeadCmd s ch) (onBeadQueue ch)))

/-- A mode change takes effect (R343). -/
def execModeChangeEffect (ch : Nat) (s : State) : Out State Fault Refusal :=
  .next (settle (rerunAll (modeEffect s ch) (onBank ch)))

/-- Beads of a stack that have a unit in progress. -/
def stackWorks (s : State) (stack : Nat) : Bool := s.bead.channels.any fun e => decide (e.1 / 16 = stack) && e.2.active ≠ []

/-- A power window of a stack: how long steps were held back is a free value of at most the window (R339; log entry 3). -/
def powerWindow (s : State) (stack : Nat) : State :=
  if 8 ≤ stack || !stackWorks s stack then s
  else
    let (v, s) := drawFree s
    let n := v % 10001
    let s := bumpBy s (cBEAD_THROTTLE_NS (stack / 2)) n
    if n = 0 then s else setEvt s aBEAD_CFG 16

/-- A power window ends (R339). -/
def execBeadPowerWindow (stack : Nat) (s : State) : Out State Fault Refusal := .next (powerWindow s stack)

/-! ### Commands -/

/-- ASSIGN_BEAD_CHANNEL (R340). -/
def assignChannel (s : State) (c : Caller) (ch job : Nat) : State :=
  let op := mbASSIGN_BEAD_CHANNEL
  let x := beadCh s ch
  if 128 ≤ ch then answer s c op mARGUMENT_INVALID 0 []
  else if !thas s.pool.jobs job then answer s c op mOBJECT_NOT_FOUND 0 []
  else if !((residentChannels s).contains ch) || x.mode ≠ .memory || x.owner.isSome || s.pool.stacksLost.contains (ch / 16) then
    answer s c op mOBJECT_STATE_CONFLICT 0 []
  else answerOk (setBead s ch { x with owner := some job, saved := .memory, shedHeld := 1 ≤ level s }) c op []

/-- ASSIGN_BEAD_CHANNEL (R340). -/
def execAssignBeadChannel (c : Caller) (ch job : Nat) (s : State) : Out State Fault Refusal :=
  .next (mboxRun s c mbASSIGN_BEAD_CHANNEL [job] fun s => assignChannel s c ch job)

/-- A host acts only on the channels of its own jobs (R340). -/
def ownChannel (s : State) (c : Caller) (ch : Nat) : Bool :=
  match (beadCh s ch).owner with
  | some j => ownJob s c j
  | none => decide (callerClass c ≠ .host)

/-- RELEASE_BEAD_CHANNEL (R340). -/
def releaseChannel (s : State) (c : Caller) (ch : Nat) : State :=
  let op := mbRELEASE_BEAD_CHANNEL
  if 128 ≤ ch then answer s c op mARGUMENT_INVALID 0 []
  else if !ownChannel s c ch then answer s c op mJOB_NOT_PERMITTED ((beadCh s ch).owner.getD 0) []
  else if (beadCh s ch).owner.isNone then answer s c op mOBJECT_STATE_CONFLICT 0 []
  else answerOk (settle (stopBead s ch kACCESS_DENIED true)) c op []

/-- RELEASE_BEAD_CHANNEL (R340). -/
def execReleaseBeadChannel (c : Caller) (ch : Nat) (s : State) : Out State Fault Refusal :=
  .next (mboxRun s c mbRELEASE_BEAD_CHANNEL [] fun s => releaseChannel s c ch)

/-- The result of QUERY_BEAD_CHANNEL (Table 17-8). -/
def beadChannelBytes (s : State) (ch : Nat) : List Byte :=
  let x := beadCh s ch
  le 1 (modeCode x.mode) ++ zeros 1 ++ le 2 (x.owner.getD 0) ++ le 2 x.queue.length ++ zeros 2 ++ le 4 (readyBits s ch) ++ zeros 4 ++ le 8 x.cmds

/-- QUERY_BEAD_CHANNEL (R340). -/
def queryChannel (s : State) (c : Caller) (ch : Nat) : State :=
  let op := mbQUERY_BEAD_CHANNEL
  if 128 ≤ ch then answer s c op mARGUMENT_INVALID 0 []
  else if !ownChannel s c ch then answer s c op mJOB_NOT_PERMITTED ((beadCh s ch).owner.getD 0) []
  else answerOk s c op (beadChannelBytes s ch)

/-- QUERY_BEAD_CHANNEL (R340). -/
def execQueryBeadChannel (c : Caller) (ch : Nat) (s : State) : Out State Fault Refusal :=
  .next (mboxRun s c mbQUERY_BEAD_CHANNEL [] fun s => queryChannel s c ch)

end Sys2Proof.Machine
end

