-- ==== Sys2Proof/Machine/LinkRows.lean ====
section
/-! DEFINITION. The rows of lanes and links (chapter 03), of the output queues' ports (chapter 13) and the lane and port commands of a mailbox. -/

namespace Sys2Proof.Machine

/-! ### Ports -/

/-- The LPORT_ENABLE bit of a port written. -/
def setEnable (s : State) (q : Nat) (on : Bool) : State :=
  let a := aPORT_CFG (nativeOf q)
  let w : Word := BitVec.ofNat 32 (setBits (regWord s a).toNat (4 + q % 8) 1 (flag on))
  if w = regWord s a then s else planChanged (setRegWord (keepCfg s (nativeOf q) (regWord s a)) a w)

/-- A port's LPORT_ENABLE bit is set: it leaves DISABLED (R56). -/
def execPortEnable (lport : Nat) (s : State) : Out State Fault Refusal :=
  .next (if isLport s lport then cfgWritten (setEnable s lport true) (nativeOf lport) else s)

/-- A port's LPORT_ENABLE bit is cleared: its orderly disable starts at its next packet boundary (R79). -/
def execPortDisable (lport : Nat) (s : State) : Out State Fault Refusal :=
  .next (if isLport s lport then cfgWritten (setEnable s lport false) (nativeOf lport) else s)

/-- The drain of an orderly disable ends (R79). -/
def execDisableDrainEnd (lport : Nat) (s : State) : Out State Fault Refusal := .next (settle (disableEnd s lport))

/-- The next waiting port or lane is granted a training start (R57). -/
def execTrainingStartGrant (s : State) : Out State Fault Refusal := .next (grantStart s)

/-- A lane's receiver is ready (R56). -/
def execLaneReceiverReady (lane : Nat) (precode : Bool) (s : State) : Out State Fault Refusal := .next (receiverReady s lane precode)

/-- Training has lasted 500 ms (R56, R57). -/
def execTrainingTimeout (lport : Nat) (s : State) : Out State Fault Refusal := .next (settle (trainingTimeout s lport))

/-- A lane has codeword lock and flit lock (R56). -/
def execFlitLockAchieved (lane : Nat) (s : State) : Out State Fault Refusal := .next (flitLock s lane)

/-- A lane sends its HELLO (R58). -/
def execHelloSend (lane : Nat) (s : State) : Out State Fault Refusal := .next (sendHello s lane)

/-- A HELLO arrives on a lane (R58, R67). -/
def execHelloReceive (lane : Nat) (h : Hello) (s : State) : Out State Fault Refusal := .next (settle (takeHello s lane h))

/-- HELLO has lasted 10 ms (R58). -/
def execHelloTimeout (lport : Nat) (s : State) : Out State Fault Refusal := .next (settle (helloTimeout s lport))

/-- The back-off after DOWN ends (R78). -/
def execDownBackoffExpiry (lport : Nat) (s : State) : Out State Fault Refusal := .next (backoffOver s lport)

/-- A port has been UP for 60 s (R78). -/
def execBackoffReset (lport : Nat) (s : State) : Out State Fault Refusal :=
  .next (if isUp s lport ∧ due s (Machine.lport s lport).since (ms 60000) then modLport s lport fun p => { p with backoff := 1 } else s)

/-! ### Flits -/

/-- A flit slot of a lane (R60 to R70). -/
def execFlitTransmit (lane : Nat) (s : State) : Out State Fault Refusal := .next (transmitFlit s lane)

/-- A flit arrives on a lane (R61 to R70). -/
def execFlitReceive (lane : Nat) (f : Flit) (drained : Nat) (s : State) : Out State Fault Refusal := .next (settle (receiveFlit s lane f drained))

/-- A missing LSEQ has not come within 256 ns (R69). -/
def execMissingLseqTimeout (lport : Nat) (s : State) : Out State Fault Refusal := .next (missingLseq s lport)

/-- LACK has not moved for 10 µs (R70). -/
def execReplayTimeout (lport : Nat) (s : State) : Out State Fault Refusal := .next (settle (replayTimeout s lport))

/-! ### Lane retirement and link failure -/

/-- A lane loses its signal, codeword lock or flit lock: an active lane is retired, and a lane still locking or in HELLO has not agreed (R58, R72). -/
def lockLost (s : State) (l : Nat) : State :=
  let q := lportOfLane s l
  if isUp s q ∧ (lane s l).active then retireLanes s q (2 ^ (l - q)) 1
  else if isUp s q then
    (if (lane s l).retrain = .idle ∨ (lane s l).retrain = .waiting then s else modLport (setLane s l { lane s l with retrain := .idle, reason := 1 }) q fun p => { p with reason := 1 })
  else setLane s l { lane s l with locked := false, hello := none }

/-- A lane loses lock (R72). -/
def execLaneLockLoss (lane : Nat) (s : State) : Out State Fault Refusal := .next (settle (lockLost s lane))

/-- A lane has had four uncorrectable codewords within 1 s (R72). -/
def execLaneUncorrectableLimit (lane : Nat) (s : State) : Out State Fault Refusal :=
  let q := lportOfLane s lane
  let n := ((Machine.lane s lane).uncorr.filter fun t => s.now < t + ms 1000).length
  .next (if 4 ≤ n then settle (retireLanes s q (2 ^ (lane - q)) 2) else s)

/-- The corrected symbols of a lane over a window of 100 ms (R61, R72); while a drill injects errors on the lane they count toward no threshold (R472). -/
def symbolWindow (s : State) (l corrected symbols : Nat) : State :=
  let q := lportOfLane s l
  let s := bumpBy s (cLANE_FEC_CORR l) corrected
  if injectedLane s l then s
  else
    let limit := portCfg s q 16 8
    if limit ≠ 0 ∧ limit * symbols < corrected * 30000 then retireLanes s q (2 ^ (l - q)) 3 else s

/-- A symbol-error window ends (R72). -/
def execSymbolErrorWindow (lane corrected symbols : Nat) (s : State) : Out State Fault Refusal := .next (settle (symbolWindow s lane corrected symbols))

/-- The partner's LANE_RETIRE arrives (R73). -/
def execLaneRetire (lport mask : Nat) (s : State) : Out State Fault Refusal := .next (settle (partnerRetire s lport mask))

/-- The partner's LANE_ADD arrives (R75). -/
def execLaneAdd (lport mask : Nat) (s : State) : Out State Fault Refusal := .next (settle (partnerAdd s lport mask))

/-- The partner's LINK_DOWN arrives (R76). -/
def execLinkDownCtl (lport reason : Nat) (s : State) : Out State Fault Refusal :=
  .next (if isUp s lport ∧ reason < 256 then settle (goDown s lport 4) else s)

/-- The partner's DEPARTING arrives (R76, R448). -/
def execDeparting (lport : Nat) (s : State) : Out State Fault Refusal := .next (if isUp s lport then settle (goDown s lport 5) else s)

/-! ### Mailbox commands -/

/-- RETIRE_LANE: the lane leaves service with reason COMMANDED (R72); one that is not active is marked so and takes no part in the training in progress or to come. -/
def commandRetire (s : State) (c : Caller) (l : Nat) : State :=
  let op := mbRETIRE_LANE
  let q := lportOfLane s l
  if 512 ≤ l then answer s c op mARGUMENT_INVALID 0 []
  else if (lane s l).retired then answer s c op mOBJECT_STATE_CONFLICT 0 []
  else if isUp s q ∧ (lane s l).active then answerOk (settle (retireLanes s q (2 ^ (l - q)) 6)) c op []
  else answerOk (settle (portAdvance (dropLanes s q [l] 6) q)) c op []

/-- RETIRE_LANE. -/
def execRetireLane (c : Caller) (lane : Nat) (s : State) : Out State Fault Refusal :=
  .next (mboxRun s c mbRETIRE_LANE [] fun s => commandRetire s c lane)

/-- RETRAIN_LANE (R75). -/
def commandRetrain (s : State) (c : Caller) (l : Nat) : State :=
  let op := mbRETRAIN_LANE
  if 512 ≤ l then answer s c op mARGUMENT_INVALID 0 []
  else if (lane s l).retired ∧ (lane s l).retrain = .idle then answerOk (retrainLane s l) c op []
  else answer s c op mOBJECT_STATE_CONFLICT 0 []

/-- RETRAIN_LANE. -/
def execRetrainLane (c : Caller) (lane : Nat) (s : State) : Out State Fault Refusal :=
  .next (mboxRun s c mbRETRAIN_LANE [] fun s => commandRetrain s c lane)

/-- RELEASE_FLAP_HOLD: a HELD port goes to WAIT_ADMIT (R78). -/
def commandRelease (s : State) (c : Caller) (q : Nat) : State :=
  let op := mbRELEASE_FLAP_HOLD
  if 512 ≤ q then answer s c op mARGUMENT_INVALID 0 []
  else if !isLport s q then answer s c op mOBJECT_NOT_FOUND 0 []
  else if (lport s q).state = .held then answerOk (releaseHold s q) c op []
  else answer s c op mOBJECT_STATE_CONFLICT 0 []

/-- RELEASE_FLAP_HOLD. -/
def execReleaseFlapHold (c : Caller) (lport : Nat) (s : State) : Out State Fault Refusal :=
  .next (mboxRun s c mbRELEASE_FLAP_HOLD [] fun s => commandRelease s c lport)

/-! ### Queues -/

/-- A port chooses at a packet boundary (R379). -/
def execPacketTransmitSelect (lport : Nat) (s : State) : Out State Fault Refusal := .next (transmitSelect (releaseOwn s) lport)

/-- Packets have been in the switch for 1 ms: those of an output queue, or, for 0x3FF, those that the resequencers of a quarter hold (R99, R113). -/
def execResidenceLimit (lport queue : Nat) (s : State) : Out State Fault Refusal :=
  .next (if lport = selfPort then expireHeld s queue else if queue < 16 then expireQueue (expireChosen s lport (16 * lport + queue)) lport (16 * lport + queue) else s)

/-- A resequencer context that holds nothing has had no traffic for 100 µs (R112). -/
def execReseqContextIdle (quarter src dst flow : Nat) (s : State) : Out State Fault Refusal :=
  let k := (quarter, src, dst, flow)
  .next (match tget s.net.reseq k with
    | some x => if x.held = [] && due s x.lastAt (us 100) then { s with net := { s.net with reseq := tdel s.net.reseq k } } else s
    | none => s)

end Sys2Proof.Machine
end

