-- ==== Sys2Proof/Machine/QueueRows.lean ====
section
/-! DEFINITION. Gate schedules and mirror sessions as commands set them, reading and exporting the tally ring, and the time counter's discipline (R384 to R394). -/

namespace Sys2Proof.Machine

/-! ### Gate schedules (R384, R387) -/

/-- The schedule that the bytes of Table 13-3 hold. -/
def parseGate (b : List Byte) : Gate :=
  { base := field b 0 8, entries := (List.range (field b 8 8)).map fun i => (field b (16 + 8 * i) 4, field b (20 + 8 * i) 2) }

/-- A schedule is laid out as Table 13-3 gives: its length is that of its entries and its reserved bits are zero. -/
def gateWell (b : List Byte) : Bool :=
  decide (16 ≤ b.length ∧ field b 8 8 ≤ 64 ∧ b.length = 16 + 8 * field b 8 8)
    && (List.range (field b 8 8)).all fun i => field b (22 + 8 * i) 2 = 0

/-- SET_GATE_SCHEDULE writes a port's schedule into the pending copy of group GATE (R387). -/
def setGate (s : State) (c : Caller) (q : Nat) (b : List Byte) : State :=
  let op := mbSET_GATE_SCHEDULE
  if 512 ≤ q then answer s c op mARGUMENT_INVALID 0 []
  else if !isLport s q then answer s c op mOBJECT_NOT_FOUND 0 []
  else if !gateWell b then answer s c op mMALFORMED_COMMAND 8 []
  else answerOk { s with queues := { s.queues with gatePending := tset s.queues.gatePending q (parseGate b) } } c op []

/-- SET_GATE_SCHEDULE (R387). -/
def execSetGateSchedule (c : Caller) (lport : Nat) (sched : List Byte) (s : State) : Out State Fault Refusal :=
  .next (mboxRun s c mbSET_GATE_SCHEDULE [] fun s => setGate s c lport sched)

/-! ### The tally ring (R391 to R394) -/

/-- The first argument of a mirror session that is out of range, by its offset (Table 13-4). -/
def sessionBad (a : TallySessionArgs) : Option Nat :=
  if 16 ≤ a.session then some 0
  else if 1 < a.enable then some 1
  else if 20 < a.shift then some 2
  else if !bit a.anyMask 0 && decide (512 ≤ a.lport) then some 8
  else none

/-- SET_TALLY_SESSION (R391). -/
def setSession (s : State) (c : Caller) (a : TallySessionArgs) : State :=
  let op := mbSET_TALLY_SESSION
  match sessionBad a with
  | some d => answer s c op mARGUMENT_INVALID d []
  | none =>
    if 32 ≤ a.anyMask then answer s c op mMALFORMED_COMMAND 5 []
    else answerOk { s with queues := { s.queues with sessions := tset s.queues.sessions a.session a } } c op []

/-- SET_TALLY_SESSION (R391). -/
def execSetTallySession (c : Caller) (a : TallySessionArgs) (s : State) : Out State Fault Refusal :=
  .next (mboxRun s c mbSET_TALLY_SESSION [] fun s => setSession s c a)

/-- The records of a ring not yet consumed, oldest first. -/
def unreadRecords (s : State) (n : Nat) : List (List Byte) :=
  let t := tally s n
  t.ring.drop (t.ring.length - tallyUnread s n)

/-- Records of a ring are consumed. -/
def consumeTally (s : State) (n k : Nat) : State :=
  setRegWord s (aTALLY_TAIL n) (regWord s (aTALLY_TAIL n) + BitVec.ofNat 32 k)

/-- READ_TALLY returns the oldest records not consumed and consumes them; it needs EXPORT 0 and the quarter's UCIe module (R25, R394). -/
def readTally (s : State) (c : Caller) (n m : Nat) : State :=
  let op := mbREAD_TALLY
  if 4 ≤ n then answer s c op mARGUMENT_INVALID 0 []
  else if regField s (aTALLY_CFG n) 9 1 = 1 || !ucieUp s n then answer s c op mOBJECT_STATE_CONFLICT 0 []
  else
    let l := (unreadRecords s n).take m
    answerOk (consumeTally s n l.length) c op (recordList l)

/-- READ_TALLY (R394). -/
def execReadTally (c : Caller) (quarter max : Nat) (s : State) : Out State Fault Refusal :=
  .next (mboxRun s c mbREAD_TALLY [] fun s => readTally s c quarter max)

/-- A quarter's ring may be exported: EXPORT is 1 and the mirror port is UP with role MIRROR (R394). -/
def exports (s : State) (n : Nat) : Bool :=
  let q := regField s (aTALLY_CFG n) 10 9
  decide (n < 4) && regField s (aTALLY_CFG n) 9 1 = 1 && isUp s q && roleOf s q = roleMIRROR && decide (unreadRecords s n ≠ [])

/-- The MIRROR packet of some records (Table 13-6). -/
def mirrorPacket (s : State) (n : Nat) (l : List (List Byte)) : Packet :=
  { tc := 7, op := opMIRROR, dst := regField s (aTALLY_DST n) 0 16, msg := (tally s n).mirrorMsg
    oparg := n + 4 * flag (rec128 s n), addr := field (l.headD []) 8 4, payload := l.flatten }

/-- One MIRROR packet leaves, and its records are consumed (R394). -/
def exportTally (s : State) (n : Nat) : State :=
  let l := (unreadRecords s n).take (if rec128 s n then 32 else 64)
  let p := mirrorPacket s n l
  let s := setTally s n { tally s n with mirrorMsg := ((tally s n).mirrorMsg + 1) % 2 ^ 24 }
  sendOn (bump (consumeTally s n l.length) (cMIRROR_SENT n)) (regField s (aTALLY_CFG n) 10 9) p

/-- Hardware sends ring records as MIRROR packets (R394). -/
def execTallyExport (quarter : Nat) (s : State) : Out State Fault Refusal :=
  .next (if exports s quarter then exportTally s quarter else s)

/-! ### The time counter (R389) -/

/-- The time counter stepped by an offset from the grandmaster. -/
def stepClock (c : Clock) (offset : Int) : Clock :=
  { c with counter := ((c.counter : Int) - offset).toNat % 2 ^ 64, locked := true, offset := offset, slew := 0, slewTick := 0 }

/-- What a valid message does: the first one steps the counter and locks it; later ones slew it, or step it forward when it is more than 1 s behind. -/
def discipline (s : State) (offset : Int) : State :=
  if !s.clock.locked || decide (offset < -1000000000) then
    let s1 : State := { s with clock := stepClock s.clock offset }
    if offset < 0 then setEvt s1 aTIME_STATUS 1 else s1
  else { s with clock := { s.clock with offset := offset, slew := -offset } }

/-- An IEEE 1588 message (R389). The management Ethernet carries it only from phase ROM on (R501). -/
def execPtpMessage (m : PtpMessage) (s : State) : Out State Fault Refusal :=
  .next (if m.valid && decide (2 ≤ s.supply.phase) then discipline s m.offset else s)

end Sys2Proof.Machine
end

