-- ==== Sys2Proof/Machine/TenantRows.lean ====
section
/-! DEFINITION. Tenants, key slots, grants, attestation reports and the removal of a tenant (R405, R413 to R426). -/

namespace Sys2Proof.Machine

/-- The state with a key slot replaced. -/
def setKeySlot (s : State) (i : Nat) (k : KeySlot) : State := { s with ten := { s.ten with slots := tset s.ten.slots i k } }

/-- A change to a key slot. -/
def modKeySlot (s : State) (i : Nat) (f : KeySlot → KeySlot) : State := setKeySlot s i (f (keySlot s i))

/-! ### Attestation (R405, R414 to R416) -/

/-- The fuse state as a word of Table 14-3. -/
def fuseState : Nat := flag Config.ownerSigReq + 2 * flag Config.debugEnabled

/-- The seeds of the attestation key under the running image (R405). -/
def attestSeeds (s : State) : List Byte :=
  shake256 (Config.identitySeeds ++ Config.romDigest ++ padTo 64 s.rkn.running.digest ++ le 4 fuseState) 96

/-- Derivation of the attestation key begins: no report is served until it ends (R405). -/
def startAttestKey (s : State) : State :=
  { s with ten := { s.ten with akReady := false, akStart := some s.now, akSeeds := attestSeeds s } }

/-- The attestation key is certified (R405). -/
def execAkCertified (s : State) : Out State Fault Refusal :=
  .next (if s.ten.akStart.isSome then { s with ten := { s.ten with akReady := true, akStart := none } } else s)

/-- The nominal time in ms until AK_READY, which a busy answer gives (R405, Table 17-7). -/
def akWait (s : State) : Nat :=
  match s.ten.akStart with
  | some t => max 1 (1100 - (s.now - t) / ms 1)
  | none => 1100

/-- A port's entry of the report (Table 14-4). -/
def portEntry (s : State) (q : Nat) : List Byte :=
  let js := sortAsc (portJobs s q)
  let b := le 2 q ++ le 1 (roleOf s q) ++ le 1 js.length ++ js.flatMap (le 2)
  padTo (ceilDiv b.length 8 * 8) b

/-- The code of a slot's state (Table 14-2). -/
def keyStateCode (k : KeyState) : Nat :=
  match k with
  | .free => 0
  | .allocated => 1
  | .active => 2
  | .draining => 3

/-- A slot holds a grant in force. -/
def granted (k : KeySlot) : Bool := decide (k.grantBody ≠ [])

/-- A slot's entry of the report (Table 14-4). -/
def slotEntry (s : State) (i : Nat) : List Byte :=
  let k := keySlot s i
  let held := k.state = .active || k.state = .draining
  le 2 i ++ le 2 k.tenant ++ le 1 (keyStateCode k.state) ++ le 1 (flag k.pin.isSome) ++ zeros 2 ++ le 8 k.gseq ++ le 4 k.jobsetEpoch
    ++ le 4 k.leafRefs ++ (if held then padTo 64 k.gkeyDigest else zeros 64)
    ++ (if held && granted k then shake256 k.grantBody 64 else zeros 64) ++ zeros 8

/-- A program slot's entry of the report (Table 14-4). -/
def sieveEntry (s : State) (i : Nat) : List Byte :=
  let x := progSlot s i
  le 1 i ++ zeros 1 ++ le 2 x.owner ++ le 2 x.code.length ++ zeros 2 ++ padTo 64 x.digest

/-- The bead parameter table as bytes, in table order (R353). -/
def beadTable : List Byte := (exp2Table ++ exp2C).flatMap (le 4)

/-- The port, slot and sieve sections of a report (R415). -/
def reportPorts (s : State) : List Byte := (lports s).flatMap (portEntry s)
def reportSlots (s : State) : List Byte := ((List.range 1024).filter fun i => (keySlot s i).state ≠ .free).flatMap (slotEntry s)
def reportSieve (s : State) : List Byte := ((List.range 64).filter fun i => (progSlot s i).state = .loaded).flatMap (sieveEntry s)

/-- The certificates of a report (R414). -/
def reportChain (s : State) : List Byte := Config.attestCert (Config.slhPublic true s.ten.akSeeds) ++ Config.deviceCert ++ Config.makerCert

/-- The body of a report over a nonce (Table 14-3). -/
def reportBody (s : State) (nonce : List Byte) : List Byte :=
  let ports := reportPorts s
  let slots := reportSlots s
  let sieve := reportSieve s
  le 2 1 ++ zeros 2 ++ le 4 (0x840 + ports.length + slots.length + sieve.length) ++ le 4 (reportChain s).length
    ++ le 1 1 ++ le 1 Config.stepping ++ zeros 2 ++ padTo 16 Config.deviceUid ++ padTo 16 s.ten.bootId ++ le 8 (timeNow s)
    ++ le 4 (s.ten.reportSeq + 1) ++ le 4 fuseState ++ padTo 64 nonce
    ++ padTo 64 (Config.slhPublic false Config.identitySeeds) ++ padTo 64 (Config.slhPublic true s.ten.akSeeds)
    ++ padTo 64 Config.romDigest ++ padTo 64 s.rkn.running.digest ++ padTo 64 Config.ownerKeyDigest ++ shake256 beadTable 64
    ++ padTo 1568 (Config.kemPublic s.ten.kemKey) ++ le 8 s.rkn.running.version
    ++ le 4 0x840 ++ le 4 ports.length ++ le 4 (0x840 + ports.length) ++ le 4 slots.length
    ++ le 4 (0x840 + ports.length + slots.length) ++ le 4 sieve.length ++ ports ++ slots ++ sieve

/-- GET_ATTESTATION joins the report queue: one being signed and sixteen waiting (R414); until it is signed it changes no state (R512). -/
def getAttestation (s : State) (c : Caller) (nonce : List Byte) : State :=
  let op := mbGET_ATTESTATION
  if nonce.length ≠ 64 then answer s c op mMALFORMED_COMMAND 0 []
  else if !s.ten.akReady then answer s c op mMAILBOX_BUSY (akWait s) []
  else if 17 ≤ s.ten.reports.length then answer s c op mMAILBOX_BUSY 50 []
  else
    let s := { s with rkn := { s.rkn with journal := s.rkn.journal.map fun (j : Caller × Bool) => if j.1 = c then (c, false) else j } }
    { s with ten := { s.ten with reports := s.ten.reports ++ [(c, nonce)], reportAt := if s.ten.reports = [] then s.now else s.ten.reportAt } }

/-- GET_ATTESTATION (R414). -/
def execGetAttestation (c : Caller) (nonce : List Byte) (s : State) : Out State Fault Refusal :=
  .next (mboxRun s c mbGET_ATTESTATION [] fun s => getAttestation s c nonce)

/-- The first report of the queue is signed and returned (R414, R416). -/
def signReport (s : State) : State :=
  match s.ten.reports with
  | [] => s
  | (c, nonce) :: r =>
   if s.rkn.dvorro = .restarting then s
   else
    let body := reportBody s nonce
    let sig := padTo 49856 (Config.slhSign true s.ten.akSeeds body)
    let s := bump { s with ten := { s.ten with
      reports := r, reportAt := s.now, reportSeq := s.ten.reportSeq + 1
      digests := (shake256 (body ++ sig) 64 :: s.ten.digests).take 64 } } cREPORTS_SIGNED
    deliver s c { opcode := mbGET_ATTESTATION, cseq := c.cseq, completion := mSUCCESS, result := body ++ sig ++ reportChain s }

/-- A report is signed (R414). -/
def execAttestationSigned (s : State) : Out State Fault Refusal := .next (signReport s)

/-- GET_IDENTITY_CHAIN (R404, R426). -/
def execGetIdentityChain (c : Caller) (s : State) : Out State Fault Refusal :=
  .next (mboxRun s c mbGET_IDENTITY_CHAIN [] fun s => answerOk s c mbGET_IDENTITY_CHAIN (Config.deviceCert ++ Config.makerCert))

/-! ### Slots and keys (R413, R417) -/

/-- A slot under removal answers busy; its scrub begins 14 ms after the removal at the latest (R425). -/
def busyDraining : Nat := 14

/-- ALLOCATE_KEY_SLOT (R413, R417). -/
def allocateSlot (s : State) (c : Caller) (i tenant : Nat) : State :=
  let op := mbALLOCATE_KEY_SLOT
  if 1024 ≤ i then answer s c op mARGUMENT_INVALID 0 []
  else if tenant = 0 ∨ 4096 ≤ tenant then answer s c op mARGUMENT_INVALID 2 []
  else match (keySlot s i).state with
    | .draining => answer s c op mMAILBOX_BUSY busyDraining []
    | .free =>
      if (keySlot s i).leafRefs ≠ 0 then answer s c op mOBJECT_STATE_CONFLICT 0 []
      else answerOk (setKeySlot s i { state := .allocated, tenant := tenant }) c op []
    | _ => answer s c op mOBJECT_STATE_CONFLICT 0 []

/-- ALLOCATE_KEY_SLOT (R417). -/
def execAllocateKeySlot (c : Caller) (slot tenant : Nat) (s : State) : Out State Fault Refusal :=
  .next (mboxRun s c mbALLOCATE_KEY_SLOT [] fun s => allocateSlot s c slot tenant)

/-- An ASCII string as bytes. -/
def ascii (t : String) : List Byte := t.toList.map fun ch => BitVec.ofNat 8 ch.toNat

/-- KMAC256 with a customization string. -/
def kmacStr (key x : List Byte) (n : Nat) (custom : String) : List Byte := kmac256 key x n (custom.toList.map (·.toNat))

/-- The reserved fields of INSTALL_TENANT_KEY are zero (Table 14-5). -/
def installReserved (b : List Byte) : Bool := decide (bits (field b 0 2) 15 12 = 0 ∧ bits (field b 2 2) 14 10 = 0 ∧ field b 4 4 = 0)

/-- The keys that the arguments carry under the wrap key, where they open and are well (R417). -/
def unwrapKeys (b ss : List Byte) : Option (List Byte) :=
  let report := (b.drop 8).take 64
  let wrap := kmacStr ss report 32 "KYD-1280 WRAP"
  match gcmOpen wrap ((b.drop 0x668).take 12) (b.take 0x48) ((b.drop 0x674).take 160) ((b.drop 0x714).take 16) with
  | some p => if p.take 32 = (p.drop 32).take 32 ∨ !installReserved b then none else some p
  | none => none

/-- INSTALL_TENANT_KEY (R407, R417, R418). -/
def installKey (s : State) (c : Caller) (b : List Byte) : State :=
  let op := mbINSTALL_TENANT_KEY
  let tenant := field b 0 2 % 4096
  let i := field b 2 2 % 1024
  let report := (b.drop 8).take 64
  if b.length ≠ 0x724 then answer s c op mMALFORMED_COMMAND (min b.length 0x724) []
  else if Config.debugEnabled then answer s c op mSECURITY_STATE_REFUSED 0 []
  else match (keySlot s i).state with
    | .draining => answer s c op mMAILBOX_BUSY busyDraining []
    | .allocated =>
      if (keySlot s i).tenant ≠ tenant then answer s c op mOBJECT_STATE_CONFLICT 0 []
      else if !(report ∈ s.ten.digests) then answer s c op mARGUMENT_INVALID 8 []
      else
        let ss := Config.kemOpen s.ten.kemKey ((b.drop 0x48).take 1568)
        match unwrapKeys b ss with
        | none => answer s c op mKEY_UNWRAP_FAILURE 0 []
        | some p =>
          let k := keySlot s i
          answerOk (setKeySlot s i { k with
            state := .active, keys := p.take 96, gkey := p.drop 96, gkeyDigest := shake256 (p.drop 96) 64
            pin := if bit (field b 2 2) 15 then some s.rkn.running.digest else none
            tsk := kmacStr ss report 32 "KYD-1280 TSESS", gseq := 0, jobs := [], grantBody := [] }) c op []
    | _ => answer s c op mOBJECT_STATE_CONFLICT 0 []

/-- INSTALL_TENANT_KEY (R417). -/
def execInstallTenantKey (c : Caller) (a : InstallKeyArgs) (s : State) : Out State Fault Refusal :=
  .next (mboxRun s c mbINSTALL_TENANT_KEY [] fun s => installKey s c a.bytes)

/-! ### Removal (R422) -/

/-- Whether a message is a tray read, line write or metadata write of a slot. -/
def slotMessage (s : State) (i : Nat) (m : OwnMsg) : Bool :=
  match m.purpose with
  | .fill l n | .fillTag l n => (List.range n).any fun j => (lineInfo s (l + j)).slot = some i
  | .writeBack l | .writeBackTag l => (lineInfo s l).slot = some i
  | _ => false

/-- The in-flight count of a slot (R422). -/
def slotInflight (s : State) (i : Nat) : Nat :=
  (s.net.own.filter fun e => e.2.purpose ≠ .late && (e.2.slot = some i || (e.2.slot.isNone && slotMessage s i e.2))).length

/-- The pages whose leaf names a slot: pool address, size, and LINE_CRC; this module's frames or the trays' pages. -/
def slotPages (s : State) (i : Nat) (own : Bool) : List (Nat × Nat × Bool) :=
  (s.pool.jobs.flatMap fun j => (presentLeaves s j.2).filterMap fun x =>
    if leafProt x.2 && leafSlot x.2 = i && decide (leafNode x.2 = myNode s) = own then some (leafAddr x.1 x.2 0, pageSize x.1, leafE2e x.2) else none).dedup

/-- Whether a pool address lies in one of some pages. -/
def inPages (l : List (Nat × Nat × Bool)) (a : Nat) : Bool := l.any fun p => decide (p.1 ≤ a) && decide (a < p.1 + p.2.1)

/-- Frames of this module are zeroed (R422). -/
def zeroFrames (s : State) (l : List (Nat × Nat × Bool)) : State :=
  { s with pool := { s.pool with
    mem := s.pool.mem.filter fun x => !inPages l x.1
    lines := s.pool.lines.filter fun e => !inPages l (e.1 * 128)
    images := s.pool.images.filter fun e => !inPages l (ownAddr s (e.1 * 4096)) } }

/-- A tray line of a slot is zeroed and dropped, dirty or not; one that an agent holds, once the agent has given it up (R422). -/
def dropSlotLine (s : State) (l : Nat) : State :=
  let i := lineInfo s l
  let s := setLine (putBytes s (l * 128) (zeros 128)) l (if i.filling then { lineDefault s l with filling := true, slot := i.slot } else lineDefault s l)
  let held := match hlnOf s l with
    | some h => (dirOf s h).isSome || thas s.coh.busy h
    | none => false
  { s with pool := { s.pool with
    slots := if held then s.pool.slots else tdel s.pool.slots l, marked := s.pool.marked.filter (· ≠ l) } }

/-- The near tier gives up the lines of a slot, and agents the lines they hold (R422, step 4). -/
def dropSlotLines (s : State) (i : Nat) : State :=
  let own := slotPages s i true
  let ls := (s.pool.lines.filter fun e => e.2.slot = some i).map (·.1)
  let held := (s.coh.dir.filter fun e => match lineOfHln s e.1 with
    | some l => l ∈ ls || inPages own (l * 128)
    | none => false).map (·.1)
  let s := { s with pool := { s.pool with discard := s.pool.discard ++ held.filter fun h => !(h ∈ s.pool.discard) } }
  let s := ls.foldl dropSlotLine (zeroFrames s own)
  probeLines s held

/-- The windows of a tenant are revoked, and requests to them are refused from now on (R422, step 1). -/
def revokeTenant (s : State) (tenant : Nat) : State :=
  let l := (s.win.table.filter fun e => e.2.ownerTenant = tenant && e.2.state ≠ .free).map (·.1)
  l.foldl (fun st i => forceRevoke (modWindow st i fun w => { w with tenantGone := true }) i) s

/-- The linearisation point of a slot's removal (R422). -/
def startRemoval (s : State) (i : Nat) : State :=
  let k := keySlot s i
  let pages := slotPages s i false
  let own := s.net.own.map fun e => if slotMessage s i e.2 then (e.1, { e.2 with slot := some i }) else e
  let s := { s with net := { s.net with own := own } }
  let s := setKeySlot s i { k with state := .draining, drainAt := s.now, scrub := pages, zeroisedAt := none, scrubbing := false, scrubbed := 0 }
  let s := revokeTenant s k.tenant
  let s := failAll s (fun w => parks w.why && decide (w.req.pkt.job ∈ k.jobs)) kTENANT_GONE
  let s := endTenantBeads (abortTenantChannels s k.jobs) k.jobs
  settle (dropSlotLines s i)

/-- A slot of a tenant that leaves: ALLOCATED becomes FREE, ACTIVE is removed, DRAINING goes on (R412, R425). -/
def leaveSlot (s : State) (i : Nat) : State :=
  let k := keySlot s i
  match k.state with
  | .allocated => setKeySlot s i { leafRefs := k.leafRefs }
  | .active => startRemoval s i
  | _ => s

/-- The slots that bear a tenant's ID. -/
def slotsOfTenant (s : State) (tenant : Nat) : List Nat :=
  sortAsc ((s.ten.slots.filter fun e => e.2.state ≠ .free && e.2.tenant = tenant).map (·.1))

/-- REMOVE_TENANT (R422). -/
def removeTenant (s : State) (c : Caller) (tenant : Nat) : State :=
  let op := mbREMOVE_TENANT
  if tenant = 0 ∨ 4096 ≤ tenant then answer s c op mARGUMENT_INVALID 0 []
  else if slotsOfTenant s tenant = [] then answer s c op mOBJECT_NOT_FOUND 0 []
  else answerOk ((slotsOfTenant s tenant).foldl leaveSlot s) c op []

/-- REMOVE_TENANT (R422). -/
def execRemoveTenant (c : Caller) (tenant : Nat) (s : State) : Out State Fault Refusal :=
  .next (mboxRun s c mbREMOVE_TENANT [] fun s => removeTenant s c tenant)

/-- Slots pinned to another image than the one activated are removed (R418). -/
def breakPins (s : State) : State :=
  let l := (s.ten.slots.filter fun e => e.2.state = .active && (match e.2.pin with
    | some d => d ≠ s.rkn.running.digest
    | none => false)).map (·.1)
  (sortAsc l).foldl startRemoval s

/-! ### Grants (R419, R420) -/

/-- The jobs that a grant body names. -/
def grantJobs (b : List Byte) : List Nat := (List.range (field b 0x10 1)).map fun i => field b (0x18 + 2 * i) 2

/-- A grant retires its slot. -/
def grantRetires (b : List Byte) : Bool := bit (field b 0 4) 8

/-- The fields of a grant body that Table 14-6 fixes. -/
def grantWell (b : List Byte) : Bool :=
  decide (b.length = 152 ∧ field b 0 1 = 1 ∧ bits (field b 0 4) 31 9 = 0 ∧ field b 4 2 < 4096 ∧ field b 6 2 < 1024 ∧ field b 0x11 7 = 0)
    && decide (field b 0x10 1 ≤ 64) && !(grantRetires b && decide (field b 0x10 1 ≠ 0))
    && (b.drop (0x18 + 2 * field b 0x10 1)).all fun x => x = 0

/-- A grant may replace the one in force (R419). -/
def grantValid (s : State) (b sig : List Byte) : Bool :=
  let k := keySlot s (field b 6 2)
  grantWell b && k.state = .active && decide (k.tenant = field b 4 2) && decide (k.gseq < field b 8 8)
    && decide (sig.length = 29792) && Config.slhVerify false k.gkey b sig

/-- A verified grant is on its way to the quarters, or retires its slot (R420, R422). -/
def takeGrant (s : State) (c : Caller) (i : Nat) (b : List Byte) : State :=
  let k := keySlot s i
  let waiting := match k.newGrant with
    | some (_, l) => l
    | none => []
  let s := setKeySlot s i { k with gseq := field b 8 8, newGrant := some (b, waiting ++ [c]) }
  if grantRetires b then startRemoval s i else s

/-- SET_KEY_GRANT (R419). -/
def setGrant (s : State) (c : Caller) (b sig : List Byte) : State :=
  let op := mbSET_KEY_GRANT
  if (keySlot s (field b 6 2)).state = .draining then answer s c op mMAILBOX_BUSY busyDraining []
  else if grantValid s b sig then takeGrant s c (field b 6 2) b
  else answer s c op mGRANT_INVALID 0 []

/-- SET_KEY_GRANT (R419). -/
def execSetKeyGrant (c : Caller) (body sig : List Byte) (s : State) : Out State Fault Refusal :=
  .next (mboxRun s c mbSET_KEY_GRANT [] fun s => setGrant s c body sig)

/-- Every quarter uses the new grant, and its commands complete (R420). -/
def grantTaken (s : State) (i : Nat) : State :=
  let k := keySlot s i
  match k.newGrant with
  | none => s
  | some (b, l) =>
    let s := setKeySlot s i { k with newGrant := none, jobs := grantJobs b, grantBody := b }
    l.foldl (fun st c => answerOk st c mbSET_KEY_GRANT []) (settle s)

/-- A grant is in force (R420). -/
def execGrantInForce (slot : Nat) (s : State) : Out State Fault Refusal := .next (grantTaken s slot)

/-! ### Querying a slot (R426, R483) -/

/-- The session that a command came in; 0 on other transports. -/
def callerSession (c : Caller) : Nat :=
  match c.mbox with
  | .fm _ => c.src
  | _ => 0

/-- The header bytes 0x00 to 0x17 of a tenant-class command of one slot (Table 17-3). -/
def tenantHeader (c : Caller) (op len : Nat) : List Byte :=
  le 2 op ++ le 2 2 ++ le 4 c.cseq ++ le 2 len ++ le 2 0 ++ le 4 len ++ le 8 (callerSession c)

/-- TTAG verifies under the session key of TSLOT over the header and the arguments before it (R483). -/
def ttagHolds (s : State) (c : Caller) (op : Nat) (args ttag : List Byte) : Bool :=
  let k := keySlot s c.tslot
  (k.state = .active || k.state = .draining) && k.tsk ≠ []
    && decide (ttag = kmacStr k.tsk (tenantHeader c op (args.length + 32) ++ args) 32 "KYD-1280 TCMD")

/-- TTAG of a query verifies, and TSLOT bears the tenant of the slot asked for (R483). -/
def tagHolds (s : State) (c : Caller) (slot : Nat) (ttag : List Byte) : Bool :=
  ttagHolds s c mbQUERY_KEY_SLOT (le 8 slot) ttag && decide ((keySlot s c.tslot).tenant = (keySlot s slot).tenant)

/-- QUERY_KEY_SLOT: any slot for the fabric manager, slots bearing its ID for a tenant (R426). -/
def querySlot (s : State) (c : Caller) (slot : Nat) (ttag : List Byte) : State :=
  let op := mbQUERY_KEY_SLOT
  if 1024 ≤ slot then answer s c op mARGUMENT_INVALID 0 []
  else if c.tenant && !tagHolds s c slot ttag then answer s c op mSESSION_INVALID 0 []
  else answerOk s c op (slotEntry s slot ++ le 4 (slotInflight s slot))

/-- QUERY_KEY_SLOT (R426). -/
def execQueryKeySlot (c : Caller) (slot : Nat) (ttag : List Byte) (s : State) : Out State Fault Refusal :=
  .next (mboxRun s c mbQUERY_KEY_SLOT [] fun s => querySlot s c slot ttag)

/-! ### Zeroisation and scrub (R423, R424) -/

/-- A draining slot that still holds its key. -/
def holdsKey (s : State) (i : Nat) : Bool := (keySlot s i).state = .draining && (keySlot s i).zeroisedAt.isNone

/-- The key material is zeroised, and every retransmission of the slot abandoned (R423). -/
def zeroise (s : State) (i : Nat) : State :=
  let mine := (s.net.own.filter fun e => e.2.slot = some i).map (·.1)
  let s := modKeySlot s i fun k => { k with keys := [], tsk := [], gkey := [], zeroisedAt := some s.now }
  { s with net := { s.net with
    own := s.net.own.map fun e => if e.1 ∈ mine then (e.1, { e.2 with purpose := .late }) else e
    sent := s.net.sent.filter fun x => !(!x.1.2.2.2 && mine.any fun k => k.2 = x.1.2.1) } }

/-- The in-flight count of a slot under removal has reached 0 (R423). -/
def execKeyZeroise (slot : Nat) (s : State) : Out State Fault Refusal :=
  .next (if holdsKey s slot && slotInflight s slot = 0 then zeroise s slot else s)

/-- Ten milliseconds after the linearisation point the slot is zeroised (R423). -/
def execZeroiseTimeout (slot : Nat) (s : State) : Out State Fault Refusal :=
  .next (if holdsKey s slot && due s (keySlot s slot).drainAt (ms 10) then zeroise s slot else s)

/-- The bytes of a scrubbed run: zero, with the check of each line on a LINE_CRC page (R424). -/
def scrubBytes (len : Nat) (crc : Bool) : List Byte :=
  if crc then (List.range (len / 128)).flatMap fun _ => zeros 124 ++ le 4 (crc32c (zeros 124)) else zeros len

/-- One write of a scrub, of at most 4,096 bytes. -/
def scrubWrite (s : State) (i a len : Nat) (crc : Bool) : State := trayStore s (.scrub i) (nodeOf a) 2 a (scrubBytes len crc)

/-- A run is written in parts of 4,096 bytes. -/
def scrubRun (s : State) (i a len : Nat) (crc : Bool) : State :=
  (List.range (ceilDiv len 4096)).foldl (fun st k => scrubWrite st i (a + 4096 * k) (min 4096 (len - 4096 * k)) crc) s

/-- A page's zero data and its zero metadata words, or a part that is tried again; of a lost tray the lines count as scrubbed (R424). -/
def scrubPart (s : State) (i : Nat) (p : Nat × Nat × Bool) : State :=
  if nodeOf p.1 ∈ s.pool.traysLost then
    if offOf p.1 < 2 ^ 49 then bumpBy (modKeySlot s i fun k => { k with scrubbed := k.scrubbed + p.2.1 / 128 }) cSCRUB_LINES (p.2.1 / 128) else s
  else
    let s := scrubRun s i p.1 p.2.1 p.2.2
    if p.2.1 < 65536 then s else scrubRun s i (metaAddr p.1) (p.2.1 / 16) false

/-- What a slot's scrub still has to write is written. -/
def scrubAll (s : State) (i : Nat) : State :=
  let l := (keySlot s i).scrub
  l.foldl (fun st p => scrubPart st i p) (modKeySlot s i fun k => { k with scrub := [], scrubbing := true })

/-- The scrub may start: 4 ms after zeroisation (R424). -/
def scrubDue (s : State) (i : Nat) : Bool :=
  let k := keySlot s i
  k.state = .draining && !k.scrubbing && (match k.zeroisedAt with
    | some t => due s t (ms 4)
    | none => false)

/-- The scrub of a slot's tray pages begins (R424). -/
def execTrayScrubStart (slot : Nat) (s : State) : Out State Fault Refusal := .next (if scrubDue s slot then scrubAll s slot else s)

/-- A scrub's parts that did not land are written again every 10 ms (R424). -/
def execScrubRetry (slot : Nat) (s : State) : Out State Fault Refusal :=
  .next (if (keySlot s slot).scrubbing && decide ((keySlot s slot).scrub ≠ []) && decide ((keySlot s slot).retryAt ≤ s.now) then scrubAll s slot else s)

/-- A slot's scrub is over: everything written has landed. -/
def scrubOver (s : State) (i : Nat) : Bool :=
  (keySlot s i).scrubbing && (keySlot s i).scrub = [] && !s.net.own.any fun e => e.2.purpose = .scrub i

/-- A slot is FREE again, and its removal is reported (R424). -/
def endRemoval (s : State) (i : Nat) : State :=
  let k := keySlot s i
  let s := setKeySlot s i { leafRefs := k.leafRefs }
  event (setEvt s aIDENTITY_SECURITY 24) eTENANT_REMOVED sevINFO 15 0 (k.tenant + i * 65536) k.scrubbed

/-- The scrub ends (R424). -/
def execTrayScrubEnd (slot : Nat) (s : State) : Out State Fault Refusal := .next (if scrubOver s slot then endRemoval s slot else s)

end Sys2Proof.Machine
end

