-- ==== Sys2Proof/Machine/MapRows.lean ====
section
/-! DEFINITION. The timers and commands of the fabric map: link-state records (R430), repetition (R434), votes and verdicts (R438, R439), grace, hand-off timers (R444, R445), PROPOSE_MAP, QUERY_MAP, SET_PORT_ROLE and DRAIN_MODULE (R436, R448 to R450). -/

namespace Sys2Proof.Machine

/-! ### Link-state records (R430) -/

/-- This module's record changed and is flooded (R430). -/
def execLsrOriginate (s : State) : Out State Fault Refusal := .next (if s.map.lsrDue.isSome then floodLsr s else s)

/-- The refresh of this module's record every 1 s (R430). -/
def execLsrRefresh (s : State) : Out State Fault Refusal := .next (if due s s.map.lsrAt (ms 1000) then floodLsr s else s)

/-- A record that was not refreshed for 3 s is dropped (R430). -/
def ageOut (s : State) (origin : Nat) : State :=
  match tget s.map.lsrs origin with
  | some r => if due s r.keptAt (ms 3000) then settleTrays { s with map := { s.map with lsrs := tdel s.map.lsrs origin } } else s
  | none => s

/-- A link-state record ages out (R430). -/
def execLsrAgeOut (origin : Nat) (s : State) : Out State Fault Refusal := .next (settle (ageOut s origin))

/-- A map message is repeated, or given up after ten sends (R434). -/
def execMapResend (lport : Nat) (key : Nat) (s : State) : Out State Fault Refusal := .next (settle (resendMap s lport key))

/-! ### Votes and verdicts (R438, R439) -/

/-- The coordinator's 1 ms for votes is over: the proposal is aborted; the verdict that the command then reports is open (R438). -/
def voteTimeout (s : State) : State :=
  match s.map.coord with
  | some c =>
    if c.verdict.isNone && due s c.startedAt (ms 1) then
      let (v, s) := drawFree s
      decide_ s (256 + v % 256) 0
    else s
  | none => s

/-- Votes have not come within 1 ms (R438). -/
def execVoteTimeout (s : State) : Out State Fault Refusal := .next (settle (voteTimeout s))

/-- A STATUS pull has not been answered yet. -/
def pullsOpen (s : State) : Bool := s.map.sends.any fun m => m.op = opMAP_PULL && m.key = mapKey 0 0 1

/-- MAP_PULL of kind STATUS goes to every SWITCH neighbour (R439). -/
def pullStatus (s : State) (p : Proposal) : State :=
  (switchPorts s).foldl (fun st q => sendPull st q 1 0) { s with map := { s.map with proposal := some { p with pulled := true } } }

/-- A staged proposal without a verdict 5 ms after the vote: the neighbours are asked, and it is discarded when none shows its epoch (R439). -/
def verdictTimeout (s : State) : State :=
  match s.map.proposal with
  | some p =>
    if p.coord = myNode s || !(match p.votedAt with
      | some t => due s t (ms 5)
      | none => false) then s
    else if p.pulled then (if pullsOpen s then s else dropProposal s)
    else if switchPorts s = [] then dropProposal s
    else pullStatus s p
  | none => s

/-- A staged proposal has seen no verdict for 5 ms (R439). -/
def execStagedVerdictTimeout (s : State) : Out State Fault Refusal := .next (settle (verdictTimeout s))

/-- The previous epoch's grace ends (R438). -/
def execGraceEnd (s : State) : Out State Fault Refusal :=
  .next (if s.map.prev.isSome && decide (s.map.graceEnd ≤ s.now) then settle { s with map := { s.map with prev := none } } else s)

/-- A taker probes its giver (R444). -/
def execHandoffProbeTimer (tray : Nat) (s : State) : Out State Fault Refusal := .next (probeGiver s tray)

/-- A taker settles its held requests 26 ms after the commit (R445). -/
def execHandoffSettleTimeout (tray : Nat) (s : State) : Out State Fault Refusal := .next (settle (settleTimeout s tray))

/-! ### Commands -/

/-- A refusal of PROPOSE_MAP by the coordinator itself, as its own vote would be (R435, R436). -/
def refuseProposal (s : State) (c : Caller) (v d : Nat) : State := answer s c mbPROPOSE_MAP mMAP_PROPOSAL_ABORTED (v + d % 65536 * 65536) []

/-- PROPOSE_MAP (R436). -/
def proposeMap (s : State) (c : Caller) (a : ProposeMapArgs) : State :=
  let op := mbPROPOSE_MAP
  if 256 ≤ a.base then answer s c op mARGUMENT_INVALID 0 []
  else if a.maxTransit = 0 ∨ 100 < a.maxTransit then answer s c op mARGUMENT_INVALID 1 []
  else if a.records = [] ∨ 8128 < a.records.length then answer s c op mARGUMENT_INVALID 2 []
  else match a.records.findIdx? fun b => !recOk b with
    | some i => answer s c op mMALFORMED_COMMAND (8 + 32 * i) []
    | none =>
      if s.map.proposal.isSome || s.map.coord.isSome then refuseProposal s c 1 0
      else if a.base ≠ s.map.epoch then refuseProposal s c 2 0
      else match checkRecs s (a.records.map parseRec) with
        | .inr i => refuseProposal s c 3 i
        | .inl comp => if graceRuns s then refuseProposal s c 4 0 else settle (propose s c a.maxTransit a.records comp)

/-- PROPOSE_MAP (R436). -/
def execProposeMap (c : Caller) (a : ProposeMapArgs) (s : State) : Out State Fault Refusal :=
  .next (mboxRun s c mbPROPOSE_MAP [] fun s => proposeMap s c a)

/-- The epochs and the staged state (Table 15-9). -/
def mapEpochs (s : State) : List Byte :=
  le 1 s.map.epoch ++ le 1 (s.map.epoch + 255) ++ le 1 (flag (graceRuns s)) ++ le 1 (flag s.map.proposal.isSome)
    ++ le 1 ((s.map.proposal.map (·.epoch)).getD 0)

/-- A node's entry and its route set. -/
def mapNode (s : State) (id : Nat) (e : NodeEntry) : List Byte :=
  let rs := routeSet s s.map.comp id
  le 2 id ++ le 1 e.kind ++ le 1 e.att.length ++ zeros 4 ++ padTo 16 e.uid
    ++ (sortBy (fun a => a.1) e.att).flatMap (fun a => le 2 a.1 ++ le 2 a.2.1 ++ le 2 a.2.2) ++ le 2 rs.length ++ rs.flatMap (le 2)

/-- A group's entry. -/
def mapGroup (id : Nat) (g : Nat × List Nat) : List Byte := le 2 id ++ le 2 g.1 ++ le 2 g.2.length ++ g.2.flatMap (le 2)

/-- A node is one of a host's own: it attaches here to a port whose job set shares a job with the port its mailbox is bound to (Table 15-9). -/
def ownNode (s : State) (c : Caller) (n : Nat) : Bool :=
  match callerClass c with
  | .host => ((tget s.map.comp.nodes n).map (·.att)).getD [] |>.any fun a =>
      decide (a.2.1 = myNode s) && (portJobs s a.2.2).any fun j => ownJob s c j
  | _ => true

/-- QUERY_MAP (Table 15-9). -/
def queryMap (s : State) (c : Caller) (what id : Nat) : State :=
  let op := mbQUERY_MAP
  if what = 0 then answerOk s c op (mapEpochs s)
  else if what = 1 then
    match tget s.map.comp.nodes id with
    | some e => if ownNode s c id then answerOk s c op (mapNode s id e) else answer s c op mJOB_NOT_PERMITTED 0 []
    | none => answer s c op mOBJECT_NOT_FOUND 0 []
  else if what = 2 then
    match tget s.map.comp.groups id with
    | some g => if g.2.all (ownNode s c) then answerOk s c op (mapGroup id g) else answer s c op mJOB_NOT_PERMITTED 0 []
    | none => answer s c op mOBJECT_NOT_FOUND 0 []
  else answer s c op mARGUMENT_INVALID 0 []

/-- QUERY_MAP (R449). -/
def execQueryMap (c : Caller) (what id : Nat) (s : State) : Out State Fault Refusal :=
  .next (mboxRun s c mbQUERY_MAP [] fun s => queryMap s c what id)

/-- SET_PORT_ROLE writes LPORT_ROLE.ROLE, a LOCKED field (R12, R428, R450). -/
def setPortRole (s : State) (c : Caller) (q role : Nat) : State :=
  let op := mbSET_PORT_ROLE
  let a := aLPORT_ROLE q
  if 512 ≤ q then answer s c op mARGUMENT_INVALID 0 []
  else if 4 < role then answer s c op mARGUMENT_INVALID 2 []
  else if !isLport s q then answer s c op mOBJECT_NOT_FOUND 0 []
  else
    let w : Word := BitVec.ofNat 32 role
    if writeLocked s a w then answer (event s eFIELD_LOCKED sevINFO 0 0 a role) c op mFIELD_LOCKED a []
    else
      let old := regWord s a
      let ports := lports s
      answerOk (settle (afterWrite (setRegWord s a w) a old ports)) c op []

/-- SET_PORT_ROLE (R428). -/
def execSetPortRole (c : Caller) (lport role : Nat) (s : State) : Out State Fault Refusal :=
  .next (mboxRun s c mbSET_PORT_ROLE [] fun s => setPortRole s c lport role)

/-- DRAIN_MODULE (R448). -/
def execDrainModule (c : Caller) (s : State) : Out State Fault Refusal :=
  .next (mboxRun s c mbDRAIN_MODULE [] fun s =>
    if s.map.departing then answer s c mbDRAIN_MODULE mOBJECT_STATE_CONFLICT 0 [] else settle (startDrain s c))

/-- DEPARTING leaves on every UP port (R448, R524). -/
def sendDeparting (s : State) : State := ((lports s).filter (isUp s)).foldl (fun st q => sendCtl st q [5]) s

/-- The last 4 ms of drain-and-depart are over: the module has departed (R448). -/
def departModule (s : State) : State :=
  match s.map.drainCaller, s.map.drainReady with
  | some c, some t =>
    if s.map.drainStep = 3 && due s t (ms 4) then
      answerOk { sendDeparting s with map := { (sendDeparting s).map with departed := true, drainCaller := none, drainStep := 4 } } c mbDRAIN_MODULE []
    else s
  | _, _ => s

/-- The final wait of DRAIN_MODULE ends (R448). -/
def execDrainFinalWait (s : State) : Out State Fault Refusal := .next (departModule s)

end Sys2Proof.Machine
end

