-- ==== Sys2Proof/Machine/SpareRows.lean ====
section
/-! DEFINITION. Canaries (chapter 02), spares, uncorrectable errors, drills and the event log (chapter 16). -/

namespace Sys2Proof.Machine

/-! ### Drills and real triggers (R471 to R475) -/

/-- The state with the spares block changed. -/
def modSpares (s : State) (f : Spares → Spares) : State := { s with spares := f s.spares }

/-- The drill in progress changed. -/
def modDrill (s : State) (f : Drill → Drill) : State := modSpares s fun x => { x with drill := x.drill.map f }

/-- A record marked as caused by the drill in progress (Table 16-4). -/
def markDrill (s : State) (byDrill : Bool) (r : EventRec) : EventRec :=
  match s.spares.drill with
  | some d => if byDrill then { r with drill := true, drillId := d.args.id } else r
  | none => r

/-- The lane of a FAIL_LANE drill is trained again (R471, R474). -/
def drillRetrain (s : State) (d : Drill) : State :=
  if d.acted then s else retrainLane (modDrill s fun x => { x with acted := true }) d.args.target

/-- An INJECT_CE drill stops: the errors it injected are counted, at most its rate over the time it ran (R472; log entry 3). -/
def endInject (s : State) (d : Drill) : State :=
  let (v, s) := drawFree s
  let most := d.args.p0 * (s.now - d.startedAt) / 1000000000
  endDrill (bumpBy s cDRILL_INJECTED (v % (most + 1))) d 0

/-- A drill that is to end does so at once where that adds no effect: an injection stops, a lane's retrain starts (R474). -/
def cutDrill (s : State) : State :=
  match s.spares.drill with
  | some d => if d.args.dkind = 3 then endInject s d else if d.args.dkind = 2 then drillRetrain s d else s
  | none => s

/-- A real trigger, or shed level L1, interrupts a drill (R474, Table 18-3). -/
def interruptDrill (s : State) : State := cutDrill (modDrill s fun d => { d with interrupted := true })

/-! ### Switch-ins of units (R451 to R455) -/

/-- A die's list of switch-ins replaced. -/
def setSwitching (s : State) (die : Nat) (l : List SwitchIn) : State :=
  modSpares s fun x => { x with switching := if l = [] then tdel x.switching die else tset x.switching die l }

/-- No spare of a kind is left on a die (R459). -/
def noteExhausted (s : State) (die uclass unit : Nat) : State :=
  event (setEvt s (aHEALTH_DIE die) 18) eSPARES_EXHAUSTED sevDEGRADED uclass unit die uclass

/-- The logical ports of a native port that are UP. -/
def upPortsOf (s : State) (n : Nat) : List Nat := ((List.range 8).map (8 * n + ·)).filter (isUp s)

/-- What follows a rod that is out: its ports go DOWN; Table 3-9 gives no row for it, so the record's cause is open (log entry 3). -/
def rodLost (s : State) (n : Nat) : State :=
  let (v, s) := drawFree s
  (upPortsOf s n).foldl (fun st q => goDown st q (6 + v)) s

/-- A unit leaves service with no spare left: the module goes on as Table 16-2 gives (R459). -/
def unitOut (s : State) (w : SwitchIn) : State :=
  let s := modSpares s fun x => { x with retired := x.retired ++ [(w.kind, w.index)], degraded := x.degraded.filter (· ≠ (w.kind, w.index)) }
  let s := noteExhausted s (unitDie w.kind w.index) (unitClass w.kind) w.index
  let s := match w.kind with
    | .rod => rodLost s w.index
    | .mover => restartEngine s w.index
    | _ => s
  match s.spares.drill with
  | some d => if w.drill then endDrill s { d with interrupted := true } 0 else s
  | none => s

/-- The first switch-in of a die's list begins; one that finds no spare takes its unit out of service, and the next begins. -/
def beginSwitch (die : Nat) : Nat → State → State
  | 0, s => s
  | fuel + 1, s =>
    match tgetD s.spares.switching die [] with
    | [] => s
    | w :: r =>
      if freeSpares s w.kind die = [] then beginSwitch die fuel (unitOut (setSwitching s die r) w)
      else setSwitching s die ({ w with startedAt := s.now } :: r)

/-- The spare being switched in fails: the die's other spare takes its place (R455). -/
def spareFailed (s : State) (die : Nat) (w : SwitchIn) (r : List SwitchIn) (cause : Nat) : State :=
  let left := (freeSpares s w.kind die).drop 1
  let s := event (setEvt s (aUnit w.kind w.index) 21) eUNIT_DEGRADED sevDEGRADED (unitClass w.kind) w.index ((freeSpares s w.kind die).headD 0) cause
  let s := modSpares s fun x => { x with spare := tset x.spare (w.kind, die) left }
  if left = [] then beginSwitch die (r.length + 1) (unitOut (setSwitching s die r) w)
  else setSwitching s die ({ w with loaded := false } :: r)

/-- A residue mismatch: the engine computes the element once more from the unchanged record and input, and the mismatch is counted (R268, R366). -/
def residueSeen (s : State) (k : UnitKind) (i : Nat) : State :=
  if k = .carry then bump (setEvt s aCARRY_CFG 8) (cCARRY_RESIDUE_ERR (i / 24)) else s

/-- A unit is marked DEGRADED (R46, R268, R451). -/
def markDegraded (s : State) (k : UnitKind) (i cause : Nat) : State :=
  let s := interruptDrill (if cause = 2 then residueSeen s k i else s)
  let s := modSpares s fun x => { x with degraded := if (k, i) ∈ x.degraded then x.degraded else x.degraded ++ [(k, i)] }
  event (setEvt s (aUnit k i) 21) eUNIT_DEGRADED sevDEGRADED (unitClass k) i (unitSlot s k i) cause

/-- A unit's switch-in is asked for: it begins at once, or waits for those before it on its die (R452). -/
def askSwitch (s : State) (k : UnitKind) (i cause : Nat) (drill : Bool) : State :=
  let die := unitDie k i
  let l := tgetD s.spares.switching die []
  let s := setSwitching s die (l ++ [{ kind := k, index := i, cause := cause, drill := drill }])
  if l = [] then beginSwitch die 2 s else s

/-- A unit fails, is found DEGRADED, or is retired by command. -/
def failUnit (s : State) (k : UnitKind) (i cause : Nat) : State :=
  if unitTotalOf k ≤ i ∨ (k, i) ∈ s.spares.retired then s
  else match tgetD s.spares.switching (unitDie k i) [] with
    | w :: r =>
      if w.kind = k ∧ w.index = i then spareFailed (interruptDrill s) (unitDie k i) w r cause
      else if r.any fun x => x.kind = k && x.index = i then s
      else askSwitch (markDegraded s k i cause) k i cause false
    | [] => askSwitch (markDegraded s k i cause) k i cause false

/-- The spare rod has loaded: it asks the partner for a replay, its egress goes on from the replay buffer, and retirements that waited are acted on (R454, R455). -/
def rodLoaded (s : State) (i : Nat) : State :=
  let die := unitDie .rod i
  match tgetD s.spares.switching die [] with
  | w :: r =>
    if w.kind = .rod ∧ w.index = i ∧ w.loaded = false then
      let s := setSwitching s die ({ w with loaded := true } :: r)
      (upPortsOf s i).foldl (fun st q =>
        let later := (lport st q).retireLater
        let st := modLport st q fun p => { p with lnak := true, ahead := [], resend := p.replay, lackAt := st.now, retireLater := [] }
        later.foldl (fun st e => retireLanes st q e.1 e.2) st) s
    else s
  | [] => s

/-- What a new engine does: a mover engine restarts its descriptor from the last recorded step (R330); the event bits of the blocks. -/
def engineReplaced (s : State) (k : UnitKind) (i : Nat) : State :=
  match k with
  | .mover => restartEngine (setEvt s aMOVER_CFG 2) i
  | .carry => setEvt s aCARRY_CFG 9
  | _ => s

/-- A switch-in ends: the spare serves the index, and the next switch-in of the die begins (R452, R454). -/
def switchOver (s : State) (die : Nat) : State :=
  match tgetD s.spares.switching die [] with
  | [] => s
  | w :: r =>
    if w.kind = .rod ∧ w.loaded = false then s
    else match freeSpares s w.kind die with
      | [] => s
      | sp :: rest =>
        let u := (w.kind, w.index)
        let old := unitSlot s w.kind w.index
        let pause := s.now - w.startedAt
        let s := modSpares s fun x => { x with
          slot := tset x.slot u sp, spare := tset x.spare (w.kind, die) rest, degraded := x.degraded.filter (· ≠ u)
          margin := tdel x.margin u, switchins := tset x.switchins u (tgetD x.switchins u 0 + 1) }
        let s := bump (setEvt s (aUnit w.kind w.index) 22) cSPARE_SWITCHINS
        let s := engineReplaced s w.kind w.index
        let s := raise s (markDrill s w.drill { etype := eUNIT_SPARED, sev := sevCORRECTED, uclass := unitClass w.kind, unit := w.index
                                                arg0 := old + sp * 2 ^ 32, arg1 := pause })
        let s := if w.drill then modDrill s fun d => { d with testing := true, oldSlot := old, effect := pause } else s
        beginSwitch die (r.length + 1) (setSwitching s die r)

/-! ### Canaries (R46) -/

/-- A margin below 8 %: the rail rises by 20 mV at once, up to 0.85 V, and the governor does not lower the die for 100 ms (R46; log entry 31). -/
def tripCanary (s : State) (die : Nat) : State :=
  let d := dieState s die
  let v := min 850 (d.voltSet + 20)
  setDie s die { d with voltSet := v, target := max d.target v, canaryRaise := v, canaryHold := true, canaryUntil := s.now + ms 100 }

/-- A unit's lowest canary margin is compared with its thresholds; `old` is the margin it had (R46). -/
def judgeMargin (s : State) (k : UnitKind) (i m old : Nat) : State :=
  let die := unitDie k i
  let full := 850 ≤ (dieState s die).voltSet
  let s := if m < 15 then setEvt s (aSUPPLY_CORE die) 28 else s
  let s := if m < 15 ∧ 15 ≤ old then event s eCANARY_WARN sevINFO (unitClass k) i die m else s
  if 8 ≤ m then s
  else
    let s := tripCanary (setEvt s (aSUPPLY_CORE die) 29) die
    if full then failUnit s k i 1 else event s eCANARY_TRIP sevCORRECTED (unitClass k) i die (dieState s die).voltSet

/-- A unit's lowest canary margin is measured. -/
def measureCanary (s : State) (k : UnitKind) (i m : Nat) : State :=
  if unitTotalOf k ≤ i ∨ (k, i) ∈ s.spares.retired then s
  else judgeMargin (modSpares s fun x => { x with margin := tset x.margin (k, i) m }) k i m (tgetD s.spares.margin (k, i) 255)

/-- The 100 ms after a canary trip end: the raise is over, and the margins last measured on the die are compared again (R46; log entry 31). -/
def canaryHoldEnds (s : State) (die : Nat) : State :=
  let d := dieState s die
  if d.canaryHold ∧ d.canaryUntil ≤ s.now then
    let s := setDie s die { d with canaryHold := false, canaryRaise := 0 }
    (s.spares.margin.filter fun e => unitDie e.1.1 e.1.2 = die).foldl (fun st e =>
      if e.1 ∈ st.spares.retired then st else judgeMargin st e.1.1 e.1.2 e.2 e.2) s
  else s

/-- The hold after a canary trip ends (R46). -/
def execCanaryHoldExpiry (die : Nat) (s : State) : Out State Fault Refusal := .next (settle (canaryHoldEnds s die))

/-- A canary margin is compared with its thresholds (R46). -/
def execCanaryMeasure (kind : UnitKind) (index margin : Nat) (s : State) : Out State Fault Refusal := .next (settle (measureCanary s kind index margin))

/-! ### Bank pairs, beads and macros (R456, R457) -/

/-- The spare pair of a channel is in use, or being copied to. -/
def pairUsed (s : State) (ch : Nat) : Bool := thas s.spares.bankCopy ch || s.spares.bankSpared.any fun u => u / 16 = ch

/-- A bank pair is spared: its copy starts, or, with no spare left, it is retired (R456, R459). -/
def sparePair (s : State) (u : Nat) : State :=
  let ch := u / 16
  if 2048 ≤ u ∨ u ∈ s.spares.bankRetired ∨ ch / 16 ∈ s.pool.stacksLost ∨ pairCopying s ch (u % 16) = true then s
  else
    let s := interruptDrill s
    if pairUsed s ch then noteExhausted (retirePair s u) (ch / 32) 9 u
    else modSpares s fun x => { x with bankCopy := tset x.bankCopy ch (u % 16, s.now) }

/-- A bead is DEGRADED: its partner serves both pairs until its own pair has been spared (R366, R456). -/
def beadDegraded (s : State) (c pair cause : Nat) : State :=
  let u := 16 * c + pair
  if 128 ≤ c ∨ 16 ≤ pair ∨ u ∈ s.spares.beadsDegraded then s
  else
    let s := if cause = 2 then bump s (cBEAD_RESIDUE_ERR (c / 32)) else s
    let s := modSpares (setEvt s aBEAD_CFG 17) fun x => { x with beadsDegraded := x.beadsDegraded ++ [u] }
    sparePair (event s eUNIT_DEGRADED sevDEGRADED 8 u u cause) u

/-- The lines of a bank pair that are poison. -/
def poisonedIn (s : State) (u : Nat) : Nat :=
  (s.pool.lines.filter fun e => e.2.poison ≠ 0 && (match hlnOf s e.1 with
    | some h => pairOfHln h = u
    | none => false)).length

/-- The copy of a bank pair ends: the spare pair and its bead take the pair's index (R456). -/
def pairCopied (s : State) (ch : Nat) : State :=
  match tget s.spares.bankCopy ch with
  | none => s
  | some (p, t) =>
    let u := 16 * ch + p
    let s := modSpares s fun x => { x with
      bankCopy := tdel x.bankCopy ch, bankSpared := x.bankSpared ++ [u], beadsDegraded := x.beadsDegraded.filter (· ≠ u) }
    let s := event (bump s cSPARE_SWITCHINS) eBANK_PAIR_SPARED sevCORRECTED 9 u (poisonedIn s u) ((s.now - t) / 1000)
    startBeads s ch

/-- A macro is spared: its copy joins those of its base die, or, with no spare left, it stays in service (R457, R459). -/
def spareMacro (s : State) (die i : Nat) : State :=
  let l := tgetD s.spares.macroCopy die []
  if 4 ≤ die ∨ 1024 ≤ i ∨ l.any (fun e => e.1 = i) then s
  else
    let s := interruptDrill s
    if macroSpares s die = 0 then noteExhausted s die 10 (1024 * die + i)
    else modSpares s fun x => { x with macroCopy := tset x.macroCopy die (l ++ [(i, s.now)]) }

/-- The copy of a macro ends: the lowest spare macro takes its addresses, and the next copy of the die begins (R452, R457). -/
def macroCopied (s : State) (die i : Nat) : State :=
  match tgetD s.spares.macroCopy die [] with
  | (j, t) :: r =>
    if j ≠ i then s
    else match (List.range 16).find? fun m => !thas s.spares.macroMap (die, m) with
      | none => s
      | some m =>
        let next := match r with
          | (k, _) :: r => (k, s.now) :: r
          | [] => []
        let s := modSpares s fun x => { x with
          macroCopy := if next = [] then tdel x.macroCopy die else tset x.macroCopy die next, macroMap := tset x.macroMap (die, m) i }
        event (bump s cSPARE_SWITCHINS) eSRAM_MACRO_SPARED sevCORRECTED 10 (1024 * die + i) m ((s.now - t) / 1000)
  | [] => s

/-- A mismatch that computing once more set right (R268, R366; log entry 41). -/
def residuePassed (s : State) (u : FailedUnit) : State :=
  match u with
  | .unit k i => if unitTotalOf k ≤ i then s else residueSeen s k i
  | .bead c p => if 128 ≤ c ∨ 16 ≤ p then s else bump s (cBEAD_RESIDUE_ERR (c / 32))

/-- A unit fails (R451); a first residue mismatch only has its element computed again (R268, R366; log entry 41). -/
def execUnitFailure (u : FailedUnit) (cause : FailureCause) (s : State) : Out State Fault Refusal :=
  .next (settle (if cause.code = 2 && !cause.again then residuePassed s u
    else match u with
      | .unit k i => failUnit s k i cause.code
      | .bead c p => beadDegraded s c p cause.code))

/-- A spare rod has loaded (R454). -/
def execRodSpareLoaded (index : Nat) (s : State) : Out State Fault Refusal := .next (settle (rodLoaded s index))

/-- A switch-in ends (R452). -/
def execSwitchInComplete (die : Nat) (s : State) : Out State Fault Refusal := .next (settle (switchOver s die))

/-- A drill injects errors of a kind into a place (Table 16-7). -/
def injecting (s : State) (k : ErrorUnit) : Bool :=
  match s.spares.drill, k with
  | some d, .bankPair c => d.args.dkind = 3 && d.args.target = 2 * 2 ^ 24 + c
  | some d, .sramMacro die => d.args.dkind = 3 && decide (d.args.target / 2 ^ 24 = 0) && d.args.target % 256 = die
  | none, _ => false

/-- Corrected errors over 10 s: more than 1,000 symbols a second in a bank pair, or 100 words a second in a macro (R451); where a drill injects errors they count toward no threshold (R472). -/
def errorWindow (s : State) (k : ErrorUnit) (i corrected : Nat) : State :=
  if injecting s k then s
  else match k with
    | .bankPair c => if 10000 < corrected ∧ i < 16 then sparePair s (16 * c + i) else s
    | .sramMacro die => if 1000 < corrected then spareMacro s die i else s

/-- A window of corrected errors ends (R451). -/
def execErrorRateWindow (k : ErrorUnit) (index corrected : Nat) (s : State) : Out State Fault Refusal :=
  .next (settle (errorWindow s k index corrected))

/-- The copy of a bank pair ends (R456). -/
def execBankPairCopyEnd (channel : Nat) (s : State) : Out State Fault Refusal := .next (settle (pairCopied s channel))

/-- The copy of a macro ends (R457). -/
def execMacroCopyEnd (die macroIdx : Nat) (s : State) : Out State Fault Refusal := .next (macroCopied s die macroIdx)

/-! ### Uncorrectable errors (R470) -/

/-- MEMORY_UNCORRECTABLE: an SRAM location is its die and, as its partition, the row of Table 16-6 (log entry 18). -/
def noteUncorrectable (s : State) (die row : Nat) : State :=
  event s eMEMORY_UNCORRECTABLE sevDEGRADED 15 die (die + 256 * row) row

/-- The head packet of an output queue is discarded as if it had failed R86; of a coherence packet the agent is reclaimed. -/
def loseHead (s : State) (q i : Nat) : State :=
  let k := 16 * q + i % 16
  match (outQ s k).packets with
  | [] => s
  | x :: _ =>
    let s := admitReserves (bump (popHead s k) (cROD_E2E_CRC_ERR (nativeOf q))) (quarterOf q)
    if opCREQ ≤ x.pkt.op ∧ x.pkt.op ≤ opCDAT then reclaimPort s q else s

/-- A directory entry is lost: every attached agent is asked for the line, and the entry is left Uncached. -/
def loseEntry (s : State) (h : Nat) : State :=
  let all := ((List.range 64).filter fun a => (agentOf s a).state = .attached)
  match tget s.coh.busy h with
  | some t =>
    let more := all.filter fun a => !(a ∈ t.tgt)
    let s := setDir s h (some { st := .shared all, grantAt := s.now })
    let t := { t with awaiting := t.awaiting ++ more.map (fun a => (a, s.now)), tgt := t.tgt ++ more, share := false }
    more.foldl (fun st a => sendSnoop st a h 0 true) { s with coh := { s.coh with busy := tset s.coh.busy h t } }
  | none =>
    if all = [] then setDir s h none
    else startSnoops (setDir s h (some { st := .shared all, grantAt := s.now })) h all false true (.backInval none)

/-- The WINDOW_LOST record of a window. -/
def windowLostRecord (s : State) (i seq suppressed : Nat) : EventRec :=
  { etype := eWINDOW_LOST, sev := sevDEGRADED, uclass := 15, node := myNode s, time := timeNow s, seq := seq, rep := min 255 suppressed
    arg0 := i, arg1 := (windowAt s i).ownerJob }

/-- A window's descriptor or working record is lost: it is revoked as by FORCE, drains no sooner than 4 ms later, and its owner and the log are told. -/
def loseWindow (s : State) (i : Nat) : State :=
  if (windowAt s i).state = .free then s
  else
    let s := windowEvent s i (windowLostRecord s i)
    let s := event s eWINDOW_LOST sevDEGRADED 15 0 i (windowAt s i).ownerJob
    let s := forceRevoke s i
    if (windowAt s i).state = .revoking then modWindow s i fun w => { w with holdUntil := s.now + ms 4 } else s

/-- An accumulator record, or the receipts, of a slice are lost (R269): the elements poisoned. -/
def poisonSlice (g : Group) (i : Nat) (e : Option Nat) : Slice × Nat :=
  let n := sliceElems g.a i
  let x := tgetD g.slices i { elems := freshElems (classOf g.a) n }
  match e with
  | some j => ({ x with elems := x.elems.modify j fun y => { y with psn := true } }, 1)
  | none => ({ x with lostReceipt := true, elems := x.elems.map fun y => { y with psn := true } }, n)

/-- The partials of a block of an attention group are lost: those of one query, or of all with their receipts (R269, R361). -/
def poisonBlock (g : Group) (b : Nat) (e : Option Nat) : Table (Nat × Nat) (List Byte) × Nat :=
  match e with
  | some q => (if thas g.attn (b, q) then tset g.attn (b, q) [] else g.attn, g.a.length)
  | none => ((List.range g.a.qn).foldl (fun t q => tset t (b, q) []) g.attn, g.a.qn * g.a.length)

/-- An uncorrectable error in carry staging: each raises its record, also in the records of a slice that has left; a switch that forwards keeps none (R269, R243). -/
def loseStaging (s : State) (rid i : Nat) (e : Option Nat) : State :=
  match groupOf s rid with
  | none => s
  | some g =>
    if forwardsOnly s g.a then s else
    let note (s : State) (n : Nat) : State :=
      event (noteUncorrectable (setEvt s aCARRY_CFG 11) (sliceQuarter rid i) 5) eSTAGING_POISON sevDEGRADED 15 0 rid n
    if classOf g.a = .attn then
      let (t, n) := poisonBlock g i e
      deliverAttn (note (setGroup s rid { g with attn := t }) n) rid
    else if sliceCount g.a ≤ i then s
    else if (tgetD g.slices i {}).left then note s (poisonSlice g i e).2
    else
      let (x, n) := poisonSlice g i e
      advanceRound (note (setGroup s rid { g with slices := tset g.slices i x }) n) rid [i]

/-- An uncorrectable word of DRAM poisons its line and spares its bank pair (R451, R469). -/
def loseWord (s : State) (l : Nat) : State :=
  match hlnOf s l with
  | none => s
  | some h =>
    let s := poisonLine s l kPOISONED_DATA
    sparePair (event s eMEMORY_UNCORRECTABLE sevDEGRADED 9 (pairOfHln h) h 0) (pairOfHln h)

/-- An uncorrectable error, by where it falls (Table 16-6). -/
def uncorrectable (s : State) (w : ErrorPlace) : State :=
  match w with
  | .packetBuffer q k => if (outQ s (16 * q + k % 16)).packets = [] then s else loseHead (noteUncorrectable s (quarterOf q) 1) q k
  | .directory n st way => match (setOf s (n * 2 ^ 27 + st))[way]? with
    | some e => loseEntry (noteUncorrectable s n 2) e.1
    | none => s
  | .translation n job lv page =>
    if thas s.pool.xlate (n, job, lv, page) then
      let s := noteUncorrectable s n 3
      { s with pool := { s.pool with xlate := tdel s.pool.xlate (n, job, lv, page) } }
    else s
  | .window i => if (windowAt s i).state = .free then s else loseWindow (noteUncorrectable s (windowQuarter i) 4) i
  | .staging rid i e => loseStaging s rid i e
  | .dramLine l => loseWord s l

/-- An uncorrectable memory error (R470). -/
def execMemoryUncorrectable (w : ErrorPlace) (s : State) : Out State Fault Refusal := .next (settle (uncorrectable s w))

/-! ### Commands of the fault manager (R462) -/

/-- RETIRE_UNIT spares a unit as if it had tripped (R462). -/
def retireCommand (s : State) (c : Caller) (uclass u : Nat) : State :=
  let op := mbRETIRE_UNIT
  let unit (k : UnitKind) : State := if unitTotalOf k ≤ u then answer s c op mOBJECT_NOT_FOUND 0 []
    else if s.spares.retired.contains (k, u) then answer s c op mOBJECT_STATE_CONFLICT 0 []
    else answerOk (settle (failUnit s k u 5)) c op []
  match uclass with
  | 3 => unit .rod
  | 4 => unit .carry
  | 5 => unit .sieve
  | 6 => unit .mover
  | 9 => if 2048 ≤ u then answer s c op mOBJECT_NOT_FOUND 0 []
    else if s.spares.bankRetired.contains u then answer s c op mOBJECT_STATE_CONFLICT 0 []
    else answerOk (settle (sparePair s u)) c op []
  | 10 => if 4096 ≤ u then answer s c op mOBJECT_NOT_FOUND 0 [] else answerOk (settle (spareMacro s (u / 1024) (u % 1024))) c op []
  | _ => answer s c op mARGUMENT_INVALID 0 []

/-- RETIRE_UNIT (R462). -/
def execRetireUnit (c : Caller) (uclass unit : Nat) (s : State) : Out State Fault Refusal :=
  .next (mboxRun s c mbRETIRE_UNIT [] fun s => retireCommand s c uclass unit)

/-- The unit whose switch-in a drill orders (Table 16-7). -/
def drillTarget (a : DrillArgs) : Option (UnitKind × Nat) :=
  match a.dkind with
  | 1 => some (.rod, a.target)
  | 4 => some (.mover, a.target)
  | 6 => if a.target / 65536 = 4 then some (.carry, a.target % 65536) else if a.target / 65536 = 5 then some (.sieve, a.target % 65536) else none
  | _ => none

/-- The place an INJECT_CE drill names exists (log entry 19). -/
def injectTarget (t : Nat) : Bool :=
  match t / 2 ^ 24 with
  | 0 => decide (t % 256 < 4)
  | 1 => decide (t % 2 ^ 24 < 512)
  | 2 => decide (t % 2 ^ 24 < 128)
  | _ => false

/-- The first argument of RUN_DRILL outside Table 16-7, as its completion code and DETAIL. -/
def drillBad (a : DrillArgs) : Option (Nat × Nat) :=
  if a.dkind = 0 ∨ 6 < a.dkind then some (mARGUMENT_INVALID, 0)
  else if a.id = 0 then some (mARGUMENT_INVALID, 2)
  else
    let there := match a.dkind with
      | 2 => decide (a.target < 512)
      | 3 => injectTarget a.target
      | 5 => decide (a.target = 0)
      | _ => match drillTarget a with
        | some (k, i) => decide (i < unitTotalOf k)
        | none => false
    if !there then some (mOBJECT_NOT_FOUND, 0)
    else if (a.dkind = 2 ∧ ¬ (1 ≤ a.p0 ∧ a.p0 ≤ 60000)) ∨ (a.dkind = 3 ∧ 1000000 < a.p0) ∨ (a.dkind ≠ 2 ∧ a.dkind ≠ 3 ∧ a.p0 ≠ 0) then some (mARGUMENT_INVALID, 8)
    else if (a.dkind = 3 ∧ 10000 < a.p1) ∨ (a.dkind ≠ 3 ∧ a.p1 ≠ 0) then some (mARGUMENT_INVALID, 16)
    else none

/-- The condition of a drill's row of Table 16-7 holds. -/
def drillBarred (s : State) (a : DrillArgs) : Bool :=
  if a.dkind = 2 then
    let q := lportOfLane s a.target
    !isUp s q || !(lane s a.target).active || widthOf s q = 1 || decide ((activeLanes s q).length ≤ minLanes s q)
  else match drillTarget a with
    | some (k, i) => freeSpares s k (unitDie k i) = [] || s.spares.retired.contains (k, i)
    | none => false

/-- Some switch-in is in progress. -/
def anySwitch (s : State) : Bool := s.spares.switching ≠ [] || s.spares.bankCopy ≠ [] || s.spares.macroCopy ≠ []

/-- Why a drill is refused: the DETAIL of `DRILL_REFUSED` (R471). -/
def drillRefusal (s : State) (a : DrillArgs) : Option Nat :=
  if !isReady s || level s ≠ 0 then some 1
  else if regField s aDRILL_CFG 0 1 = 0 then some 2
  else if s.spares.drill.isSome || anySwitch s then some 3
  else if s.spares.lastEnd.any fun t => !due s t (max 1 (regField s aDRILL_CFG 1 8) * ms 100) then some 4
  else if drillBarred s a then some 5
  else none

/-- Dvorro restarts from the running partition (R460, R512): it is absent until it returns. -/
def restartDvorro (s : State) : State := { s with rkn := { s.rkn with dvorro := .restarting } }

/-- What a drill does at its unit boundary (Table 16-7). -/
def drillAct (s : State) (a : DrillArgs) : State :=
  match a.dkind with
  | 2 => let q := lportOfLane s a.target; retireLanes s q (2 ^ (a.target - q)) 5
  | 3 => s
  | 5 => restartDvorro s
  | _ => match drillTarget a with
    | some (k, i) => askSwitch s k i 5 true
    | none => s

/-- RUN_DRILL (R471): an accepted drill raises DRILL_START, is answered, and acts. -/
def runDrill (s : State) (c : Caller) (a : DrillArgs) : State :=
  let op := mbRUN_DRILL
  match drillBad a with
  | some (k, d) => answer s c op k d []
  | none => match drillRefusal s a with
    | some d => answer s c op mDRILL_REFUSED d []
    | none =>
      let s := bump (modSpares s fun x => { x with drill := some { args := a, startedAt := s.now } }) cDRILLS_RUN
      drillAct (answerOk (raise s (drillRecord a eDRILL_START a.dkind a.target)) c op []) a

/-- RUN_DRILL (R471). -/
def execRunDrill (c : Caller) (a : DrillArgs) (s : State) : Out State Fault Refusal :=
  .next (mboxRun s c mbRUN_DRILL [] fun s => settle (runDrill s c a))

/-- ABORT_DRILL ends the running drill at its next safe point (R474). -/
def abortRunning (s : State) (c : Caller) : State :=
  let op := mbABORT_DRILL
  if s.spares.drill.isNone then answer s c op mOBJECT_STATE_CONFLICT 0 []
  else answerOk (cutDrill (modDrill s fun d => { d with aborted := true })) c op []

/-- ABORT_DRILL (R474). -/
def execAbortDrill (c : Caller) (s : State) : Out State Fault Refusal :=
  .next (mboxRun s c mbABORT_DRILL [] fun s => abortRunning s c)

/-! ### Logs (R462, R467, R475) -/

/-- The records a caller may read: the baseboard, FAILED and FATAL only (Table 16-3). -/
def readable (c : Caller) (r : EventRec) : Bool := callerClass c ≠ .baseboard || decide (3 ≤ r.sev)

/-- READ_EVENT_LOG: records from an EV_SEQ on; those read no longer assert ALERT_N (R467). -/
def readEvents (s : State) (c : Caller) (first m : Nat) : State :=
  let l := (s.events.ring.filter fun r => decide (first ≤ r.seq) && readable c r).take m
  let s := { s with events := { s.events with alert := s.events.alert.filter fun q => !(l.any fun r => r.seq = q) } }
  answerOk s c mbREAD_EVENT_LOG (recordList (l.map eventBytes))

/-- READ_EVENT_LOG (R462). -/
def execReadEventLog (c : Caller) (fromSeq max : Nat) (s : State) : Out State Fault Refusal :=
  .next (mboxRun s c mbREAD_EVENT_LOG [] fun s => readEvents s c fromSeq max)

/-- READ_DRILL_LOG: entries from an index on, the oldest being 0 (R475; log entry 20). -/
def execReadDrillLog (c : Caller) (fromIdx max : Nat) (s : State) : Out State Fault Refusal :=
  .next (mboxRun s c mbREAD_DRILL_LOG [] fun s =>
    answerOk s c mbREAD_DRILL_LOG (recordList (((s.spares.log.drop fromIdx).take max).map eventBytes)))

/-! ### The ends of drills (R471 to R474) -/

/-- An INJECT_CE drill's duration is over (R471). -/
def execDrillInjectEnd (s : State) : Out State Fault Refusal :=
  .next (match s.spares.drill with
    | some d => if d.args.dkind = 3 && due s d.startedAt (ms d.args.p1) then endInject s d else s
    | none => s)

/-- RESTORE_MS after a FAIL_LANE drill the lane is trained again (R471). -/
def execDrillLaneRestore (s : State) : Out State Fault Refusal :=
  .next (match s.spares.drill with
    | some d => if d.args.dkind = 2 && due s d.startedAt (ms d.args.p0) then drillRetrain s d else s
    | none => s)

/-- A displaced unit's self-test ends: it is a spare again, or stays retired with a record of cause 4 (R473). -/
def selfTested (s : State) (d : Drill) (k : UnitKind) (i : Nat) (passed : Bool) : State :=
  let die := unitDie k i
  let s :=
    if passed then modSpares s fun x => { x with spare := tset x.spare (k, die) (insertAsc d.oldSlot (freeSpares s k die)) }
    else raise s (markDrill s true { etype := eUNIT_DEGRADED, sev := sevDEGRADED, uclass := unitClass k, unit := i, arg0 := d.oldSlot, arg1 := 4 })
  endDrill s d d.effect

/-- A self-test ends (R473). -/
def execSelfTestEnd (kind : UnitKind) (index : Nat) (passed : Bool) (s : State) : Out State Fault Refusal :=
  .next (match s.spares.drill with
    | some d => if d.testing && decide (drillTarget d.args = some (kind, index)) then selfTested s d kind index passed else s
    | none => s)

end Sys2Proof.Machine
end

