-- ==== Sys2Proof/Machine/ReckonerRows.lean ====
section
/-! DEFINITION. The Reckoner: restarts, cores and UCIe modules (R25, R26, R460, R481, R512), and firmware images, staging and activation (R406, R509 to R513). -/

namespace Sys2Proof.Machine

/-- The state with the Reckoner block changed. -/
def modRkn (s : State) (f : Reckoner → Reckoner) : State := { s with rkn := f s.rkn }

/-! ### Images (R406, Table 14-1) -/

/-- The bytes of an image: its header, body and the signatures present. -/
def imageNeed (b : List Byte) : Nat := 256 + field b 4 4 + 29792 + (if field b 0x50 64 = 0 then 0 else 29792)

/-- The header fields that Table 14-1 fixes. -/
def headerWell (b : List Byte) : Bool := decide (field b 0 2 = 1 ∧ field b 2 2 = 0 ∧ field b 0x90 112 = 0)

/-- The owner's key and signature, where the fuse asks for them (R406). -/
def ownerWell (b : List Byte) : Bool :=
  let pk := (b.drop 0x50).take 64
  !Config.ownerSigReq || (decide (field b 0x50 64 ≠ 0) && decide (shake256 pk 64 = Config.ownerKeyDigest)
    && Config.slhVerify false pk (b.take 256) ((b.drop (256 + field b 4 4 + 29792)).take 29792))

/-- What is wrong with an image, as the DETAIL of `IMAGE_INVALID`; 0 for one that R406 accepts. -/
def imageError (b : List Byte) : Nat :=
  if 5183040 < field b 4 4 ∨ b.length < imageNeed b then 1
  else if !headerWell b then 2
  else if shake256 ((b.drop 256).take (field b 4 4)) 64 ≠ (b.drop 0x10).take 64 then 3
  else if !Config.slhVerify false Config.firmwareKey (b.take 256) ((b.drop (256 + field b 4 4)).take 29792) then 4
  else if !ownerWell b then 5
  else 0

/-- An image by its bytes. -/
def imageOf (b : List Byte) : Image := { bytes := b, version := field b 8 8, digest := (b.drop 0x10).take 64 }

/-! ### Restarts (R26, R460, R512) -/

/-- Commands that have begun no change of state end with `ABORTED_BY_UPDATE`; the answers leave when Dvorro is back (R510, R512). -/
def abortUnbegun (s : State) : State :=
  let l := (s.rkn.journal.filter fun j => !j.2).map (·.1)
  let s := { s with ten := { s.ten with reports := s.ten.reports.filter fun r => !(r.1 ∈ l) } }
  modRkn s fun x => { x with
    journal := x.journal.filter (·.2)
    carried := x.carried ++ l.map fun c => (c, { opcode := mbGET_ATTESTATION, cseq := c.cseq, completion := mABORTED_BY_UPDATE }) }

/-- A new image stops within 10 s of its activation: the stored one runs again (R511). -/
def fallBack (s : State) : State :=
  let old := s.rkn.running.version
  let s := abortUnbegun s
  let s := modRkn s fun x => { x with dvorro := .running, running := imageOf x.flash.bytes, activatedAt := none }
  let s := startAttestKey (breakPins (setEvt s aRECKONER_STATUS 18))
  event (drainEvents (sendCarried s)) eFIRMWARE_ACTIVATED sevINFO 0 0 s.rkn.running.version old

/-- The image activated has not yet served for 10 s. -/
def imageNew (s : State) : Bool :=
  match s.rkn.activatedAt with
  | some t => !due s t (ms 10000) && !s.rkn.flashWrite
  | none => false

/-- The watchdog restarts Dvorro; a new image that stops so soon gives way to the stored one (R460, R511). -/
def watchdogActs (s : State) : State :=
  if s.rkn.dvorro ≠ .running then s else if imageNew s then settle (fallBack s) else restartDvorro s

/-- 100 ms without a heartbeat (R460). -/
def execWatchdogRestart (s : State) : Out State Fault Refusal := .next (watchdogActs s)

/-- Dvorro is back: commands are completed or aborted by their journal, waiting answers and records leave, and a RESTART_DVORRO drill ends (R467, R472, R512). -/
def dvorroBack (s : State) : State :=
  if s.rkn.dvorro ≠ .restarting then s
  else
    let s := modRkn (abortUnbegun s) fun x => { x with dvorro := .running }
    let s := drainEvents (sendCarried (setEvt s aRECKONER_STATUS 16))
    match s.spares.drill with
    | some d => if d.args.dkind = 5 then endDrill s d (s.now - d.startedAt) else s
    | none => s

/-- The restart of Dvorro ends (R512). -/
def execDvorroRestartEnd (s : State) : Out State Fault Refusal := .next (dvorroBack s)

/-- A Reckoner core fails: a spare takes over, for which Dvorro starts again, or at five cores service is restricted (R26). -/
def loseCore (s : State) (core : Nat) : State :=
  if 8 ≤ core ∨ core ∈ s.rkn.coresLost ∨ s.supply.phase < 3 then s
  else
    let s := modRkn s fun x => { x with coresLost := x.coresLost ++ [core] }
    let s := event s eCORE_FAILED (if coresLeft s ≤ 5 then sevFAILED else sevCORRECTED) 13 core core (coresLeft s)
    if 6 ≤ coresLeft s ∧ s.rkn.dvorro = .running then restartDvorro s else s

/-- A core fails (R26). -/
def execCoreFailure (core : Nat) (s : State) : Out State Fault Refusal := .next (loseCore s core)

/-! ### UCIe modules (R25, R481) -/

/-- A UCIe module changed. -/
def modUcie (s : State) (n : Nat) (f : Ucie → Ucie) : State := modRkn s fun x => { x with ucie := tset x.ucie n (f (tgetD x.ucie n {})) }

/-- A module loses its link: its control traffic detours (R25, R481). -/
def ucieLost (s : State) (n : Nat) : State :=
  if 4 ≤ n ∨ s.supply.phase < 2 ∨ (tgetD s.rkn.ucie n {}).lostAt.isSome then s
  else modUcie s n fun u => { u with lostAt := some s.now }

/-- A UCIe module loses its link (R481). -/
def execUcieLinkLoss (module : Nat) (s : State) : Out State Fault Refusal := .next (ucieLost s module)

/-- A module not retrained 10 ms after it lost its link counts as failed (R25, R481). -/
def ucieFails (s : State) (n : Nat) : State :=
  let u := tgetD s.rkn.ucie n {}
  match u.lostAt with
  | some t => if !u.failed && due s t (ms 10) then event (modUcie s n fun u => { u with failed := true }) eUCIE_DOWN sevDEGRADED 14 n n 0 else s
  | none => s

/-- A UCIe module counts as failed (R481). -/
def execUcieRetrainTimeout (module : Nat) (s : State) : Out State Fault Refusal := .next (ucieFails s module)

/-- A module retrains: one that had failed is told of, and what waited for any module goes on (R25, R467, R481). -/
def ucieBack (s : State) (n : Nat) : State :=
  let u := tgetD s.rkn.ucie n {}
  if u.lostAt.isNone then s
  else
    let s := modUcie s n fun u => { u with lostAt := none, failed := false }
    let s := if s.rkn.dvorro = .running then drainEvents (sendCarried s) else s
    if u.failed then event s eUCIE_UP sevINFO 14 n n 0 else s

/-- A UCIe module returns (R481). -/
def execUcieReturn (module : Nat) (s : State) : Out State Fault Refusal := .next (ucieBack s module)

/-! ### Staging and activation (R509 to R511, R513) -/

/-- The staging partition: 5 MiB (R480). -/
def stagingBytes : Nat := 5242880

/-- STAGE_FIRMWARE (R509). -/
def stageImage (s : State) (c : Caller) (offset : Nat) (data : List Byte) : State :=
  let op := mbSTAGE_FIRMWARE
  if stagingBytes < offset + data.length then answer s c op mARGUMENT_INVALID 0 []
  else
    let put (t : Table Nat Byte) : Table Nat Byte := (List.range data.length).foldl (fun t i => tset t (offset + i) (data.getD i 0)) t
    answerOk (modRkn s fun x => { x with staging := put x.staging, stagedValid := false }) c op []

/-- STAGE_FIRMWARE (R509). -/
def execStageFirmware (c : Caller) (offset : Nat) (data : List Byte) (s : State) : Out State Fault Refusal :=
  .next (mboxRun s c mbSTAGE_FIRMWARE [] fun s => stageImage s c offset data)

/-- The first bytes of the staging partition. -/
def stagedBytes (s : State) (n : Nat) : List Byte := (List.range n).map fun i => tgetD s.rkn.staging i 0

/-- What VERIFY_FIRMWARE finds: LENGTH is that of the image, and the image passes R406. -/
def verifyError (s : State) (n : Nat) : Nat :=
  let b := stagedBytes s n
  if stagingBytes < n ∨ n < 256 ∨ imageNeed b ≠ n then 1 else imageError b

/-- VERIFY_FIRMWARE (R509). -/
def verifyImage (s : State) (c : Caller) (n : Nat) : State :=
  let op := mbVERIFY_FIRMWARE
  let e := verifyError s n
  if e ≠ 0 then answer s c op mIMAGE_INVALID e []
  else
    let im := imageOf (stagedBytes s n)
    answerOk (modRkn s fun x => { x with staged := im, stagedValid := true }) c op (padTo 64 im.digest ++ le 8 im.version)

/-- VERIFY_FIRMWARE (R509). -/
def execVerifyFirmware (c : Caller) (length : Nat) (s : State) : Out State Fault Refusal :=
  .next (mboxRun s c mbVERIFY_FIRMWARE [] fun s => verifyImage s c length)

/-- ACTIVATE_FIRMWARE (R510): the window opens and Dvorro takes no more commands; in identity-and-fetch mode the image is written to flash first (R513). -/
def activateImage (s : State) (c : Caller) (digest : List Byte) : State :=
  let op := mbACTIVATE_FIRMWARE
  if !s.rkn.stagedValid then answer s c op mIMAGE_INVALID 7 []
  else if digest ≠ s.rkn.staged.digest then answer s c op mIMAGE_INVALID 6 []
  else if s.rkn.activation.isSome then answer s c op mOBJECT_STATE_CONFLICT 0 []
  else if s.rkn.dvorro = .fetch then modRkn s fun x => { x with flashWrite := true, activation := some (c, s.now) }
  else modRkn s fun x => { x with dvorro := .activating, activation := some (c, s.now) }

/-- ACTIVATE_FIRMWARE (R510). -/
def execActivateFirmware (c : Caller) (digest : List Byte) (s : State) : Out State Fault Refusal :=
  .next (mboxRun s c mbACTIVATE_FIRMWARE [] fun s => activateImage s c digest)

/-- Commands started before the activation and not yet done. -/
def stillRunning (s : State) (c : Caller) : Bool := s.rkn.journal.any fun j => decide (j.1 ≠ c) && !(s.rkn.carried.any fun e => e.1 = j.1)

/-- The new image starts: pinned slots of another digest begin their removal, the attestation key is derived again, ACTIVATE is answered, then what was carried over (R405, R418, R510). -/
def startImage (s : State) (c : Caller) : State :=
  let old := s.rkn.running.version
  let s := abortUnbegun s
  let s := modRkn s fun x => { x with running := x.staged, activation := none, activatedAt := some s.now }
  let s := setEvt (startAttestKey (breakPins s)) aRECKONER_STATUS 17
  let s := modRkn s fun x => { x with dvorro := .running }
  let s := drainEvents (sendCarried (deliver s c { opcode := mbACTIVATE_FIRMWARE, cseq := c.cseq, completion := mSUCCESS }))
  event s eFIRMWARE_ACTIVATED sevINFO 0 0 s.rkn.running.version old

/-- 100 ms after ACTIVATE, or once the commands started are done (R510). -/
def windowEnds (s : State) : State :=
  match s.rkn.activation with
  | some (c, t) => if s.rkn.dvorro = .activating ∧ (due s t (ms 100) ∨ stillRunning s c = false) then startImage s c else s
  | none => s

/-- The activation window ends (R510). -/
def execActivationWindowEnd (s : State) : Out State Fault Refusal := .next (settle (windowEnds s))

/-- QUERY_FIRMWARE; FLASH_STATE is 1 while the image is being written. -/
def queryImages (s : State) (c : Caller) : State :=
  let st : Image := if s.rkn.stagedValid then s.rkn.staged else {}
  answerOk s c mbQUERY_FIRMWARE (le 8 s.rkn.running.version ++ le 8 st.version ++ le 1 (flag s.rkn.stagedValid) ++ le 1 (flag s.rkn.flashWrite)
    ++ zeros 6 ++ padTo 64 s.rkn.running.digest ++ padTo 64 st.digest)

/-- QUERY_FIRMWARE (R505). -/
def execQueryFirmware (c : Caller) (s : State) : Out State Fault Refusal :=
  .next (mboxRun s c mbQUERY_FIRMWARE [] fun s => queryImages s c)

/-- The new image has served for 10 s: its write to flash begins (R511). -/
def flashBegins (s : State) : State :=
  match s.rkn.activatedAt with
  | some t => if due s t (ms 10000) ∧ s.rkn.dvorro = .running then modRkn s fun x => { x with flashWrite := true } else s
  | none => s

/-- The write of the image to flash begins (R511). -/
def execFlashWriteStart (s : State) : Out State Fault Refusal := .next (flashBegins s)

/-- The write ends; in identity-and-fetch mode ACTIVATE is answered and the Reckoner restarts from phase IMAGE (R511, R513). -/
def flashEnds (s : State) : State :=
  if !s.rkn.flashWrite then s
  else match s.rkn.activation with
    | some (c, _) =>
      let s := modRkn s fun x => { x with flash := x.staged, flashWrite := false, activation := none }
      modRkn (answerOk s c mbACTIVATE_FIRMWARE []) fun x => { x with dvorro := .rom }
    | none => modRkn s fun x => { x with flash := x.running, flashWrite := false, activatedAt := none }

/-- The write of the image to flash ends (R511). -/
def execFlashWriteEnd (s : State) : Out State Fault Refusal := .next (flashEnds s)

/-- A new image stops within 10 s (R511). -/
def execFirmwareFallback (s : State) : Out State Fault Refusal := .next (if imageNew s then settle (fallBack s) else s)

end Sys2Proof.Machine
end

