-- ==== Sys2Proof/Machine/MailboxRows.lean ====
section
/-! DEFINITION. Mailboxes: slots, their sequence and assembly (R485 to R491), host rings (R492, R493), management datagrams and sessions (R494 to R501), the baseboard controller (R502, R503, R557), and the commands that concern them. -/

namespace Sys2Proof.Machine

/-! ### The packing of arguments (R487, Table 17-8) -/

/-- The arguments of a command: the sizes of its fields, the field that counts the entries of a list and the sizes of an entry's fields, and whether bytes to the end follow. -/
structure ArgShape where
  fields : List Nat := []
  count : Option (Nat × List Nat) := none
  rest : Bool := false
  deriving DecidableEq, Repr

/-- The alignment of a field: its size, or 8 for a byte string. -/
def alignOf (n : Nat) : Nat := if n = 1 ∨ n = 2 ∨ n = 4 then n else 8

/-- Where a field after `pos` starts. -/
def alignTo (a pos : Nat) : Nat := ceilDiv pos a * a

/-- The offsets of fields laid from `pos`, and the end. -/
def layFields : Nat → List Nat → List Nat × Nat
  | pos, [] => ([], pos)
  | pos, n :: r =>
    let at_ := alignTo (alignOf n) pos
    let (l, e) := layFields (at_ + n) r
    (at_ :: l, e)

/-- The byte offsets that no field of a layout covers. -/
def gapBytes : Nat → List Nat → List Nat
  | _, [] => []
  | pos, n :: r =>
    let at_ := alignTo (alignOf n) pos
    (List.range (at_ - pos)).map (pos + ·) ++ gapBytes (at_ + n) r

/-- The size of a list's entry: padded to the largest alignment of its members. -/
def entrySize (l : List Nat) : Nat := alignTo ((l.map alignOf).foldl max 1) (layFields 0 l).2

/-- The offsets that an entry's gaps and padding take. -/
def entryGaps (at_ : Nat) (l : List Nat) : List Nat :=
  let e := (layFields 0 l).2
  ((gapBytes 0 l) ++ (List.range (entrySize l - e)).map (e + ·)).map (at_ + ·)

/-- The shape of a command's arguments; `tenant` adds TTAG where R483 asks for it. -/
def argShape (op : Nat) : Option ArgShape :=
  if op ∈ [mbGET_IDENTITY, mbGET_STATUS, mbCLOSE_SESSION, mbQUERY_FIRMWARE, mbFLUSH_NEAR_TIER, mbGET_IDENTITY_CHAIN, mbDRAIN_MODULE, mbABORT_DRILL] then some {}
  else if op = mbOPEN_SESSION then some { fields := [1, 32, 1568, 49856] }
  else if op = mbSET_MANAGER_KEYS then some { fields := [1], count := some (0, [64]) }
  else if op = mbBIND_HOST_MAILBOX then some { fields := [1, 2] }
  else if op = mbREAD_REGISTER then some { fields := [4, 2, 1] }
  else if op = mbWRITE_REGISTER then some { fields := [4, 4, 4] }
  else if op ∈ [mbCOMMIT_GROUP, mbDISCARD_GROUP, mbUNLOAD_SIEVE_PROGRAM, mbQUERY_SIEVE_PROGRAM, mbCLOSE_MOVER_CHANNEL, mbQUERY_MOVER_CHANNEL,
      mbRELEASE_BEAD_CHANNEL, mbQUERY_BEAD_CHANNEL] then some { fields := [1] }
  else if op = mbSTAGE_FIRMWARE then some { fields := [4], rest := true }
  else if op ∈ [mbVERIFY_FIRMWARE, mbQUERY_WINDOW, mbCLOSE_REDUCTION, mbABORT_REDUCTION, mbQUERY_REDUCTION] then some { fields := [4] }
  else if op ∈ [mbACTIVATE_FIRMWARE, mbGET_ATTESTATION] then some { fields := [64] }
  else if op ∈ [mbRETIRE_LANE, mbRETRAIN_LANE, mbRELEASE_FLAP_HOLD, mbREMOVE_JOB, mbDECLARE_TRAY_LOST, mbREMOVE_TENANT, mbQUERY_KEY_SLOT] then some { fields := [2] }
  else if op = mbSET_PORT_JOBS then some { fields := [2, 2], count := some (1, [2]) }
  else if op = mbINSTALL_JOB then some { fields := [2, 1, 2, 4, 4, 8, 8, 2048] }
  else if op = mbWRITE_TT_ENTRIES then some { fields := [2, 1, 2, 2, 8], count := some (3, [8]) }
  else if op = mbRESOLVE_FAULT then some { fields := [2, 1, 1, 4, 8] }
  else if op = mbOPEN_WINDOW then some { fields := [2, 1, 1, 2, 8, 8, 8] }
  else if op = mbREVOKE_WINDOW then some { fields := [1, 8] }
  else if op = mbSET_WINDOW_QUOTA then some { fields := [2, 4] }
  else if op = mbATTACH_AGENT then some { fields := [1, 2, 2] }
  else if op ∈ [mbDETACH_AGENT, mbSET_MOVER_PRIORITY] then some { fields := [1, 1] }
  else if op = mbRESTORE_PAGES then some { fields := [2, 2, 8], rest := true }
  else if op = mbCREATE_PUBLISH_REGION then some { fields := [2, 1, 1, 2, 2, 2, 2, 2, 2, 2, 2, 8, 8, 8] }
  else if op = mbDELETE_PUBLISH_REGION then some { fields := [2, 8] }
  else if op = mbOPEN_REDUCTION then
    some { fields := [4, 2, 1, 1, 1, 1, 1, 1, 1, 1, 1, 2, 2, 2, 2, 4, 4, 4, 8, 8, 8, 2], count := some (21, [2, 2, 4]) }
  else if op = mbLOAD_SIEVE_PROGRAM then some { fields := [1, 1, 1, 2, 2], count := some (2, [8]) }
  else if op = mbOPEN_MOVER_CHANNEL then some { fields := [1, 1, 1, 2, 8] }
  else if op ∈ [mbASSIGN_BEAD_CHANNEL, mbQUERY_MAP, mbRETIRE_UNIT] then some { fields := [1, 2] }
  else if op = mbSET_GATE_SCHEDULE then some { fields := [2], rest := true }
  else if op = mbSET_TALLY_SESSION then some { fields := [1, 1, 1, 1, 1, 1, 1, 2, 2, 2, 2] }
  else if op = mbREAD_TALLY then some { fields := [1, 4] }
  else if op ∈ [mbALLOCATE_KEY_SLOT, mbREAD_DRILL_LOG] then some { fields := [2, 2] }
  else if op = mbINSTALL_TENANT_KEY then some { rest := true }
  else if op = mbSET_KEY_GRANT then some { fields := [152, 29792] }
  else if op = mbPROPOSE_MAP then some { fields := [1, 1, 2], count := some (2, [32]) }
  else if op = mbSET_PORT_ROLE then some { fields := [2, 1] }
  else if op = mbRUN_DRILL then some { fields := [1, 2, 4, 8, 8] }
  else if op = mbREAD_EVENT_LOG then some { fields := [4, 2] }
  else none

/-- A tenant-class command ends its arguments with TTAG, but for those that carry their own authentication or none (R483). -/
def withTag (op : Nat) (tenant : Bool) (x : ArgShape) : ArgShape :=
  if tenant && !(op ∈ [mbGET_ATTESTATION, mbGET_IDENTITY_CHAIN, mbINSTALL_TENANT_KEY, mbSET_KEY_GRANT]) && x.count.isNone && !x.rest then
    { x with fields := x.fields ++ [32] }
  else x

/-- The first byte that is not zero among some offsets. -/
def firstSet (b : List Byte) (l : List Nat) : Option Nat := l.find? fun i => b.getD i 0 ≠ 0

/-- The first offending byte of some arguments, if they are not packed as their shape says (R5, R487, Table 17-7). -/
def shapeBad (x : ArgShape) (b : List Byte) : Option Nat :=
  let (offs, e) := layFields 0 x.fields
  if b.length < e then some b.length
  else match firstSet b (gapBytes 0 x.fields) with
    | some i => some i
    | none =>
      match x.count, x.rest with
      | some (k, l), _ =>
        let n := field b (offs.getD k 0) (x.fields.getD k 0)
        let a := (l.map alignOf).foldl max 1
        let start := if n = 0 then e else alignTo a e
        let stop := start + n * entrySize l
        if b.length < stop then some b.length
        else if stop < b.length then some stop
        else firstSet b ((List.range (start - e)).map (e + ·) ++ (List.range n).flatMap fun i => entryGaps (start + i * entrySize l) l)
      | none, true => firstSet b ((List.range (min b.length (alignTo 8 e) - e)).map (e + ·))
      | none, false => if e < b.length then some e else none

/-! ### Slots (R485 to R490) -/

/-- The slot that 256 bytes hold (Table 17-3). -/
def slotOf (b : List Byte) : MboxSlot :=
  let f := field b 2 2
  let g := field b 24 8
  let n := field b 8 2
  { opcode := field b 0 2, more := bit f 0, tenant := bit f 1, cseq := field b 4 4, len := n, part := field b 10 2, total := field b 12 4
    session := field b 16 8, tslot := g % 1024, rsv := f / 4 + 2 ^ 14 * (g / 1024), args := (b.drop 32).take (min n 224) }

/-- The sender of a slot. -/
def slotCaller (s : State) (m : MboxId) (sl : MboxSlot) : Caller :=
  let src := match m with
    | .fm i => (match tget s.rkn.sessions i with
      | some e => e.id
      | none => 0)
    | .host _ => 0
    | .baseboard => sl.src
    | .clear _ => sl.src
  { mbox := m, cseq := sl.cseq, tenant := sl.tenant, tslot := sl.tslot, src := src }

/-- An answer to a slot that starts no command: kept for a repetition where its slot was taken, counted and sent (R486, R488). -/
def slotAnswer (s : State) (m : MboxId) (sl : MboxSlot) (completion detail : Nat) : State :=
  let c := slotCaller s m sl
  let r : Response := { opcode := sl.opcode, cseq := sl.cseq, completion := completion, detail := detail }
  let b := mboxOf s m
  let s := setMbox s m { b with stored := b.stored.map fun e => if e.1 = sl.cseq then (e.1, some r) else e }
  let s := modRkn s fun x => { x with answers := (m, r) :: x.answers }
  sendResponse (if completion ≤ 1 then s else bump s cMBOX_ERRORS) c r

/-- What the header of a slot gets wrong, as completion and DETAIL (R5, R485). -/
def headerBad (s : State) (m : MboxId) (sl : MboxSlot) : Option (Nat × Nat) :=
  let home := match m with
    | .fm i => (match tget s.rkn.sessions i with
      | some e => decide (sl.session = e.id)
      | none => false)
    | _ => true
  let other := match m with
    | .fm _ => false
    | _ => decide (sl.session ≠ 0)
  if !home then some (mSESSION_INVALID, 0)
  else if other || decide (sl.rsv ≠ 0 ∨ 224 < sl.len ∨ sl.args.length ≠ sl.len) || (!sl.tenant && decide (sl.tslot ≠ 0)) then some (mMALFORMED_COMMAND, 0)
  else none

/-- The module does not serve a slot's opcode now: before READY, or on a clear mailbox (R491, R496, R513). -/
def notServed (s : State) (m : MboxId) (op : Nat) : Option (Nat × Nat) :=
  let fetch := decide (s.rkn.dvorro = .fetch) && op ∈ fetchOps
  if isClear m && !(op ∈ [mbGET_IDENTITY, mbGET_STATUS, mbOPEN_SESSION]) && !fetch then some (mSESSION_INVALID, 0)
  else if !isReady s && !(op ∈ [mbGET_IDENTITY, mbGET_STATUS]) && !fetch then some (mNOT_READY, s.supply.phase)
  else none

/-- A command taken whole: unknown, not allowed or malformed, it is answered; otherwise Dvorro starts it in turn (R490, R505). -/
def takeWhole (s : State) (c : Caller) (op : Nat) (args : List Byte) : State :=
  match argShape op with
  | none => answer (startCmd s c) c op mCOMMAND_UNKNOWN 0 []
  | some x =>
    match gate s c op [] with
    | .deny k d => answer (startCmd s c) c op k d []
    | _ => match shapeBad (withTag op (callerClass c = .tenant) x) args with
      | some d => answer (startCmd s c) c op mMALFORMED_COMMAND d []
      | none =>
        let b := mboxOf s c.mbox
        setMbox s c.mbox { b with takenCmds := b.takenCmds ++ [{ caller := c, opcode := op, args := args }] }

/-- The size of the buffer that a mailbox assembles in (R489, R497). -/
def bufferSize (m : MboxId) : Nat :=
  match m with
  | .fm _ => 262144
  | .clear _ => 65536
  | _ => 32768

/-- A buffer is free: the host and baseboard mailboxes share eight (R489). -/
def bufferFree (s : State) (m : MboxId) : Bool :=
  match m with
  | .fm _ | .clear _ => true
  | _ => (s.rkn.mboxes.filter fun e => e.2.asm.isSome && (match e.1 with
    | .host _ | .baseboard => true
    | _ => false)).length < 8

/-- The assembly of a mailbox replaced. -/
def setAsm (s : State) (m : MboxId) (a : Option Assembling) : State := setMbox s m { mboxOf s m with asm := a }

/-- The first part of a command, or a command of one part (R489; how soon to try again is open, log entry 3). -/
def firstPart (s : State) (m : MboxId) (sl : MboxSlot) : State :=
  if !sl.more then
    if sl.total ≠ sl.len then slotAnswer s m sl mMALFORMED_COMMAND 0 else takeWhole s (slotCaller s m sl) sl.opcode sl.args
  else if bufferSize m < sl.total then slotAnswer s m sl mMALFORMED_COMMAND 0
  else if !bufferFree s m then
    let (v, s) := drawFree s
    slotAnswer s m sl mMAILBOX_BUSY (v % 2 ^ 32)
  else
    slotAnswer (setAsm s m (some { opcode := sl.opcode, total := sl.total, nextPart := 1, nextCseq := (sl.cseq + 1) % 2 ^ 32, args := sl.args
                                   tenant := sl.tenant, tslot := sl.tslot, src := sl.src, lastAt := s.now })) m sl mCONTINUE 0

/-- A part continues an assembly. -/
def continues (a : Assembling) (sl : MboxSlot) : Bool :=
  decide (sl.opcode = a.opcode ∧ sl.total = a.total ∧ sl.part = a.nextPart ∧ sl.cseq = a.nextCseq ∧ sl.tslot = a.tslot ∧ sl.src = a.src)
    && sl.tenant = a.tenant && decide (a.args.length + sl.len ≤ a.total)

/-- A later part: gathered, or with the last the command is taken whole (R489). -/
def nextPart (s : State) (m : MboxId) (a : Assembling) (sl : MboxSlot) : State :=
  let args := a.args ++ sl.args
  if !continues a sl then slotAnswer (setAsm s m none) m sl mMALFORMED_COMMAND 0
  else if sl.more then
    slotAnswer (setAsm s m (some { a with args := args, nextPart := a.nextPart + 1, nextCseq := (sl.cseq + 1) % 2 ^ 32, lastAt := s.now })) m sl mCONTINUE 0
  else if args.length ≠ a.total then slotAnswer (setAsm s m none) m sl mMALFORMED_COMMAND 0
  else takeWhole (setAsm s m none) (slotCaller s m sl) a.opcode args

/-- A slot is acted on (R489, R491). -/
def runSlot (s : State) (m : MboxId) (sl : MboxSlot) : State :=
  match headerBad s m sl, notServed s m sl.opcode, (mboxOf s m).asm with
  | some (k, d), _, _ => slotAnswer (setAsm s m none) m sl k d
  | none, some (k, d), _ => slotAnswer s m sl k d
  | none, none, some a => nextPart s m a sl
  | none, none, none => if sl.part ≠ 0 then slotAnswer s m sl mMALFORMED_COMMAND 0 else firstPart s m sl

/-! ### Sequence (R488, R497) -/

/-- The slot of the next CSEQ is taken. -/
def takeTurn (s : State) (m : MboxId) (sl : MboxSlot) : State :=
  let b := mboxOf s m
  runSlot (setMbox s m { b with
    nextCseq := (b.nextCseq + 1) % 2 ^ 32, held := b.held.filter fun h => h.cseq ≠ sl.cseq, stored := ((sl.cseq, none) :: b.stored).take 64 }) m sl

/-- Held slots whose turn has come are taken. -/
def takeHeld (m : MboxId) : Nat → State → State
  | 0, s => s
  | fuel + 1, s =>
    match (mboxOf s m).held.find? fun h => h.cseq = (mboxOf s m).nextCseq with
    | some sl => takeHeld m fuel (takeTurn s m sl)
    | none => s

/-- A slot by its CSEQ: taken, held, stale, or answered again (R488). -/
def sequenceSlot (s : State) (m : MboxId) (sl : MboxSlot) : State :=
  let b := mboxOf s m
  let d := gap 32 sl.cseq b.nextCseq
  if d = 0 then takeHeld m (b.held.length + 1) (takeTurn s m sl)
  else if d ≤ 63 then setMbox s m { b with held := b.held.filter (fun h => h.cseq ≠ sl.cseq) ++ [sl] }
  else match (if d < 2 ^ 31 then none else b.stored.find? fun e => e.1 = sl.cseq) with
    | some (_, some r) => sendResponse s (slotCaller s m sl) r
    | some (_, none) => s
    | none => slotAnswer s m sl mSEQUENCE_STALE 0

/-- A slot of a clear mailbox (R497). -/
def clearSlot (s : State) (m : MboxId) (sl : MboxSlot) : State :=
  let b := mboxOf s m
  match b.clearStored.find? fun e => e.1 = sl.src && e.2.1 = sl.cseq with
  | some e =>
    let s := setMbox s m { b with clearStored := b.clearStored.filter fun x => !(x.1 = sl.src && x.2.1 = sl.cseq) }
    sendResponse s (slotCaller s m sl) e.2.2
  | none => match headerBad s m sl, notServed s m sl.opcode, b.asm with
    | some (k, d), _, _ => slotAnswer (setAsm s m none) m sl k d
    | none, some (k, d), _ => slotAnswer s m sl k d
    | none, none, some a =>
      if sl.part ≠ 0 then nextPart s m a sl
      else if a.src ≠ sl.src ∧ s.now < a.lastAt + ms 100 then slotAnswer s m sl mMAILBOX_BUSY (ceilDiv (a.lastAt + ms 100 - s.now) (ms 1))
      else firstPart (setAsm s m none) m sl
    | none, none, none => if sl.part ≠ 0 then slotAnswer s m sl mMALFORMED_COMMAND 0 else firstPart s m sl

/-- The slot that a host mailbox takes next, at CMD_HEAD (R492). -/
def hostTakes (s : State) (i : Nat) (sl : MboxSlot) : State :=
  let b := mboxOf s (.host i)
  if b.bound.isNone ∨ b.cmdHead = b.cmdTail ∨ slotOf (tgetD b.slots (b.cmdHead % 64) []) ≠ sl then s
  else sequenceSlot (setMbox s (.host i) { b with cmdHead := (b.cmdHead + 1) % 65536 }) (.host i) sl

/-- A command slot arrives in a mailbox; while the Reckoner does not serve, a host's waits in its ring and any other is discarded (R493, R510). -/
def arriveSlot (s : State) (m : MboxId) (sl : MboxSlot) : State :=
  if !takesSlots s m then s
  else match m with
    | .host i => hostTakes s i sl
    | .fm i => if thas s.rkn.sessions i then sequenceSlot s m sl else s
    | .baseboard => sequenceSlot s m sl
    | .clear _ => clearSlot s m sl

/-- A command slot arrives (R488). -/
def execMailboxSlot (m : MboxId) (sl : MboxSlot) (s : State) : Out State Fault Refusal := .next (arriveSlot s m sl)

/-! ### Sessions (R495 to R501) -/

/-- A session's state replaced. -/
def putSession (s : State) (i : Nat) (e : Session) : State := modRkn s fun x => { x with sessions := tset x.sessions i e }

/-- A session closes: its keys and its unsent responses are gone, its started commands run to completion (R500). -/
def closeOne (s : State) (i : Nat) : State :=
  let s := modRkn s fun x => { x with sessions := tdel x.sessions i }
  setMbox s (.fm i) { started := (mboxOf s (.fm i)).started }

/-- Response slots of a session sent, five to a datagram, from a response index on. -/
def sendFrom (s : State) (i first : Nat) (slots : List (List Byte)) : State :=
  ((chunks 5 slots.length slots).foldl (fun (st : State × Nat) g =>
    ((match tget st.1.rkn.sessions i with
      | some e => sendSealed st.1 i e st.2 g
      | none => st.1), st.2 + g.length)) (s, first)).1

/-- RACK moves on: the slots it covers are done, and those that come within the 64 are sent (R501). -/
def takeRack (s : State) (i : Nat) (e : Session) (rack : Nat) : State :=
  let k := rack - e.rack
  if rack ≤ e.rack ∨ min 64 e.unacked.length < k then s
  else
    let left := e.unacked.drop k
    let s := putSession s i { e with rack := rack, unacked := left, resendAt := s.now + ms 20, resendWait := ms 20 }
    sendFrom s i (rack + (64 - k)) ((left.take 64).drop (64 - k))

/-- The session an identifier names. -/
def sessionOf (s : State) (id : Nat) : Option (Nat × Session) := s.rkn.sessions.find? fun e => e.2.id = id

/-- A SEALED datagram: authenticated, checked against replay, and its slots and RACK taken (R496). -/
def takeSealed (s : State) (d : Datagram) : State :=
  match sessionOf s d.sessionId with
  | none => bump s cDGRAM_AUTH_FAIL
  | some (i, e) =>
    if !d.tagOk || d.dseq = 0 then bump s cDGRAM_AUTH_FAIL
    else if d.dseq + 1024 ≤ e.high ∨ d.dseq ∈ e.seen then bump s cDGRAM_REPLAY_DROP
    else
      let high := max e.high d.dseq
      let e := { e with high := high, seen := (d.dseq :: e.seen).filter fun q => high < q + 1024, lastValid := s.now, port := d.port }
      let s := takeRack (putSession s i e) i e d.rpos
      let s := d.slots.foldl (fun st sl => arriveSlot st (.fm i) { sl with src := 0 }) s
      let last := match tget s.rkn.sessions i with
        | some e => decide (2 ^ 63 ≤ d.dseq + 1 ∨ 2 ^ 63 ≤ e.dseqOut + 1)
        | none => false
      if last then closeOne s i else s

/-- A mailbox datagram arrives on a management port, from the end of phase ROM (R495, R496, Table 19-2). -/
def takeDatagram (s : State) (d : Datagram) : State :=
  if !takesSlots s (.clear 0) ∨ 2 ≤ d.port then s
  else
    let s := bump s cDGRAM_RX
    if d.rsv ≠ 0 ∨ 5 < d.slots.length then s
    else if d.dkind = 1 then takeSealed s d
    else if d.dkind = 0 ∧ d.sessionId = 0 ∧ d.dseq = 0 then d.slots.foldl (fun st sl => arriveSlot st (.clear d.port) { sl with src := d.src }) s
    else s

/-- A mailbox datagram arrives (R496). -/
def execMgmtDatagram (d : Datagram) (s : State) : Out State Fault Refusal := .next (takeDatagram s d)

/-- Response slots that RACK does not cover are sent again after 20 ms, doubling up to 1 s (R501). -/
def resendSlots (s : State) (i : Nat) : State :=
  match tget s.rkn.sessions i with
  | some e =>
    if e.unacked = [] ∨ s.now < e.resendAt then s
    else
      let w := min (ms 1000) (2 * e.resendWait)
      sendFrom (putSession s i { e with resendWait := w, resendAt := s.now + w }) i e.rack (e.unacked.take 64)
  | none => s

/-- Response slots are sent again (R501). -/
def execResponseResend (session : Nat) (s : State) : Out State Fault Refusal := .next (resendSlots s session)

/-- A session is idle: no valid datagram for 60 s (R500). -/
def sessionIdle (s : State) (i : Nat) : Bool :=
  match tget s.rkn.sessions i with
  | some e => due s e.lastValid (ms 60000)
  | none => false

/-- A session without a valid datagram for 60 s closes (R500). -/
def execSessionIdleTimeout (session : Nat) (s : State) : Out State Fault Refusal := .next (if sessionIdle s session then closeOne s session else s)

/-- The arguments of OPEN_SESSION before MGR_SIG (R487). -/
def openArgs (a : OpenSessionArgs) : List Byte := le 1 a.keyIdx ++ zeros 7 ++ padTo 32 a.nonce ++ padTo 1568 a.kemCt

/-- MGR_SIG verifies under the manager key that KEYIDX names (R498). -/
def managerSigned (s : State) (a : OpenSessionArgs) : Bool :=
  match s.rkn.managerKeys[a.keyIdx]? with
  | some pk => Config.slhVerify true pk (openArgs a ++ padTo 16 s.ten.bootId) a.mgrSig
  | none => false

/-- The session that an OPEN_SESSION gets: one that is free, or else idle (R500). -/
def sessionFor (s : State) : Option Nat :=
  match [0, 1].find? fun i => !thas s.rkn.sessions i with
  | some i => some i
  | none => [0, 1].find? (sessionIdle s)

/-- How long until one of the open sessions may be replaced, in ms. -/
def sessionWait (s : State) : Nat :=
  let t := ([0, 1].filterMap fun i => (tget s.rkn.sessions i).map (·.lastValid)).min?.getD 0
  ceilDiv (t + ms 60000 - s.now) (ms 1)

/-- The session begins: identity and nonce drawn, keys derived, and the module's signed answer (R498; log entry 3). -/
def beginSession (s : State) (c : Caller) (a : OpenSessionArgs) (i : Nat) : State :=
  let port := match c.mbox with
    | .clear p => p
    | _ => 0
  let ss := Config.kemOpen s.ten.kemKey a.kemCt
  let (v, s) := drawFree s
  let (w, s) := drawFree s
  let id := v % (2 ^ 64 - 1) + 1
  let td := shake256 (openArgs a ++ le 8 id ++ le 32 w) 64
  let keys := padTo 64 (kmacStr ss td 64 "KYD-1280 SESSION")
  let cert := Config.attestCert (Config.slhPublic true s.ten.akSeeds)
  let s := putSession (closeOne s i) i { id := id, keyIn := keys.take 32, keyOut := keys.drop 32, lastValid := s.now, port := port }
  answerOk s c mbOPEN_SESSION (le 8 id ++ le 32 w ++ padTo 49856 (Config.slhSign true s.ten.akSeeds td) ++ le 4 cert.length ++ zeros 4 ++ cert)

/-- OPEN_SESSION (R498, R500). -/
def openSession (s : State) (c : Caller) (a : OpenSessionArgs) : State :=
  let op := mbOPEN_SESSION
  if !isClear c.mbox then answer s c op mPRIVILEGE_DENIED 0 []
  else if a.nonce.length ≠ 32 then answer s c op mMALFORMED_COMMAND 8 []
  else if a.kemCt.length ≠ 1568 then answer s c op mMALFORMED_COMMAND 40 []
  else if a.mgrSig.length ≠ 49856 then answer s c op mMALFORMED_COMMAND 1608 []
  else if !s.ten.akReady then answer s c op mMAILBOX_BUSY (akWait s) []
  else if !managerSigned s a then answer (setEvt s aRECKONER_STATUS 19) c op mSESSION_INVALID 0 []
  else match sessionFor s with
    | none => answer s c op mMAILBOX_BUSY (sessionWait s) []
    | some i => beginSession s c a i

/-- OPEN_SESSION (R498). -/
def execOpenSession (c : Caller) (a : OpenSessionArgs) (s : State) : Out State Fault Refusal :=
  .next (mboxRun s c mbOPEN_SESSION [] fun s => openSession s c a)

/-- CLOSE_SESSION closes the session it came in (R500). -/
def closeSession (s : State) (c : Caller) : State :=
  let t := answerOk s c mbCLOSE_SESSION []
  match c.mbox with
  | .fm i => if stillOpen s c then closeOne t i else t
  | _ => t

/-- CLOSE_SESSION (R500). -/
def execCloseSession (c : Caller) (s : State) : Out State Fault Refusal :=
  .next (mboxRun s c mbCLOSE_SESSION [] fun s => closeSession s c)

/-- SET_MANAGER_KEYS replaces all manager keys; from the baseboard only while none is held (R499). -/
def setManagerKeys (s : State) (c : Caller) (keys : List (List Byte)) : State :=
  let op := mbSET_MANAGER_KEYS
  if callerClass c = .baseboard ∧ s.rkn.managerKeys ≠ [] then answer s c op mPRIVILEGE_DENIED 0 []
  else if keys = [] ∨ 4 < keys.length then answer s c op mARGUMENT_INVALID 0 []
  else if keys.any fun k => k.length ≠ 64 then answer s c op mMALFORMED_COMMAND 8 []
  else answerOk (modRkn s fun x => { x with managerKeys := keys }) c op []

/-- SET_MANAGER_KEYS (R499). -/
def execSetManagerKeys (c : Caller) (keys : List (List Byte)) (s : State) : Out State Fault Refusal :=
  .next (mboxRun s c mbSET_MANAGER_KEYS [] fun s => setManagerKeys s c keys)

/-- BIND_HOST_MAILBOX: commands that have changed nothing yet are ended, then the rings are empty and the sequence starts at 1 (R484, R488, R493). -/
def bindMailbox (s : State) (c : Caller) (m q : Nat) : State :=
  let op := mbBIND_HOST_MAILBOX
  if 16 ≤ m then answer s c op mARGUMENT_INVALID 0 []
  else if q ≠ 0xFFFF ∧ !isLport s q then answer s c op mARGUMENT_INVALID 2 []
  else
    let l := (s.rkn.journal.filter fun j => !j.2 && j.1.mbox = .host m).map (·.1)
    let s := { s with ten := { s.ten with reports := s.ten.reports.filter fun r => !(r.1 ∈ l) } }
    let s := l.foldl (fun st h => answer st h mbGET_ATTESTATION mABORTED_BY_UPDATE 0 []) s
    answerOk (setMbox s (.host m) { bound := if q = 0xFFFF then none else some q, started := (mboxOf s (.host m)).started }) c op []

/-- BIND_HOST_MAILBOX (R484). -/
def execBindHostMailbox (c : Caller) (mbox lport : Nat) (s : State) : Out State Fault Refusal :=
  .next (mboxRun s c mbBIND_HOST_MAILBOX [] fun s => bindMailbox s c mbox lport)

/-! ### Identity and status (R542) -/

/-- GET_IDENTITY: IDENTITY bytes 0x000 to 0x023; a tenant proves itself by TTAG (R483). -/
def getIdentity (s : State) (c : Caller) (ttag : List Byte) : State :=
  let op := mbGET_IDENTITY
  if callerClass c = .tenant && !ttagHolds s c op [] ttag then answer s c op mSESSION_INVALID 0 []
  else
    let (l, s) := readRange s c.mbox false 9 0
    answerOk s c op l

/-- GET_IDENTITY (R542). -/
def execGetIdentity (c : Caller) (ttag : List Byte) (s : State) : Out State Fault Refusal :=
  .next (mboxRun s c mbGET_IDENTITY [] fun s => getIdentity s c ttag)

/-- GET_STATUS: the STATUS, SUPPLY and THERMAL blocks, each from offset 0 to its last register, then the management addresses (R494, R542). -/
def getStatus (s : State) (c : Caller) (ttag : List Byte) : State :=
  let op := mbGET_STATUS
  if callerClass c = .tenant && !ttagHolds s c op [] ttag then answer s c op mSESSION_INVALID 0 []
  else
    let (a, s) := readRange s c.mbox false 3 aSTATUS
    let (b, s) := readRange s c.mbox false 25 aSUPPLY
    let (d, s) := readRange s c.mbox false 29 aTHERMAL
    answerOk s c op (a ++ b ++ d ++ zeros 4 ++ (List.range 4).flatMap fun i => padTo 16 (Config.mgmtAddress i))

/-- GET_STATUS (R542). -/
def execGetStatus (c : Caller) (ttag : List Byte) (s : State) : Out State Fault Refusal :=
  .next (mboxRun s c mbGET_STATUS [] fun s => getStatus s c ttag)

/-! ### The baseboard controller (R502, R503, R557) -/

/-- An MCTP message of the vendor's type carries one slot to the baseboard mailbox (R502). -/
def execMctpMessage (vendor endpoint : Nat) (sl : MboxSlot) (s : State) : Out State Fault Refusal :=
  .next (if vendor = Config.vendor then arriveSlot s .baseboard { sl with src := endpoint } else s)

/-- The module's 48-bit provisioned ID (R557). -/
def provisionedId : Nat := Config.mipiId % 2 ^ 15 * 2 ^ 33 + 0x1280 * 2 ^ 16 + unle Config.deviceUid % 2 ^ 12

/-- ENTDAA: the module gives its provisioned ID and takes its dynamic address, from phase ROM on, which brings I3C up (R502, R527, R557). -/
def execEntdaa (address : Nat) (s : State) : Out State Fault Refusal :=
  .next (if 2 ≤ s.supply.phase then modRkn s fun x => { x with i3cAddr := address, mgmt := x.mgmt ++ [.entdaa provisionedId address] } else s)

/-- A PLDM sensor by its number (log entry 21): input voltage, current and power; the 13 die sensors; the Reckoner temperature; shed level and bring-up phase. -/
def pldmSensor (s : State) (n : Nat) : Option (List Byte) :=
  if n = 0 then some (le 4 s.supply.vin)
  else if n = 1 then some (le 4 s.supply.iin)
  else if n = 2 then some (le 4 s.supply.pin)
  else if n < 17 then some (le 4 (ofSigned 32 (tgetD s.supply.sensors (n - 3) {}).temp))
  else if n = 17 then some (le 1 s.supply.level)
  else if n = 18 then some (le 1 s.supply.phase)
  else none

/-- A PLDM answer. -/
def pldmAnswer (s : State) (ptype cmd completion : Nat) (data : List Byte) : State :=
  modRkn s fun x => { x with mgmt := x.mgmt ++ [.pldm ptype cmd completion data] }

/-- A PLDM request (R503): types 0 and 2 from the end of phase ROM. Sensors answer their reading; what the base type and other commands answer is DSP0240's and DSP0248's, left free (log entries 3, 21). -/
def servePldm (s : State) (ptype cmd sensor : Nat) : State :=
  if !takesSlots s .baseboard then s
  else if ptype = 2 ∧ (cmd = 0x11 ∨ cmd = 0x21) then
    match pldmSensor s sensor with
    | some d => if (cmd = 0x11) = (sensor < 17) then pldmAnswer s ptype cmd 0 d else pldmAnswer s ptype cmd 0x80 []
    | none => pldmAnswer s ptype cmd 0x80 []
  else if ptype = 0 ∨ ptype = 2 then
    let (v, s) := drawFree s
    pldmAnswer s ptype cmd (v % 256) (le 8 (v / 256))
  else pldmAnswer s ptype cmd 0x20 []

/-- A PLDM request (R503). -/
def execPldmRequest (ptype cmd sensor : Nat) (s : State) : Out State Fault Refusal := .next (servePldm s ptype cmd sensor)

end Sys2Proof.Machine
end

