-- ==== Sys2Proof/Machine/Packets.lean ====
section
/-! DEFINITION. The packets that reach the module: each row is the arrival of a packet of one kind on a logical port, or of the module's own on its internal queue.
A packet of another kind under a row's name is not that row's command and changes nothing. -/

namespace Sys2Proof.Machine

/-- A packet of a row's kind arrives. -/
def arrive (kind : Bool) (s : State) (q : Nat) (p : Packet) : State := if kind then receive s q p else s

/-- A carry partial of a kind (Table 9-8). -/
def carryKind (p : Packet) (k : Nat) : Bool := p.op = opPARTIAL && field p.ext 0 1 = 1 && pxKind p = k

/-- A STORE to command space. -/
def commandStore (p : Packet) : Bool := p.op = opSTORE && toCommandSpace p

/-- A doorbell of an operation (Table 11-3). -/
def bellOf (p : Packet) (k : Nat) : Bool := commandStore p && (doorbellChannel p.addr).isSome && dbOp p = k

/-- A bead command of an operation (Table 12-4). -/
def beadOf (p : Packet) (k : Nat) : Bool := commandStore p && (beadQueueOf p.addr).isSome && field p.payload 0 1 % 16 = k

/-- A hand-off message of a kind (Table 15-8). -/
def handoffOf (p : Packet) (k : Nat) : Bool := p.op = opMAP_HANDOFF && field p.payload 0 4 % 16 = k

/-- A STORE to a host mailbox, and to its doorbell (Table 17-5). -/
def boxStore (p : Packet) : Bool := commandStore p && (hostBoxOf p.addr).isSome
def bellStore (p : Packet) : Bool := boxStore p && p.addr % 0x10000 = 0x8000

/-- A packet that a row of its own takes when it is for this module: of every operation of Table 4-5 but SNOOP and MAP_EPOCH, which a switch does not take, and of a kind that the operation has.
Codes and kinds that no table lists have no row of their own. -/
def rowOf (p : Packet) : Bool :=
  if p.op = opSNOOP ∨ p.op = opMAP_EPOCH then false
  else if p.op = opCREQ then decide (ckind p ≤ 4)
  else if p.op = opSIEVE then sfnOf p ∈ [sfGATHER_MEM, sfSCATTER, sfSETOP, sfFILTER, sfDISPATCH, sfCOMBINE]
  else if p.op = opPARTIAL then field p.ext 0 1 = 2 || (List.range 4).any (carryKind p)
  else if p.op = opMAP_HANDOFF then (List.range 4).any (handoffOf p)
  else (opClasses p.op).isSome

/-- A packet in transit, or of an operation that no row of its own takes (R86, R115, R432). -/
def execPacketForward (lport : Nat) (p : Packet) (s : State) : Out State Fault Refusal :=
  .next (arrive (!forMe s p || !rowOf p) s lport p)

/-- An ACK packet (R97). -/
def execAckReceive (lport : Nat) (p : Packet) (s : State) : Out State Fault Refusal :=
  .next (arrive (p.op = opACK) s lport p)

/-- A NAK packet (R98). -/
def execNakReceive (lport : Nat) (p : Packet) (s : State) : Out State Fault Refusal :=
  .next (arrive (p.op = opNAK) s lport p)

/-- An RSP (R108). -/
def execRspReceive (lport : Nat) (p : Packet) (s : State) : Out State Fault Refusal :=
  .next (arrive (p.op = opRSP) s lport p)

/-- An RSP_DATA packet (R107, R108). -/
def execRspDataReceive (lport : Nat) (p : Packet) (s : State) : Out State Fault Refusal :=
  .next (arrive (p.op = opRSP_DATA) s lport p)

/-- A LOAD (R129). -/
def execLoad (lport : Nat) (p : Packet) (s : State) : Out State Fault Refusal :=
  .next (arrive (p.op = opLOAD) s lport p)

/-- A STORE to memory (R122, R129). -/
def execStore (lport : Nat) (p : Packet) (s : State) : Out State Fault Refusal :=
  .next (arrive (p.op = opSTORE && !toCommandSpace p) s lport p)

/-- An ATOMIC, plain or combined (R124, R148). -/
def execAtomic (lport : Nat) (p : Packet) (s : State) : Out State Fault Refusal :=
  .next (arrive (p.op = opATOMIC) s lport p)

/-- A FENCE (R130). -/
def execFence (lport : Nat) (p : Packet) (s : State) : Out State Fault Refusal :=
  .next (arrive (p.op = opFENCE) s lport p)

/-- A STORE to command space (R89, R119): it acts as the command at its address, and one to an unassigned address is refused. -/
def execCommandSpaceStore (lport : Nat) (p : Packet) (s : State) : Out State Fault Refusal :=
  .next (arrive (p.op = opSTORE && toCommandSpace p) s lport p)

/-- A WOPEN (R171, R172). -/
def execWopen (lport : Nat) (p : Packet) (s : State) : Out State Fault Refusal :=
  .next (arrive (p.op = opWOPEN) s lport p)

/-- A WREVOKE (R174). -/
def execWrevoke (lport : Nat) (p : Packet) (s : State) : Out State Fault Refusal :=
  .next (arrive (p.op = opWREVOKE) s lport p)

/-- A CREQ that asks for a readable copy (R192, Table 7-6). -/
def execCreqRdShared (lport : Nat) (p : Packet) (s : State) : Out State Fault Refusal :=
  .next (arrive (p.op = opCREQ && ckind p = 0) s lport p)

/-- A CREQ that asks for the only copy (R192, Table 7-6). -/
def execCreqRdOwn (lport : Nat) (p : Packet) (s : State) : Out State Fault Refusal :=
  .next (arrive (p.op = opCREQ && ckind p = 1) s lport p)

/-- A CREQ that makes a held copy writable (R192, Table 7-6). -/
def execCreqUpgrade (lport : Nat) (p : Packet) (s : State) : Out State Fault Refusal :=
  .next (arrive (p.op = opCREQ && ckind p = 2) s lport p)

/-- A CREQ that writes a line back (R192, Table 7-6). -/
def execCreqWbDirty (lport : Nat) (p : Packet) (s : State) : Out State Fault Refusal :=
  .next (arrive (p.op = opCREQ && ckind p = 3) s lport p)

/-- A CREQ that reports a dropped line (R192, Table 7-6). -/
def execCreqEvictClean (lport : Nat) (p : Packet) (s : State) : Out State Fault Refusal :=
  .next (arrive (p.op = opCREQ && ckind p = 4) s lport p)

/-- A CRSP of an agent (R194). -/
def execCrspReceive (lport : Nat) (p : Packet) (s : State) : Out State Fault Refusal :=
  .next (arrive (p.op = opCRSP) s lport p)

/-- A CDAT of an agent (R195). -/
def execCdatReceive (lport : Nat) (p : Packet) (s : State) : Out State Fault Refusal :=
  .next (arrive (p.op = opCDAT) s lport p)

/-- A PUBLISH (R230). -/
def execPublish (lport : Nat) (p : Packet) (s : State) : Out State Fault Refusal :=
  .next (arrive (p.op = opPUBLISH) s lport p)

/-- A REDUCE (R250). -/
def execReduce (lport : Nat) (p : Packet) (s : State) : Out State Fault Refusal :=
  .next (arrive (p.op = opREDUCE) s lport p)

/-- A DATA partial (R260). -/
def execPartialData (lport : Nat) (p : Packet) (s : State) : Out State Fault Refusal :=
  .next (arrive (carryKind p 0) s lport p)

/-- An ABT_UP (R266). -/
def execAbtUp (lport : Nat) (p : Packet) (s : State) : Out State Fault Refusal :=
  .next (arrive (carryKind p 1) s lport p)

/-- An ABT_DOWN (R266). -/
def execAbtDown (lport : Nat) (p : Packet) (s : State) : Out State Fault Refusal :=
  .next (arrive (carryKind p 2) s lport p)

/-- An ABT_DONE (R266). -/
def execAbtDone (lport : Nat) (p : Packet) (s : State) : Out State Fault Refusal :=
  .next (arrive (carryKind p 3) s lport p)

/-- A bead partial (R360). -/
def execBeadPartial (lport : Nat) (p : Packet) (s : State) : Out State Fault Refusal :=
  .next (arrive (p.op = opPARTIAL && field p.ext 0 1 = 2) s lport p)

/-- A REDUCE_WRITE placed at this home (R127, R263). -/
def execReduceWrite (lport : Nat) (p : Packet) (s : State) : Out State Fault Refusal :=
  .next (arrive (p.op = opREDUCE_WRITE) s lport p)

/-- A GATHER (R274). -/
def execGather (lport : Nat) (p : Packet) (s : State) : Out State Fault Refusal :=
  .next (arrive (p.op = opGATHER) s lport p)

/-- A GATHER_MEM (R280). -/
def execSieveGatherMem (lport : Nat) (p : Packet) (s : State) : Out State Fault Refusal :=
  .next (arrive (p.op = opSIEVE && sfnOf p = sfGATHER_MEM) s lport p)

/-- A SCATTER (R280). -/
def execSieveScatter (lport : Nat) (p : Packet) (s : State) : Out State Fault Refusal :=
  .next (arrive (p.op = opSIEVE && sfnOf p = sfSCATTER) s lport p)

/-- A SETOP (R280). -/
def execSieveSetop (lport : Nat) (p : Packet) (s : State) : Out State Fault Refusal :=
  .next (arrive (p.op = opSIEVE && sfnOf p = sfSETOP) s lport p)

/-- A FILTER (R280). -/
def execSieveFilter (lport : Nat) (p : Packet) (s : State) : Out State Fault Refusal :=
  .next (arrive (p.op = opSIEVE && sfnOf p = sfFILTER) s lport p)

/-- A DISPATCH (R280). -/
def execSieveDispatch (lport : Nat) (p : Packet) (s : State) : Out State Fault Refusal :=
  .next (arrive (p.op = opSIEVE && sfnOf p = sfDISPATCH) s lport p)

/-- A COMBINE (R280). -/
def execSieveCombine (lport : Nat) (p : Packet) (s : State) : Out State Fault Refusal :=
  .next (arrive (p.op = opSIEVE && sfnOf p = sfCOMBINE) s lport p)

/-- A doorbell that rings a mover channel (R311). -/
def execDoorbellRing (lport : Nat) (p : Packet) (s : State) : Out State Fault Refusal :=
  .next (arrive (bellOf p 0) s lport p)

/-- A doorbell that resumes a mover channel (R327, R329). -/
def execDoorbellResume (lport : Nat) (p : Packet) (s : State) : Out State Fault Refusal :=
  .next (arrive (bellOf p 1) s lport p)

/-- A doorbell that aborts a mover channel's descriptor (R328). -/
def execDoorbellAbort (lport : Nat) (p : Packet) (s : State) : Out State Fault Refusal :=
  .next (arrive (bellOf p 2) s lport p)

/-- A MODE bead command (R343). -/
def execBeadMode (lport : Nat) (p : Packet) (s : State) : Out State Fault Refusal :=
  .next (arrive (beadOf p 0) s lport p)

/-- An ATTN bead command (R353). -/
def execBeadAttn (lport : Nat) (p : Packet) (s : State) : Out State Fault Refusal :=
  .next (arrive (beadOf p 1) s lport p)

/-- A DOT bead command (R357). -/
def execBeadDot (lport : Nat) (p : Packet) (s : State) : Out State Fault Refusal :=
  .next (arrive (beadOf p 2) s lport p)

/-- An AXPY bead command (R357). -/
def execBeadAxpy (lport : Nat) (p : Packet) (s : State) : Out State Fault Refusal :=
  .next (arrive (beadOf p 3) s lport p)

/-- A SCAN bead command (R357). -/
def execBeadScan (lport : Nat) (p : Packet) (s : State) : Out State Fault Refusal :=
  .next (arrive (beadOf p 4) s lport p)

/-- A MIRROR packet (R394). -/
def execMirror (lport : Nat) (p : Packet) (s : State) : Out State Fault Refusal :=
  .next (arrive (p.op = opMIRROR) s lport p)

/-- A link-state record fragment (R430). -/
def execMapLsr (lport : Nat) (p : Packet) (s : State) : Out State Fault Refusal :=
  .next (arrive (p.op = opMAP_LSR) s lport p)

/-- A MAP_ACK (R434). -/
def execMapAck (lport : Nat) (p : Packet) (s : State) : Out State Fault Refusal :=
  .next (arrive (p.op = opMAP_ACK) s lport p)

/-- A proposal fragment (R437). -/
def execMapPrepare (lport : Nat) (p : Packet) (s : State) : Out State Fault Refusal :=
  .next (arrive (p.op = opMAP_PREPARE && p.oparg % 256 ≠ 1) s lport p)

/-- A snapshot fragment (R446). -/
def execMapSnapshot (lport : Nat) (p : Packet) (s : State) : Out State Fault Refusal :=
  .next (arrive (p.op = opMAP_PREPARE && p.oparg % 256 = 1) s lport p)

/-- A vote at the coordinator (R438). -/
def execMapVote (lport : Nat) (p : Packet) (s : State) : Out State Fault Refusal :=
  .next (arrive (p.op = opMAP_VOTE) s lport p)

/-- A commit verdict (R438). -/
def execMapCommit (lport : Nat) (p : Packet) (s : State) : Out State Fault Refusal :=
  .next (arrive (p.op = opMAP_COMMIT) s lport p)

/-- A MAP_PULL (R433). -/
def execMapPull (lport : Nat) (p : Packet) (s : State) : Out State Fault Refusal :=
  .next (arrive (p.op = opMAP_PULL) s lport p)

/-- An OFFER at the taker (R443). -/
def execHandoffOffer (lport : Nat) (p : Packet) (s : State) : Out State Fault Refusal :=
  .next (arrive (handoffOf p 0) s lport p)

/-- An ACCEPT at the giver (R442). -/
def execHandoffAccept (lport : Nat) (p : Packet) (s : State) : Out State Fault Refusal :=
  .next (arrive (handoffOf p 1) s lport p)

/-- A PROBE at the giver (R445). -/
def execHandoffProbe (lport : Nat) (p : Packet) (s : State) : Out State Fault Refusal :=
  .next (arrive (handoffOf p 2) s lport p)

/-- A CLAIM at the taker (R445). -/
def execHandoffClaim (lport : Nat) (p : Packet) (s : State) : Out State Fault Refusal :=
  .next (arrive (handoffOf p 3) s lport p)

/-- A STORE into a host mailbox's command slot (R493). -/
def execHostSlotStore (lport : Nat) (p : Packet) (s : State) : Out State Fault Refusal :=
  .next (arrive (boxStore p && !bellStore p) s lport p)

/-- A host mailbox's doorbell (R493). -/
def execHostMailboxDoorbell (lport : Nat) (p : Packet) (s : State) : Out State Fault Refusal :=
  .next (arrive (bellStore p) s lport p)

/-- An IDENTITY request (R533). -/
def execIdentity (lport : Nat) (p : Packet) (s : State) : Out State Fault Refusal :=
  .next (arrive (p.op = opIDENTITY) s lport p)

/-- A STATUS_QUERY request (R533). -/
def execStatusQuery (lport : Nat) (p : Packet) (s : State) : Out State Fault Refusal :=
  .next (arrive (p.op = opSTATUS_QUERY) s lport p)

end Sys2Proof.Machine
end

