-- ==== Sys2Proof/Machine/Shed.lean ====
section
/-! DEFINITION. Shed levels, the hold-up timer, the save at L4 and the end of power (R515 to R526, R534 to R536, R561). -/

namespace Sys2Proof.Machine

/-- The state with the supply block changed. -/
def modSupply (s : State) (f : Supply → Supply) : State := { s with supply := f s.supply }

/-! ### Entry and leave actions (Table 18-3) -/

/-- L1: beads drain to MEMORY and a running drill is interrupted; FILTER requests, descriptor fetch and tally recording follow the level itself. -/
def enterL1 (s : State) : State := shedBeads (interruptDrill s)

/-- A FILTER request that has paused. -/
def pausedFilter (r : SieveReq) : Bool := decide (r.sfn = 3) && r.paused && !r.finished && r.stop.isNone

/-- The groups whose abort at L3 begins: those with none under way (R265). -/
def abortable (s : State) : List Nat := (s.carry.groups.filter fun e => e.2.abtWait = []).map (·.1)

/-- L3: open reductions abort, held bead commands and paused FILTER requests end, the flush begins and the record shows DEPARTING; admission and the preemption of descriptors follow the level itself (R521, R332). -/
def enterL3 (s : State) : State :=
  let s := (abortable s).foldl (fun st rid => askAbort st .plain rid) s
  let s := ((s.sieve.reqs.filter fun e => pausedFilter e.2).map (·.1)).foldl (fun st k => stopSieve st k kSIEVE_PAUSED) s
  linkChanged (startFlush (endHeldBeads s) true none)

/-- What entering the levels above `a` up to `b` does. -/
def enterActions (a b : Nat) (s : State) : State :=
  let s := if a < 1 ∧ 1 ≤ b then enterL1 s else s
  if a < 3 ∧ 3 ≤ b then enterL3 s else s

/-- The rails from 0 to 6 stop. -/
def deckRailsOff (t : Table Nat Rail) : Table Nat Rail := t.map fun e => if e.1 ≤ 6 then (e.1, { e.2 with on := false, inReg := false }) else e

/-- DEPARTING leaves at once on every UP port (R524). -/
def departNow (s : State) : State :=
  ((lports s).filter (isUp s)).foldl (fun st q => match activeLanes st q with
    | l :: _ => sentFlit st l { fkind := 2, lseq := (lport st q).txSeq, pend := 1, payload := [5] }
    | [] => st) s

/-- The decks without power: nothing they held is left. -/
def deckOff (s : State) : State :=
  { s with
    links := { lastTx := s.links.lastTx }, net := {}, pool := {}, win := {}, coh := {}, carry := {}, sieve := {}, mover := {}, bead := {}, queues := {}, map := {}
    dies := [], admitted := [] }

/-- The lines marked at their trays: the dirty ones, and those marked that no write has made dirty yet (R220, R224). -/
def markedLines (s : State) : List Nat := ((s.pool.lines.filter fun e => e.2.dirty).map (·.1)) ++ s.pool.marked.filter fun l => !(lineInfo s l).dirty

/-- What the ROM begins to save: the newest 8,192 records, the drill log, and how many lines are left marked at trays (R224, R468, R524). -/
def logsToSave (s : State) : SavedLogs :=
  { events := s.events.ring.drop (s.events.ring.length - 8192), drills := s.spares.log, marked := (markedLines s).length }

/-- L4 (R524): DEPARTING, rails 0 to 6 off with all work dropped, and the save begins. -/
def enterL4 (s : State) : State :=
  let logs := logsToSave s
  let s := deckOff (departNow s)
  let s := modSupply s fun x => { x with
    rails := deckRailsOff x.rails, ready := false, saved := some logs, saving := true, holdupTimer := none, highSince := none }
  { s with rkn := { s.rkn with dvorro := .rom } }

/-- A shed level is entered: recorded, counted, and acted on (R519, R537). -/
def enterLevel (s : State) (k : Nat) : State :=
  let old := s.supply.level
  let before := level s
  let s := modSupply s fun x => { x with level := k, levelMax := max x.levelMax k, holdupTimer := if k = 3 then some s.now else x.holdupTimer }
  let s := event (setEvt (bump s cSHED_ENTRIES) aSUPPLY_SHED 15) eSHED_LEVEL sevDEGRADED 0 0 (old + 256 * k) s.supply.vin
  if k = 4 then enterL4 s else enterActions before k s

/-- A shed level is left: what its entry stopped is restored and admitted rates rise again (R44), unless a lost regulator keeps the module at L3 (R526, R458). -/
def leaveLevel (s : State) (k : Nat) : State :=
  let s := modSupply s fun x => { x with level := k - 1, holdupTimer := none }
  let s := [0, 1, 2, 3].foldl releaseRaises s
  let s := if k = 1 then event s eSHED_LEVEL sevINFO 0 0 1 s.supply.vin else s
  if forcedShed s then s
  else if k = 3 then linkChanged s
  else if k = 1 then unshedBeads s
  else s

/-- The levels up to L3 are entered in order, without waiting (R534, R536, R561). -/
def enterToL3 (s : State) : State := [1, 2, 3].foldl (fun st k => if st.supply.level < k then enterLevel st k else st) s

/-- RESET_N, a sense break or a thermal trip acts as a bus below 42.5 V: no level is left. -/
def cutActing (s : State) : Bool := s.supply.resetPulse || s.supply.senseBroken || s.supply.tripped

/-! ### Power off -/

/-- Every rail is off: what stays is what flash holds and what lies outside the module. A flash write that was running leaves no image (R513). -/
def powerOff (s : State) : State :=
  { State.reset with
    pending := s.pending, now := s.now, free := s.free
    events := { pldm := s.events.pldm }
    links := { lastTx := s.links.lastTx }
    spares := { log := s.spares.log }
    rkn := { managerKeys := s.rkn.managerKeys, flash := if s.rkn.flashWrite then {} else s.rkn.flash, mgmt := s.rkn.mgmt, answers := s.rkn.answers }
    supply := {
      vin := s.supply.vin, highSince := s.supply.highSince, plan := s.supply.plan, saved := s.supply.saved, resetLow := s.supply.resetLow
      resetPulse := s.supply.resetPulse, senseBroken := s.supply.senseBroken, tripped := s.supply.tripped
      switchClosed := s.supply.switchClosed && !s.supply.senseBroken } }

/-- Nothing holds the module in phase OFF but its input. -/
def mayStart (s : State) : Bool :=
  s.supply.phase = 0 && s.supply.switchClosed && !s.supply.resetLow && !s.supply.tripped && !s.supply.senseBroken

/-- Time 0 of bring-up: the rails start in order and phase RAILS runs (R516, R527); RESET_EVT tells a bring-up that followed RESET_N (R537). -/
def startBringup (s : State) : State :=
  let s := if s.supply.resetPulse then setEvt s aSUPPLY_SHED 17 else s
  modSupply s fun x => { x with phase := 1, time0 := s.now, highSince := none, resetPulse := false }

end Sys2Proof.Machine
end

