-- ==== Sys2Proof/Machine/SupplyRows.lean ====
section
/-! DEFINITION. The rows of the supply, of shedding and bring-up (chapter 18), of regulators (R458) and of the thermal monitor (R544, R545, R560, R561). -/

namespace Sys2Proof.Machine

/-! ### The supply monitor (R519, R544) -/

/-- The thresholds of L1 to L5 in mV (Table 18-3). -/
def levelMv (k : Nat) : Nat := [46000, 44000, 42500, 41000, 40000].getD (k - 1) 0

/-- Since when a condition has held: begun now, going on, or over. -/
def sinceWhen (t : Table Nat Ns) (k : Nat) (now : Ns) (holds : Bool) : Table Nat Ns :=
  if !holds then tdel t k else if thas t k then t else tset t k now

/-- The rails' voltages and regulation as sampled. -/
def sampleRails (t : Table Nat Rail) (l : List (Nat × Bool)) : Table Nat Rail :=
  (List.range (min 9 l.length)).foldl (fun t i =>
    let (mv, ok) := l.getD i (0, false)
    tset t i { tgetD t i {} with vout := mv, inReg := (tgetD t i {}).on && ok }) t

/-- The bus voltage that bring-up, and recovery at L4, wait for (R524, R527). -/
def highMv (s : State) : Nat := if 4 ≤ s.supply.level then 46800 else 46000

/-- One sample of the supply monitor: registers, the qualification of each level, and the hold-up store's use (R517, R519, R544). -/
def sampleSupply (s : State) (m : SupplySample) : State :=
  let used := s.supply.holdupReady && decide (42200 ≤ s.supply.vin) && decide (m.vin < 42200)
  let hist := (m.pin :: s.supply.pinHist).take 100
  let pin := hist.sum / hist.length
  let lv := [1, 2, 3, 4, 5]
  let below := lv.foldl (fun t k => sinceWhen t k s.now (decide (m.vin < levelMv k))) s.supply.belowSince
  let above := lv.foldl (fun t k => sinceWhen t k s.now (decide (levelMv k + 800 ≤ m.vin))) s.supply.aboveSince
  let high := if m.vin < highMv s then none else if s.supply.highSince.isSome then s.supply.highSince else some s.now
  let powered := 1 ≤ s.supply.phase
  let s1 := modSupply s fun x => { x with
    vin := m.vin, vinMin := if powered then min x.vinMin m.vin else x.vinMin, iin := m.iin, pin := pin, pinMax := max x.pinMax pin, pinHist := hist
    vstore := m.vstore, rails := sampleRails x.rails m.rails, belowSince := below, aboveSince := above, highSince := high
    tripped := x.tripped && !(decide (x.phase = 0) && decide (m.vin < 40000)) }
  if used then bump s1 cHOLDUP_USES else s1

/-- The LIVE values written since the last monitor sample take force (R13, R50); what R44 lets rise with them rises. -/
def monitorBoundary (s : State) : State :=
  (List.range 4).foldl releaseRaises (latchLive s fun a => decide (a / 0x10000 ∈ [0, 2, 3]))

/-- A sample of the supply monitor (R544). -/
def execSupplySample (m : SupplySample) (s : State) : Out State Fault Refusal := .next (sampleSupply (monitorBoundary s) m)

/-- Whether a condition listed since some time has held for a while. -/
def hasHeld (s : State) (t : Table Nat Ns) (k : Nat) (d : Ns) : Bool :=
  match tget t k with
  | some a => due s a d
  | none => false

/-- The bus has been below a level's threshold for 200 µs: the level is entered, in ascending order (R519, R525, R526). -/
def qualifyEnter (s : State) (k : Nat) : State :=
  if s.supply.phase = 0 ∨ ¬ hasHeld s s.supply.belowSince k (us 200) then s
  else if k = 5 then powerOff (modSupply s fun x => { x with resetPulse := false })
  else if 1 ≤ k ∧ k ≤ 4 ∧ s.supply.level + 1 = k then enterLevel s k
  else s

/-- A shed level is entered (R519). -/
def execShedLevelEnter (level : Nat) (s : State) : Out State Fault Refusal := .next (settle (qualifyEnter s level))

/-- The bus has been 0.8 V above a level's threshold for 200 µs: the level is left, in descending order; L4 never is, nor while RESET_N, a broken sense pin or a trip acts as a low bus (R519, R524, R526). -/
def qualifyLeave (s : State) (k : Nat) : State :=
  if 1 ≤ k ∧ k ≤ 3 ∧ s.supply.level = k ∧ hasHeld s s.supply.aboveSince k (us 200) ∧ cutActing s = false then leaveLevel s k else s

/-- A shed level is left (R526). -/
def execShedLevelLeave (level : Nat) (s : State) : Out State Fault Refusal := .next (settle (qualifyLeave s level))

/-- The hold-up timer expires 1.6 ms after L3 was entered: L4 (R523). -/
def timerExpires (s : State) : State :=
  match s.supply.holdupTimer with
  | some t => if due s t (us 1600) ∧ s.supply.level = 3 then enterLevel s 4 else s
  | none => s

/-- The hold-up timer expires (R523). -/
def execHoldupTimerExpiry (s : State) : Out State Fault Refusal := .next (timerExpires s)

/-- The save at L4 ends: the logs are complete; after RESET_N or a thermal trip the module goes to phase OFF, and starts again once RESET_N is high (R524, R534, R561). -/
def saveEnds (s : State) : State :=
  if !s.supply.saving then s
  else
    let s := modSupply s fun x => { x with saving := false, saved := x.saved.map fun l => { l with complete := true } }
    if !s.supply.resetPulse && !s.supply.tripped then s
    else
      let s := powerOff (modSupply s fun x => { x with tripped := x.tripped && !x.resetPulse })
      if s.supply.resetPulse && mayStart s && decide (46000 ≤ s.supply.vin) then startBringup s else s

/-- The save of the logs ends (R524). -/
def execLogSaveEnd (s : State) : Out State Fault Refusal := .next (saveEnds s)

/-- After L4 the bus has held at or above 46.8 V for 10 ms: the remaining rails stop, and bring-up starts as at power-up (R524). -/
def recoverL4 (s : State) : State :=
  match s.supply.highSince with
  | some t => if s.supply.level = 4 ∧ due s t (ms 10) ∧ cutActing s = false then startBringup (powerOff s) else s
  | none => s

/-- Recovery at L4 (R524). -/
def execL4Recovery (s : State) : Out State Fault Refusal := .next (recoverL4 s)

/-- An input above 60 V opens the input switch, and the module is off without the actions of L4 (R515). -/
def overvoltage (s : State) (vin : Nat) : State :=
  if vin ≤ 60000 then s else powerOff (modSupply s fun x => { x with switchClosed := false, resetPulse := false })

/-- The input rises above 60 V (R515). -/
def execInputOvervoltage (vin : Nat) (s : State) : Out State Fault Refusal := .next (overvoltage s vin)

/-- RESET_N has been low for 200 µs (R534). -/
def assertReset (s : State) : State :=
  let s := modSupply s fun x => { x with resetLow := true, resetPulse := decide (1 ≤ x.phase) || x.resetPulse }
  if s.supply.phase = 0 then s else enterToL3 s

/-- RESET_N is low (R534). -/
def execResetAssert (s : State) : Out State Fault Refusal := .next (settle (assertReset s))

/-- RESET_N is released: in phase OFF bring-up starts, also after a thermal trip; before it, once phase OFF is reached (R534, R561). -/
def releaseReset (s : State) : State :=
  if !s.supply.resetLow then s
  else if s.supply.phase ≠ 0 then modSupply s fun x => { x with resetLow := false }
  else
    let s := modSupply s fun x => { x with resetLow := false, tripped := false, resetPulse := true }
    if mayStart s && decide (46000 ≤ s.supply.vin) then startBringup s else s

/-- RESET_N is released (R534). -/
def execResetRelease (s : State) : Out State Fault Refusal := .next (releaseReset s)

/-- The sense pins have been broken for 20 µs: L3 at once, with SENSE_LOSS_EVT (R536). -/
def loseSense (s : State) : State :=
  let s := modSupply s fun x => { x with senseBroken := true }
  if s.supply.phase = 0 then modSupply s fun x => { x with switchClosed := false } else enterToL3 (setEvt s aSUPPLY_SHED 16)

/-- The sense pins break (R536). -/
def execSenseLoss (s : State) : Out State Fault Refusal := .next (settle (loseSense s))

/-- The contacts of the blade: the input switch closes once the main contacts and both sense pins have made, with the module off (R535, R554). -/
def insertModule (s : State) (k : InsertContacts) : State :=
  if s.supply.phase = 0 && k.main && k.senseVin && k.senseRtn then
    modSupply s fun x => { x with senseBroken := false, switchClosed := true, highSince := none }
  else s

/-- The module is inserted (R535). -/
def execInsertion (contacts : InsertContacts) (s : State) : Out State Fault Refusal := .next (insertModule s contacts)

/-! ### Bring-up (R527 to R530) -/

/-- The bus has held at or above 46.0 V for 200 µs (R527). -/
def beginBringup (s : State) : State :=
  match s.supply.highSince with
  | some t => if mayStart s && due s t (us 200) then startBringup s else s
  | none => s

/-- Bring-up starts (R527). -/
def execBringupStart (s : State) : Out State Fault Refusal := .next (beginBringup s)

/-- The last rail is in regulation: PWR_GOOD, and phase ROM (R516). -/
def railsUp (s : State) : State :=
  if s.supply.phase ≠ 1 then s
  else modSupply s fun x => { x with
    rails := (List.range 9).foldl (fun t i => tset t i { tgetD t i {} with on := true, inReg := true }) x.rails, pwrGood := true, phase := 2 }

/-- The rails are up (R516). -/
def execRailsDone (s : State) : Out State Fault Refusal := .next (railsUp s)

/-- The registers of the port plan (R528). -/
def planRegs : List Nat := (List.range 64).map aPORT_CFG ++ (List.range 512).map aLPORT_ROLE

/-- The port plan as flash holds it is put in force, or found missing (R528). -/
def restorePlan (s : State) : State :=
  if s.supply.phase ≠ 2 ∨ s.supply.planSettled then s
  else
    let s := (s.supply.plan.getD []).foldl (fun st (e : Nat × Word) => setRegWord st e.1 e.2) s
    modSupply s fun x => { x with planSettled := true }

/-- The port plan is restored (R528). -/
def execPortPlanRestore (s : State) : Out State Fault Refusal := .next (restorePlan s)

/-- The port plan is saved to flash, 10 s after a change (R528). -/
def savePlan (s : State) : State :=
  match s.supply.planDue with
  | some t =>
    if due s t (ms 10000) ∧ s.rkn.dvorro = .running then
      modSupply s fun x => { x with plan := some (planRegs.map fun a => (a, regWord s a)), planDue := none }
    else s
  | none => s

/-- The port plan is saved (R528). -/
def execPortPlanSave (s : State) : Out State Fault Refusal := .next (savePlan s)

/-- The logs saved at L4 are taken over; one whose CRC-32C fails is discarded and one record reports it (R525; what the record counts is open, log entry 3). -/
def restoreLogs (s : State) : State :=
  match s.supply.saved with
  | none => s
  | some l =>
    if l.complete then
      { modSpares s (fun x => { x with log := l.drills }) with
        events := { s.events with ring := l.events, seq := ((l.events.getLast?).map (·.seq)).getD 0 } }
    else
      let (a, s) := drawFree s
      let (b, s) := drawFree s
      event s eEVENTS_LOST sevINFO 0 0 a b

/-- Phase ROM ends: identity and status are served, BOOT_ID and this boot's KEM key are drawn (R416, R525, R527; log entry 3). -/
def romEnds (s : State) : State :=
  if s.supply.phase ≠ 2 ∨ !s.supply.planSettled then s
  else
    let (a, s) := drawFree s
    let (b, s) := drawFree s
    let s := { s with ten := { s.ten with bootId := le 16 a, kemKey := b } }
    restoreLogs (modSupply s fun x => { x with phase := 3 })

/-- Phase ROM ends (R527). -/
def execRomDone (s : State) : Out State Fault Refusal := .next (romEnds s)

/-- The flush log tells of lines left marked (R224); the log region is kept erased (R524). -/
def tellFlush (s : State) : State :=
  let n := match s.supply.saved with
    | some l => if l.complete then l.marked else 0
    | none => 0
  let s := modSupply s fun x => { x with saved := none }
  if n = 0 then s else event (setEvt s aNEAR_CFG 21) eINCOMPLETE_FLUSH sevDEGRADED 0 0 n 0

/-- The stored image is verified: Dvorro starts, or the ROM enters identity-and-fetch mode (R406, R513). -/
def imageChecked (s : State) : State :=
  if s.supply.phase ≠ 3 ∨ s.rkn.dvorro ≠ .rom then s
  else if imageError s.rkn.flash.bytes ≠ 0 then { s with rkn := { s.rkn with dvorro := .fetch } }
  else
    let s := { s with rkn := { s.rkn with dvorro := .running, running := imageOf s.rkn.flash.bytes } }
    tellFlush (drainEvents (modSupply s fun x => { x with imageDone := true, phase := 4 }))

/-- The stored image is verified (R513). -/
def execImageVerified (s : State) : Out State Fault Refusal := .next (imageChecked s)

/-- Phase MEMORY ends; units that failed their self-test are replaced (R527, R546). -/
def memoryUp (s : State) (failed : List (UnitKind × Nat)) : State :=
  if s.supply.phase ≠ 4 then s
  else
    let s := modSupply s fun x => { x with memoryDone := true, phase := if x.linksDone then 6 else 5 }
    failed.foldl (fun st (e : UnitKind × Nat) => failUnit st e.1 e.2 4) s

/-- Phase MEMORY ends (R527). -/
def execMemoryDone (failed : List (UnitKind × Nat)) (s : State) : Out State Fault Refusal := .next (settle (memoryUp s failed))

/-- Phase LINKS starts at 120 ms, once the port plan is settled: enabled ports ask for training (R57, R527, R528). -/
def startLinks (s : State) : State :=
  if s.supply.phase = 0 ∨ !s.supply.planSettled ∨ !due s s.supply.time0 (ms 120) ∨ s.links.open_ then s
  else (List.range 64).foldl enablePorts { s with links := { s.links with open_ := true } }

/-- Phase LINKS starts (R527). -/
def execLinksPhaseStart (s : State) : Out State Fault Refusal := .next (startLinks s)

/-- An enabled port has had its verdict: it is or has been UP or DOWN, is HELD, or belongs to a rod that is out (R527). -/
def portSettled (s : State) (q : Nat) : Bool :=
  !portEnabled s q || (lport s q).state = .up || (lport s q).state = .down || (lport s q).state = .held || (lport s q).downTimes ≠ [] || rodOut s (nativeOf q)

/-- Every enabled port has had its verdict (R527). -/
def linksUp (s : State) : State :=
  if s.links.open_ && (lports s).all (portSettled s) then
    modSupply s fun x => { x with linksDone := true, phase := if x.phase = 5 then 6 else x.phase }
  else s

/-- Phase LINKS ends (R527). -/
def execLinksDone (s : State) : Out State Fault Refusal := .next (linksUp s)

/-- Phase MAP ends with the module unjoined (R529). -/
def endUnjoined (s : State) : State := modSupply s fun x => { x with unjoined := true, phase := 7 }

/-- Phase MAP begins: a snapshot is pulled, or with no SWITCH port UP the phase ends (R529). -/
def startMap (s : State) : State :=
  if s.supply.phase ≠ 6 ∨ s.supply.mapSince.isSome then s
  else
    let s := modSupply s fun x => { x with mapSince := some s.now }
    if switchPorts s = [] then endUnjoined s else pullSnapshot s

/-- Phase MAP begins (R529). -/
def execMapPhaseStart (s : State) : Out State Fault Refusal := .next (startMap s)

/-- No complete snapshot 500 ms after phase MAP began: the module is unjoined. One that does not list it keeps it in the phase (R446, R529). -/
def mapTimeout (s : State) : State :=
  match s.supply.mapSince with
  | some t => if s.supply.phase = 6 ∧ due s t (ms 500) ∧ s.map.comp.nodes = [] then endUnjoined s else s
  | none => s

/-- Phase MAP times out (R529). -/
def execMapPhaseTimeout (s : State) : Out State Fault Refusal := .next (mapTimeout s)

/-- The hold-up store reaches 80 V. A capacitance below 1.0 mF sets HOLDUP_LOW and raises one record, whose type and severity no table gives (R517; log entry 3). -/
def storeCharged (s : State) (capUf : Nat) : State :=
  if s.supply.phase < 2 ∨ s.supply.holdupReady then s
  else
    let s := modSupply s fun x => { x with holdupReady := true, capUf := min 65535 capUf }
    if 1000 ≤ capUf then s
    else
      let (a, s) := drawFree s
      event (setEvt s aSUPPLY_SHED 7) (a % 65536) (a / 65536 % 5) 0 0 0 0

/-- The hold-up store is charged (R517). -/
def execHoldupCharged (capUf : Nat) (s : State) : Out State Fault Refusal := .next (storeCharged s capUf)

/-- The module becomes READY: BOOT is raised, and the attestation key is derived (R405, R530); units that failed their self-test have been replaced (R546). -/
def becomeReady (s : State) : State :=
  if s.supply.phase ≠ 7 ∨ s.supply.ready ∨ !s.supply.holdupReady ∨ s.rkn.dvorro ≠ .running ∨ s.spares.switching ≠ [] then s
  else
    let t := (s.now - s.supply.time0) / ms 1
    let s := modSupply s fun x => { x with ready := true, readyMs := t % 2 ^ 32 }
    startAttestKey (event s eBOOT sevINFO 0 0 t s.rkn.running.version)

/-- The module is READY (R530). -/
def execModuleReady (s : State) : Out State Fault Refusal := .next (becomeReady s)

/-! ### Regulators (R458) -/

/-- A phase of a rail is lost: absorbed, or on a second loss an upper die's core is capped, and any other rail acts as L3. -/
def losePhase (s : State) (rail phase : Nat) : State :=
  let r := railState s rail
  if 9 ≤ rail ∨ Config.railPhases rail ≤ phase ∨ phase ∈ r.lost ∨ !r.on then s
  else
    let before := level s
    let s := modSupply s fun x => { x with rails := tset x.rails rail { r with lost := r.lost ++ [phase] } }
    let n := r.lost.length + 1
    let s := event (setEvt s (aSUPPLY_RAIL rail) 25) eREGULATOR_PHASE_LOST (if n < 2 then sevCORRECTED else sevFAILED) 12 rail rail (Config.railPhases rail - n)
    if forcedShed s then enterActions before 3 s else s

/-- A regulator phase is lost (R458). -/
def execRegulatorPhaseLost (rail phase : Nat) (s : State) : Out State Fault Refusal := .next (settle (losePhase s rail phase))

/-! ### The thermal monitor (R544, R545, R560, R561) -/

/-- THERMAL_CFG.WARN in 0.1 °C. -/
def warnLimit (s : State) : Int := 10 * (clamp 60 105 (regField s aTHERMAL 0 8) : Int)

/-- The threshold of a sensor's action in 0.1 °C (Table 20-7); THERMAL_RKN has none. -/
def actionLimit (i : Nat) : Option Int := if 8 ≤ i ∧ i ≤ 11 then some 950 else if i ≤ 12 then some 1100 else none

/-- A sensor is calibrated: from the end of phase ROM, the DRAM sensors with phase MEMORY, THERMAL_RKN from the end of phase RAILS (R544, Table 19-6). -/
def sensorReady (s : State) (i : Nat) : Bool :=
  if i = 13 then decide (2 ≤ s.supply.phase) else if 8 ≤ i ∧ i ≤ 11 then s.supply.memoryDone else decide (i < 13) && decide (3 ≤ s.supply.phase)

/-- A sensor with one sample more. -/
def sensorAfter (s : State) (i : Nat) (t : Int) : Sensor :=
  let x := tgetD s.supply.sensors i {}
  let hot := if x.overWarn then decide (warnLimit s - 20 < t) else decide (warnLimit s ≤ t)
  let act := match actionLimit i with
    | some l => x.action || decide (l ≤ t)
    | none => false
  let cool := match actionLimit i with
    | some l => decide (t ≤ l - 50)
    | none => false
  { x with
    temp := t, valid := true, stale := false, at_ := s.now, overWarn := hot, action := act
    coolSince := if !cool then none else if x.coolSince.isSome then x.coolSince else some s.now
    hotSince := if t < 1150 then none else if x.hotSince.isSome then x.hotSince else some s.now }

/-- The THERMAL_LIMIT record of a sensor. -/
def thermalRecord (s : State) (i sev : Nat) (t : Int) : State := event s eTHERMAL_LIMIT sev 15 i i (ofSigned 64 t)

/-- One sensor's sample: warning and action, each telling once when it begins (R545, R560). -/
def sampleSensor (s : State) (i : Nat) (t : Int) : State :=
  if sensorReady s i = false then s
  else
    let old := tgetD s.supply.sensors i {}
    let x := sensorAfter s i t
    let s := modSupply s fun y => { y with sensors := tset y.sensors i x }
    let s := if x.overWarn && !old.overWarn then thermalRecord (setEvt s aTHERMAL 8) i sevDEGRADED t else s
    if x.action && !old.action then thermalRecord s i sevDEGRADED t else s

/-- One sample of the thermal monitor (R544). -/
def execThermalSample (temps : List (Nat × Int)) (s : State) : Out State Fault Refusal :=
  .next (settle (temps.foldl (fun st (e : Nat × Int) => sampleSensor st e.1 e.2) s))

/-- A thermal action is released once its sensor has read 5 °C below the threshold for 100 ms; the admitted rates of its die rise as R44 gives (R560). -/
def releaseThermal (s : State) (i : Nat) : State :=
  let x := tgetD s.supply.sensors i {}
  match x.coolSince with
  | some t =>
    if x.action ∧ due s t (ms 100) then
      let s := modSupply s fun y => { y with sensors := tset y.sensors i { x with action := false } }
      if i < 8 then releaseRaises s (i % 4) else s
    else s
  | none => s

/-- A thermal action is released (R560). -/
def execThermalActionRelease (sensor : Nat) (s : State) : Out State Fault Refusal := .next (settle (releaseThermal s sensor))

/-- A die at 120 °C, or at 115 °C for 10 ms: the trip acts as RESET_N held low, and the module does not start again by itself (R560, R561). -/
def tripThermal (s : State) (i : Nat) : State :=
  let x := tgetD s.supply.sensors i {}
  let long := match x.hotSince with
    | some t => due s t (ms 10)
    | none => false
  if 12 < i ∨ !x.valid ∨ s.supply.tripped ∨ !(decide (1200 ≤ x.temp) || long) then s
  else enterToL3 (thermalRecord (modSupply s fun y => { y with tripped := true }) i sevFAILED x.temp)

/-- A thermal trip (R561). -/
def execThermalTrip (sensor : Nat) (s : State) : Out State Fault Refusal := .next (settle (tripThermal s sensor))

/-- A sensor with no sample for 10 ms is STALE (R544). -/
def markStale (s : State) (i : Nat) : State :=
  let x := tgetD s.supply.sensors i {}
  if x.valid && due s x.at_ (ms 10) then modSupply s fun y => { y with sensors := tset y.sensors i { x with stale := true } } else s

/-- A sensor goes stale (R544). -/
def execSensorStale (sensor : Nat) (s : State) : Out State Fault Refusal := .next (markStale s sensor)

end Sys2Proof.Machine
end

