-- ==== Sys2Proof/Machine/Dispatch.lean ====
section
/-! DEFINITION. The dispatch: one arm per command, each a direct call of the command's meaning. -/

namespace Sys2Proof.Machine

def exec (i : Instr) (s : State) : Host.Outcome State Fault Refusal :=
  match i with
  | .writeRegister c addr mask value => Sys2Proof.Machine.execWriteRegister c addr mask value s
  | .readRegister c addr count pend => Sys2Proof.Machine.execReadRegister c addr count pend s
  | .counterLowWordRead c addr => Sys2Proof.Machine.execCounterLowWordRead c addr s
  | .commitGroup c group => Sys2Proof.Machine.execCommitGroup c group s
  | .discardGroup c group => Sys2Proof.Machine.execDiscardGroup c group s
  | .governorEvaluation die => Sys2Proof.Machine.execGovernorEvaluation die s
  | .setpointStep die => Sys2Proof.Machine.execSetpointStep die s
  | .admissionRaiseRelease die => Sys2Proof.Machine.execAdmissionRaiseRelease die s
  | .canaryMeasure kind index margin => Sys2Proof.Machine.execCanaryMeasure kind index margin s
  | .canaryHoldExpiry die => Sys2Proof.Machine.execCanaryHoldExpiry die s
  | .portEnable lport => Sys2Proof.Machine.execPortEnable lport s
  | .portDisable lport => Sys2Proof.Machine.execPortDisable lport s
  | .disableDrainEnd lport => Sys2Proof.Machine.execDisableDrainEnd lport s
  | .laneReceiverReady lane precode => Sys2Proof.Machine.execLaneReceiverReady lane precode s
  | .trainingTimeout lport => Sys2Proof.Machine.execTrainingTimeout lport s
  | .flitLockAchieved lane => Sys2Proof.Machine.execFlitLockAchieved lane s
  | .helloSend lane => Sys2Proof.Machine.execHelloSend lane s
  | .helloReceive lane h => Sys2Proof.Machine.execHelloReceive lane h s
  | .helloTimeout lport => Sys2Proof.Machine.execHelloTimeout lport s
  | .flitTransmit lane => Sys2Proof.Machine.execFlitTransmit lane s
  | .flitReceive lane f drained => Sys2Proof.Machine.execFlitReceive lane f drained s
  | .missingLseqTimeout lport => Sys2Proof.Machine.execMissingLseqTimeout lport s
  | .replayTimeout lport => Sys2Proof.Machine.execReplayTimeout lport s
  | .laneLockLoss lane => Sys2Proof.Machine.execLaneLockLoss lane s
  | .laneUncorrectableLimit lane => Sys2Proof.Machine.execLaneUncorrectableLimit lane s
  | .symbolErrorWindow lane corrected symbols => Sys2Proof.Machine.execSymbolErrorWindow lane corrected symbols s
  | .laneRetire lport mask => Sys2Proof.Machine.execLaneRetire lport mask s
  | .laneAdd lport mask => Sys2Proof.Machine.execLaneAdd lport mask s
  | .linkDownCtl lport reason => Sys2Proof.Machine.execLinkDownCtl lport reason s
  | .departing lport => Sys2Proof.Machine.execDeparting lport s
  | .downBackoffExpiry lport => Sys2Proof.Machine.execDownBackoffExpiry lport s
  | .backoffReset lport => Sys2Proof.Machine.execBackoffReset lport s
  | .packetForward lport p => Sys2Proof.Machine.execPacketForward lport p s
  | .reseqContextIdle quarter src dst flow => Sys2Proof.Machine.execReseqContextIdle quarter src dst flow s
  | .residenceLimit lport queue => Sys2Proof.Machine.execResidenceLimit lport queue s
  | .packetTransmitSelect lport => Sys2Proof.Machine.execPacketTransmitSelect lport s
  | .gateEntryChange lport => Sys2Proof.Machine.execGateEntryChange lport s
  | .ackGatherFlush quarter src => Sys2Proof.Machine.execAckGatherFlush quarter src s
  | .ackReceive lport p => Sys2Proof.Machine.execAckReceive lport p s
  | .nakReceive lport p => Sys2Proof.Machine.execNakReceive lport p s
  | .rspReceive lport p => Sys2Proof.Machine.execRspReceive lport p s
  | .rspDataReceive lport p => Sys2Proof.Machine.execRspDataReceive lport p s
  | .retxTimerExpiry dst msg pidx rsp => Sys2Proof.Machine.execRetxTimerExpiry dst msg pidx rsp s
  | .packetAbandon dst msg pidx rsp => Sys2Proof.Machine.execPacketAbandon dst msg pidx rsp s
  | .assemblyTimeout quarter src msg => Sys2Proof.Machine.execAssemblyTimeout quarter src msg s
  | .dedupExpiry src msg => Sys2Proof.Machine.execDedupExpiry src msg s
  | .writeCompletionDelay dst msg => Sys2Proof.Machine.execWriteCompletionDelay dst msg s
  | .load lport p => Sys2Proof.Machine.execLoad lport p s
  | .store lport p => Sys2Proof.Machine.execStore lport p s
  | .atomic lport p => Sys2Proof.Machine.execAtomic lport p s
  | .fence lport p => Sys2Proof.Machine.execFence lport p s
  | .commandSpaceStore lport p => Sys2Proof.Machine.execCommandSpaceStore lport p s
  | .faultTimeout job fid => Sys2Proof.Machine.execFaultTimeout job fid s
  | .flowPendingExpiry src dst flow fseq => Sys2Proof.Machine.execFlowPendingExpiry src dst flow fseq s
  | .parkedBehindTimeout quarter src msg => Sys2Proof.Machine.execParkedBehindTimeout quarter src msg s
  | .rankedEpochApply job repoch => Sys2Proof.Machine.execRankedEpochApply job repoch s
  | .rankedEpochTimeout job repoch => Sys2Proof.Machine.execRankedEpochTimeout job repoch s
  | .combinedAtomicSend dst entry => Sys2Proof.Machine.execCombinedAtomicSend dst entry s
  | .lineRelease line => Sys2Proof.Machine.execLineRelease line s
  | .translationFenceDone fence => Sys2Proof.Machine.execTranslationFenceDone fence s
  | .wopen lport p => Sys2Proof.Machine.execWopen lport p s
  | .wrevoke lport p => Sys2Proof.Machine.execWrevoke lport p s
  | .windowDrained index => Sys2Proof.Machine.execWindowDrained index s
  | .openWindow c a => Sys2Proof.Machine.execOpenWindow c a s
  | .revokeWindow c force cap => Sys2Proof.Machine.execRevokeWindow c force cap s
  | .queryWindow c index => Sys2Proof.Machine.execQueryWindow c index s
  | .setWindowQuota c job quota => Sys2Proof.Machine.execSetWindowQuota c job quota s
  | .creqRdShared lport p => Sys2Proof.Machine.execCreqRdShared lport p s
  | .creqRdOwn lport p => Sys2Proof.Machine.execCreqRdOwn lport p s
  | .creqUpgrade lport p => Sys2Proof.Machine.execCreqUpgrade lport p s
  | .creqWbDirty lport p => Sys2Proof.Machine.execCreqWbDirty lport p s
  | .creqEvictClean lport p => Sys2Proof.Machine.execCreqEvictClean lport p s
  | .crspReceive lport p => Sys2Proof.Machine.execCrspReceive lport p s
  | .cdatReceive lport p => Sys2Proof.Machine.execCdatReceive lport p s
  | .snoopTimeout agent line => Sys2Proof.Machine.execSnoopTimeout agent line s
  | .reclaimScanEnd agent => Sys2Proof.Machine.execReclaimScanEnd agent s
  | .attachAgent c port snpCap creqCredits => Sys2Proof.Machine.execAttachAgent c port snpCap creqCredits s
  | .detachAgent c port force => Sys2Proof.Machine.execDetachAgent c port force s
  | .detachComplete agent => Sys2Proof.Machine.execDetachComplete agent s
  | .dirtyMarkSend page => Sys2Proof.Machine.execDirtyMarkSend page s
  | .writebackThreshold quarter => Sys2Proof.Machine.execWritebackThreshold quarter s
  | .budgetWaitRelease quarter => Sys2Proof.Machine.execBudgetWaitRelease quarter s
  | .flushNearTier c => Sys2Proof.Machine.execFlushNearTier c s
  | .stackFailure stack => Sys2Proof.Machine.execStackFailure stack s
  | .trayReachable tray => Sys2Proof.Machine.execTrayReachable tray s
  | .declareTrayLost c tray => Sys2Proof.Machine.execDeclareTrayLost c tray s
  | .poolFatalReport job => Sys2Proof.Machine.execPoolFatalReport job s
  | .publish lport p => Sys2Proof.Machine.execPublish lport p s
  | .createPublishRegion c a => Sys2Proof.Machine.execCreatePublishRegion c a s
  | .deletePublishRegion c job view => Sys2Proof.Machine.execDeletePublishRegion c job view s
  | .restorePages c job va images => Sys2Proof.Machine.execRestorePages c job va images s
  | .reduce lport p => Sys2Proof.Machine.execReduce lport p s
  | .partialData lport p => Sys2Proof.Machine.execPartialData lport p s
  | .abtUp lport p => Sys2Proof.Machine.execAbtUp lport p s
  | .abtDown lport p => Sys2Proof.Machine.execAbtDown lport p s
  | .abtDone lport p => Sys2Proof.Machine.execAbtDone lport p s
  | .beadPartial lport p => Sys2Proof.Machine.execBeadPartial lport p s
  | .reduceWrite lport p => Sys2Proof.Machine.execReduceWrite lport p s
  | .roundCompletionRecord rid => Sys2Proof.Machine.execRoundCompletionRecord rid s
  | .roundTimeout rid => Sys2Proof.Machine.execRoundTimeout rid s
  | .openReduction c a => Sys2Proof.Machine.execOpenReduction c a s
  | .closeReduction c rid => Sys2Proof.Machine.execCloseReduction c rid s
  | .abortReduction c rid => Sys2Proof.Machine.execAbortReduction c rid s
  | .queryReduction c rid => Sys2Proof.Machine.execQueryReduction c rid s
  | .gather lport p => Sys2Proof.Machine.execGather lport p s
  | .sieveGatherMem lport p => Sys2Proof.Machine.execSieveGatherMem lport p s
  | .sieveScatter lport p => Sys2Proof.Machine.execSieveScatter lport p s
  | .sieveSetop lport p => Sys2Proof.Machine.execSieveSetop lport p s
  | .sieveFilter lport p => Sys2Proof.Machine.execSieveFilter lport p s
  | .sieveDispatch lport p => Sys2Proof.Machine.execSieveDispatch lport p s
  | .sieveCombine lport p => Sys2Proof.Machine.execSieveCombine lport p s
  | .sieveChunkStart src msg => Sys2Proof.Machine.execSieveChunkStart src msg s
  | .sieveRequestEnd src msg => Sys2Proof.Machine.execSieveRequestEnd src msg s
  | .loadSieveProgram c slot last owner partno instrs => Sys2Proof.Machine.execLoadSieveProgram c slot last owner partno instrs s
  | .unloadSieveProgram c slot => Sys2Proof.Machine.execUnloadSieveProgram c slot s
  | .querySieveProgram c slot => Sys2Proof.Machine.execQuerySieveProgram c slot s
  | .slotLoadTimeout slot => Sys2Proof.Machine.execSlotLoadTimeout slot s
  | .doorbellRing lport p => Sys2Proof.Machine.execDoorbellRing lport p s
  | .doorbellResume lport p => Sys2Proof.Machine.execDoorbellResume lport p s
  | .doorbellAbort lport p => Sys2Proof.Machine.execDoorbellAbort lport p s
  | .descriptorStart engine => Sys2Proof.Machine.execDescriptorStart engine s
  | .moverUnit ch => Sys2Proof.Machine.execMoverUnit ch s
  | .moverStepBoundary ch => Sys2Proof.Machine.execMoverStepBoundary ch s
  | .descriptorEnd ch => Sys2Proof.Machine.execDescriptorEnd ch s
  | .openMoverChannel c ch ringLog2 prio job ringBase => Sys2Proof.Machine.execOpenMoverChannel c ch ringLog2 prio job ringBase s
  | .closeMoverChannel c ch => Sys2Proof.Machine.execCloseMoverChannel c ch s
  | .setMoverPriority c ch prio => Sys2Proof.Machine.execSetMoverPriority c ch prio s
  | .queryMoverChannel c ch => Sys2Proof.Machine.execQueryMoverChannel c ch s
  | .beadMode lport p => Sys2Proof.Machine.execBeadMode lport p s
  | .beadAttn lport p => Sys2Proof.Machine.execBeadAttn lport p s
  | .beadDot lport p => Sys2Proof.Machine.execBeadDot lport p s
  | .beadAxpy lport p => Sys2Proof.Machine.execBeadAxpy lport p s
  | .beadScan lport p => Sys2Proof.Machine.execBeadScan lport p s
  | .beadCommitPoint ch pair => Sys2Proof.Machine.execBeadCommitPoint ch pair s
  | .beadCommandEnd ch => Sys2Proof.Machine.execBeadCommandEnd ch s
  | .modeChangeEffect ch => Sys2Proof.Machine.execModeChangeEffect ch s
  | .beadPowerWindow stack => Sys2Proof.Machine.execBeadPowerWindow stack s
  | .assignBeadChannel c ch job => Sys2Proof.Machine.execAssignBeadChannel c ch job s
  | .releaseBeadChannel c ch => Sys2Proof.Machine.execReleaseBeadChannel c ch s
  | .queryBeadChannel c ch => Sys2Proof.Machine.execQueryBeadChannel c ch s
  | .rateEntryRecovery quarter dst => Sys2Proof.Machine.execRateEntryRecovery quarter dst s
  | .tallyExport quarter => Sys2Proof.Machine.execTallyExport quarter s
  | .mirror lport p => Sys2Proof.Machine.execMirror lport p s
  | .ptpMessage m => Sys2Proof.Machine.execPtpMessage m s
  | .setGateSchedule c lport sched => Sys2Proof.Machine.execSetGateSchedule c lport sched s
  | .setTallySession c a => Sys2Proof.Machine.execSetTallySession c a s
  | .readTally c quarter max => Sys2Proof.Machine.execReadTally c quarter max s
  | .getAttestation c nonce => Sys2Proof.Machine.execGetAttestation c nonce s
  | .getIdentityChain c => Sys2Proof.Machine.execGetIdentityChain c s
  | .allocateKeySlot c slot tenant => Sys2Proof.Machine.execAllocateKeySlot c slot tenant s
  | .installTenantKey c a => Sys2Proof.Machine.execInstallTenantKey c a s
  | .setKeyGrant c body sig => Sys2Proof.Machine.execSetKeyGrant c body sig s
  | .grantInForce slot => Sys2Proof.Machine.execGrantInForce slot s
  | .removeTenant c tenant => Sys2Proof.Machine.execRemoveTenant c tenant s
  | .queryKeySlot c slot ttag => Sys2Proof.Machine.execQueryKeySlot c slot ttag s
  | .keyZeroise slot => Sys2Proof.Machine.execKeyZeroise slot s
  | .zeroiseTimeout slot => Sys2Proof.Machine.execZeroiseTimeout slot s
  | .trayScrubStart slot => Sys2Proof.Machine.execTrayScrubStart slot s
  | .trayScrubEnd slot => Sys2Proof.Machine.execTrayScrubEnd slot s
  | .scrubRetry slot => Sys2Proof.Machine.execScrubRetry slot s
  | .mapLsr lport p => Sys2Proof.Machine.execMapLsr lport p s
  | .lsrAgeOut origin => Sys2Proof.Machine.execLsrAgeOut origin s
  | .mapAck lport p => Sys2Proof.Machine.execMapAck lport p s
  | .mapPrepare lport p => Sys2Proof.Machine.execMapPrepare lport p s
  | .mapSnapshot lport p => Sys2Proof.Machine.execMapSnapshot lport p s
  | .mapVote lport p => Sys2Proof.Machine.execMapVote lport p s
  | .mapCommit lport p => Sys2Proof.Machine.execMapCommit lport p s
  | .mapPull lport p => Sys2Proof.Machine.execMapPull lport p s
  | .mapResend lport key => Sys2Proof.Machine.execMapResend lport key s
  | .handoffOffer lport p => Sys2Proof.Machine.execHandoffOffer lport p s
  | .handoffAccept lport p => Sys2Proof.Machine.execHandoffAccept lport p s
  | .handoffProbe lport p => Sys2Proof.Machine.execHandoffProbe lport p s
  | .handoffClaim lport p => Sys2Proof.Machine.execHandoffClaim lport p s
  | .handoffProbeTimer tray => Sys2Proof.Machine.execHandoffProbeTimer tray s
  | .handoffSettleTimeout tray => Sys2Proof.Machine.execHandoffSettleTimeout tray s
  | .proposeMap c a => Sys2Proof.Machine.execProposeMap c a s
  | .queryMap c what id => Sys2Proof.Machine.execQueryMap c what id s
  | .setPortRole c lport role => Sys2Proof.Machine.execSetPortRole c lport role s
  | .drainModule c => Sys2Proof.Machine.execDrainModule c s
  | .unitFailure u cause => Sys2Proof.Machine.execUnitFailure u cause s
  | .rodSpareLoaded index => Sys2Proof.Machine.execRodSpareLoaded index s
  | .switchInComplete die => Sys2Proof.Machine.execSwitchInComplete die s
  | .errorRateWindow k index corrected => Sys2Proof.Machine.execErrorRateWindow k index corrected s
  | .bankPairCopyEnd channel => Sys2Proof.Machine.execBankPairCopyEnd channel s
  | .macroCopyEnd die macroIdx => Sys2Proof.Machine.execMacroCopyEnd die macroIdx s
  | .memoryUncorrectable w => Sys2Proof.Machine.execMemoryUncorrectable w s
  | .regulatorPhaseLost rail phase => Sys2Proof.Machine.execRegulatorPhaseLost rail phase s
  | .retireUnit c uclass unit => Sys2Proof.Machine.execRetireUnit c uclass unit s
  | .runDrill c a => Sys2Proof.Machine.execRunDrill c a s
  | .abortDrill c => Sys2Proof.Machine.execAbortDrill c s
  | .readEventLog c fromSeq max => Sys2Proof.Machine.execReadEventLog c fromSeq max s
  | .readDrillLog c fromIdx max => Sys2Proof.Machine.execReadDrillLog c fromIdx max s
  | .selfTestEnd kind index passed => Sys2Proof.Machine.execSelfTestEnd kind index passed s
  | .coreFailure core => Sys2Proof.Machine.execCoreFailure core s
  | .ucieLinkLoss module => Sys2Proof.Machine.execUcieLinkLoss module s
  | .ucieRetrainTimeout module => Sys2Proof.Machine.execUcieRetrainTimeout module s
  | .ucieReturn module => Sys2Proof.Machine.execUcieReturn module s
  | .mailboxSlot m sl => Sys2Proof.Machine.execMailboxSlot m sl s
  | .hostSlotStore lport p => Sys2Proof.Machine.execHostSlotStore lport p s
  | .hostMailboxDoorbell lport p => Sys2Proof.Machine.execHostMailboxDoorbell lport p s
  | .mgmtDatagram d => Sys2Proof.Machine.execMgmtDatagram d s
  | .responseResend session => Sys2Proof.Machine.execResponseResend session s
  | .sessionIdleTimeout session => Sys2Proof.Machine.execSessionIdleTimeout session s
  | .mctpMessage vendor endpoint sl => Sys2Proof.Machine.execMctpMessage vendor endpoint sl s
  | .pldmRequest ptype cmd sensor => Sys2Proof.Machine.execPldmRequest ptype cmd sensor s
  | .getIdentity c ttag => Sys2Proof.Machine.execGetIdentity c ttag s
  | .getStatus c ttag => Sys2Proof.Machine.execGetStatus c ttag s
  | .openSession c a => Sys2Proof.Machine.execOpenSession c a s
  | .closeSession c => Sys2Proof.Machine.execCloseSession c s
  | .setManagerKeys c keys => Sys2Proof.Machine.execSetManagerKeys c keys s
  | .bindHostMailbox c mbox lport => Sys2Proof.Machine.execBindHostMailbox c mbox lport s
  | .stageFirmware c offset data => Sys2Proof.Machine.execStageFirmware c offset data s
  | .verifyFirmware c length => Sys2Proof.Machine.execVerifyFirmware c length s
  | .activateFirmware c digest => Sys2Proof.Machine.execActivateFirmware c digest s
  | .queryFirmware c => Sys2Proof.Machine.execQueryFirmware c s
  | .retireLane c lane => Sys2Proof.Machine.execRetireLane c lane s
  | .retrainLane c lane => Sys2Proof.Machine.execRetrainLane c lane s
  | .releaseFlapHold c lport => Sys2Proof.Machine.execReleaseFlapHold c lport s
  | .setPortJobs c lport jobs => Sys2Proof.Machine.execSetPortJobs c lport jobs s
  | .installJob c a => Sys2Proof.Machine.execInstallJob c a s
  | .removeJob c job => Sys2Proof.Machine.execRemoveJob c job s
  | .writeTtEntries c a => Sys2Proof.Machine.execWriteTtEntries c a s
  | .resolveFault c a => Sys2Proof.Machine.execResolveFault c a s
  | .identity lport p => Sys2Proof.Machine.execIdentity lport p s
  | .statusQuery lport p => Sys2Proof.Machine.execStatusQuery lport p s
  | .supplySample m => Sys2Proof.Machine.execSupplySample m s
  | .shedLevelEnter level => Sys2Proof.Machine.execShedLevelEnter level s
  | .shedLevelLeave level => Sys2Proof.Machine.execShedLevelLeave level s
  | .inputOvervoltage vin => Sys2Proof.Machine.execInputOvervoltage vin s
  | .insertion contacts => Sys2Proof.Machine.execInsertion contacts s
  | .memoryDone failed => Sys2Proof.Machine.execMemoryDone failed s
  | .holdupCharged capUf => Sys2Proof.Machine.execHoldupCharged capUf s
  | .thermalSample temps => Sys2Proof.Machine.execThermalSample temps s
  | .thermalActionRelease sensor => Sys2Proof.Machine.execThermalActionRelease sensor s
  | .thermalTrip sensor => Sys2Proof.Machine.execThermalTrip sensor s
  | .sensorStale sensor => Sys2Proof.Machine.execSensorStale sensor s
  | .unreachableTrayParkTimeout quarter src msg => Sys2Proof.Machine.execUnreachableTrayParkTimeout quarter src msg s
  | .windowLostRevokeHold index => Sys2Proof.Machine.execWindowLostRevokeHold index s
  | .entdaa address => Sys2Proof.Machine.execEntdaa address s
  | .trainingStartGrant => Sys2Proof.Machine.execTrainingStartGrant s
  | .drbgReseed => Sys2Proof.Machine.execDrbgReseed s
  | .flushEnd => Sys2Proof.Machine.execFlushEnd s
  | .attestationSigned => Sys2Proof.Machine.execAttestationSigned s
  | .akCertified => Sys2Proof.Machine.execAkCertified s
  | .lsrOriginate => Sys2Proof.Machine.execLsrOriginate s
  | .lsrRefresh => Sys2Proof.Machine.execLsrRefresh s
  | .voteTimeout => Sys2Proof.Machine.execVoteTimeout s
  | .stagedVerdictTimeout => Sys2Proof.Machine.execStagedVerdictTimeout s
  | .graceEnd => Sys2Proof.Machine.execGraceEnd s
  | .drainFinalWait => Sys2Proof.Machine.execDrainFinalWait s
  | .drillInjectEnd => Sys2Proof.Machine.execDrillInjectEnd s
  | .drillLaneRestore => Sys2Proof.Machine.execDrillLaneRestore s
  | .watchdogRestart => Sys2Proof.Machine.execWatchdogRestart s
  | .dvorroRestartEnd => Sys2Proof.Machine.execDvorroRestartEnd s
  | .activationWindowEnd => Sys2Proof.Machine.execActivationWindowEnd s
  | .flashWriteStart => Sys2Proof.Machine.execFlashWriteStart s
  | .flashWriteEnd => Sys2Proof.Machine.execFlashWriteEnd s
  | .firmwareFallback => Sys2Proof.Machine.execFirmwareFallback s
  | .holdupTimerExpiry => Sys2Proof.Machine.execHoldupTimerExpiry s
  | .logSaveEnd => Sys2Proof.Machine.execLogSaveEnd s
  | .l4Recovery => Sys2Proof.Machine.execL4Recovery s
  | .resetAssert => Sys2Proof.Machine.execResetAssert s
  | .resetRelease => Sys2Proof.Machine.execResetRelease s
  | .senseLoss => Sys2Proof.Machine.execSenseLoss s
  | .bringupStart => Sys2Proof.Machine.execBringupStart s
  | .railsDone => Sys2Proof.Machine.execRailsDone s
  | .portPlanRestore => Sys2Proof.Machine.execPortPlanRestore s
  | .romDone => Sys2Proof.Machine.execRomDone s
  | .imageVerified => Sys2Proof.Machine.execImageVerified s
  | .linksPhaseStart => Sys2Proof.Machine.execLinksPhaseStart s
  | .linksDone => Sys2Proof.Machine.execLinksDone s
  | .mapPhaseStart => Sys2Proof.Machine.execMapPhaseStart s
  | .mapPhaseTimeout => Sys2Proof.Machine.execMapPhaseTimeout s
  | .moduleReady => Sys2Proof.Machine.execModuleReady s
  | .portPlanSave => Sys2Proof.Machine.execPortPlanSave s

end Sys2Proof.Machine
end

