-- ==== Sys2Proof/Machine/Step.lean ====
section
/-! DEFINITION. One step of the block: the command at the front of its queue, or one nanosecond of idling. -/

namespace Sys2Proof.Machine

/-- The state with its queue of waiting commands replaced. -/
def withPending (s : State) (l : List Instr) : State := { s with pending := l }

/-- One step: the front command acts on the state with the rest of the queue; an empty queue lets one ns pass (log entry 2). -/
def step (s : State) : Host.Outcome State Fault Refusal :=
  match s.pending with
  | c :: rest => exec c (withPending s rest)
  | [] => .next (tick s)

/-- The state with the command that a word spells at the front of its queue; unchanged where the word spells none. -/
def State.withFetchWord (s : State) (nbits w : Nat) : State :=
  match decodeTableWord nbits w with
  | some c => withPending s (c :: s.pending)
  | none => s

end Sys2Proof.Machine
end

