-- ==== Sys2Proof/Safety.lean ====
section
/-! DEFINITION. What claims mean by a run that completes, by a state in good form, and by a packet that comes to its service at this module. -/

namespace Sys2Proof.Machine

/-- A command completes: it answers a next state. -/
def Completes (c : Instr) (s : State) : Prop := ∃ t, exec c s = .next t

/-- Pool memory is in its canonical form. -/
def MemoryGood (s : State) : Prop := Memory.wf s.pool.mem = true

/-- Two states read the same byte of pool memory at an address. -/
def SameByte (s t : State) (a : Nat) : Prop := memRead t.pool.mem a = memRead s.pool.mem a

/-- The last response given is a command's `SUCCESS` with its result. -/
def AnsweredOk (t : State) (c : Caller) (op : Nat) (result : List Byte) : Prop :=
  t.rkn.answers.head? = some (c.mbox, { opcode := op, cseq := c.cseq, completion := mSUCCESS, detail := 0, result := result })

/-- The last response given is a command's completion code with its detail and no result. -/
def AnsweredWith (t : State) (c : Caller) (op code detail : Nat) : Prop :=
  t.rkn.answers.head? = some (c.mbox, { opcode := op, cseq := c.cseq, completion := code, detail := detail, result := [] })

/-- What a packet on a port meets before it is placed (R99, R121, R428, R447, R448, R531, R570): none of it turns the packet away. -/
def passesPort (s : State) (q : Nat) (p : Packet) : Bool :=
  (isReady s || (isMap p && decide (6 ≤ s.supply.phase) && decide (roleOf s q = roleSWITCH)))
    && (headerCheck p).isNone && !(isQuery p && forMe s p) && decide (roleOf s q ≠ roleMIRROR) && decide (roleOf s q ≠ roleNONE)
    && !unassigned s q p && (notAdmitted s q p).isNone && (jobRefusal s q p).isNone

/-- The state of a module in which a packet that came in on a port is about to be checked: it has left the dock, its CRC holds, it is policed, captured, and not discarded by a shed level. -/
def takenIn (s : State) (q : Nat) (p : Packet) : Option (Colour × State) :=
  if !isUp s q && !inDock s q p then none
  else if p.crc ≠ packetCrc p then none
  else
    let x := police (takeFromDock s q p) q p
    if 2 ≤ level x.2 ∧ (p.tc = 3 ∨ p.tc = 4 ∨ p.tc = 7) then none
    else some (x.1, capture x.2 q (2 * p.tc) 0 x.1 p)

/-- When a packet for this module, from a port or from the module itself, came in, and the state in which it is delivered here; none where it is discarded, refused or goes on. -/
def delivered (s : State) (q : Nat) (p : Packet) : Option (Ns × State) :=
  if q = selfPort then (takeInternal s p).map fun u => (u.now, u)
  else match takenIn s q p with
    | none => none
    | some (_, u) => if passesPort u q p && forMe u p && !(staleEpoch u p && !knownCopy u p) then some (arrivedAt s q p, u) else none

/-- The request that a packet on a port is; it came in at `t`. -/
def arrived (t : Ns) (q : Nat) (p : Packet) : Req := { pkt := p, lport := q, at_ := t }

/-- A packet that does not differ from a message in progress acts in the state in which its flow no longer waits for it (R90, R139). -/
def acting (t : Ns) (p : Packet) (v : State) : Option (Ns × State) := if oddPacket (unpend v p) p then none else some (t, unpend v p)

/-- When a packet came in that comes to its service at this module by itself, and the state then: an ordered one when its resequencer gives it and nothing after it (R21, R111). -/
def served (s : State) (q : Nat) (p : Packet) : Option (Ns × State) :=
  match delivered s q p with
  | none => none
  | some (t, u) =>
    let n := homeQuarter u q p
    let u := if q = selfPort then u else crossPacket u (quarterOf q) n p
    if inFlow p then
      match resequence u n (arrived t q p) with
      | (.deliver first [], v) => if first = arrived t q p then acting t p v else none
      | _ => none
    else acting t p u

/-- What follows the service of a packet: waiting requests that may run now, and the credits of a lossless packet (R66, R139). -/
def finish (s : State) (q : Nat) (p : Packet) (v : State) : State :=
  if q = selfPort then settle v else withCredits (takeFromDock s q p) q (arrivedAt s q p) p fun _ => settle v

/-- A request as it waits or acts at its home. -/
def entrant (t : Ns) (q : Nat) (p : Packet) : Waiter := { req := arrived t q p, why := .behind, quarter := quarterOf q }

/-- The code, if any, with which R121 and R152 refuse a request for its epoch. -/
def epochCode (s : State) (p : Packet) : Option Nat :=
  if p.op = opATOMIC then epochRefusal s p (atomicEpoch p) else if p.op = opFENCE then epochRefusal s p (bits p.oparg 15 8) else none

/-- A memory request that none of the checks of its home turns away (R90, R101, R103, R121, R152, R163) and that no earlier packet of its flow holds back: how it enters, and the state then. -/
def memEntered (s : State) (t : Ns) (q : Nat) (p : Packet) : Option (Waiter × State) :=
  if (dedupOf s p).isSome || (memFieldCheck s q p).isSome then none
  else
    let x : Option Waiter × State :=
      if throughWindow p then
        match checkWindow s p p.cap p.addr (memSize p) (memRight p) with
        | (none, u) => (some { entrant t q p with win := some (capIndex p.cap) }, u)
        | (some _, u) => (none, u)
      else (some (entrant t q p), s)
    match x with
    | (none, _) => none
    | (some w, u) =>
      if waitingCopy u p || (epochCode u p).isSome || (w.win.isNone && decide (p.op ≠ opFENCE) && !thas u.pool.jobs p.job)
          || (nonIdempotent p && decide (1048576 < u.net.dedup.length + dedupNeed u p))
          || decide (placeOf u (quarterOf q) p ≠ .fresh) || waitsBehind (notePacket u (quarterOf q) p) w then none
      else some (w, notePacket u (quarterOf q) p)

/-- A STORE to command space that none of the common checks turns away or holds back (R89, R101, R103, R128). -/
def commandEntered (s : State) (q : Nat) (p : Packet) : Bool :=
  decide (p.op = opSTORE) && toCommandSpace p && (dedupOf s p).isNone && !waitingCopy s p && decide (p.pcnt = 0) && (memFieldCheck s q p).isNone
    && !dedupFull s && !flowBlocked s p

/-- The operands of a bead command that passes every check of its channel and finds room in its queue, and the state after the checks (R346 to R348). -/
def beadChecked (s : State) (q c : Nat) (p : Packet) : Option (List (BeadOp × List Piece) × State) :=
  if beadMalformed p || decide ((beadCh s c).owner ≠ some p.job) then none
  else match spansOf s (quarterOf q) p.job (beadOps p) with
    | (.ok l, x) =>
      if (rightsBad x p.job l).isSome || (beadWrBad l).isSome || !placementOk x c l
          || (decide (bhBop p = bopATTN) && (groupBad x p).isSome) || decide (256 ≤ (beadCh x c).queue.length) then none
      else some (l, x)
    | _ => none

/-- A request of the dedup table that is new here and finds room in it (R101, R103). -/
def newHere (s : State) (p : Packet) : Bool := (dedupOf s p).isNone && !dedupFull s

/-- A CREQ that its agent may send here: well formed, from the node of its link's partner, of an ATTACHED agent with a CREQ left, and aligned where it names an address (R188, R191, R192). -/
def creqChecked (s : State) (q : Nat) (p : Packet) : Bool :=
  !creqMalformed p && decide (p.src = (lport s q).partnerNode) && decide ((agentOf s (q / 8)).state = .attached) && decide (creqCount s (q / 8) < (agentOf s (q / 8)).creqCredits)
    && (decide (3 ≤ ckind p) || decide (p.addr % 128 = 0))

/-- The line of a CREQ that asks for a line: its number, its part, and the state in which its directory entry is looked at; none where the access is refused, held, or granted without caching (R133, R185, R186, R205). -/
def creqLine (s : State) (q : Nat) (p : Packet) : Option (Nat × Part × State) :=
  match reach s (quarterOf q) p.job p.job rightRead p.addr 128 with
  | (.ok l, x) => match partsOf l 0 with
    | y :: _ =>
      if ckind p ≠ 0 && !bit (leafRights y.leaf) rightWrite then none
      else match placeHold x 0 .read y with
        | (some _, _) => none
        | (none, x) =>
          if deadLine x y.line || ((lostBy x y.line).isNone && imageBad x y.line y.leaf) then none
          else
            let z := countRead (expandPage x p.job p.addr y.leaf) true [y]
            match hlnOf z y.line with
            | none => none
            | some h =>
              let z := lookupDir z h
              if (lostBy z y.line).isNone && (leafBeadWr y.leaf || inView z p.job p.addr || decide (channelMode z y.line = .shared)) then none
              else some (h, y, z)
    | [] => none
  | _ => none

/-- A PUBLISH that none of the checks before its region turns away or holds back (R101, R121, R230): how it is attempted, and the state then. -/
def publishEntered (s : State) (t : Ns) (q : Nat) (p : Packet) : Option (Waiter × State) :=
  if !newHere s p || waitingCopy s p || publishMalformed p then none
  else if p.oparg = 1 then
    if (regionOf s { entrant t q p with win := some (capIndex p.cap) }).isNone && decide ((windowAt s (capIndex p.cap)).tag = capTag p.cap) then none
    else match checkWindow s p p.cap p.addr (publishSpan s p) wWrite with
      | (none, u) => if flowBlocked u p then none else some ({ entrant t q p with win := some (capIndex p.cap) }, u)
      | _ => none
  else if !thas s.pool.jobs p.job || flowBlocked s p then none
  else some (entrant t q p, s)

/-- A GATHER that none of the checks before its records turns away or holds back (R271, R276): how it is attempted, and the state then. -/
def gatherEntered (s : State) (t : Ns) (q : Nat) (p : Packet) : Option (Waiter × State) :=
  if gatherMalformed p || decide (p.addr % 8 ≠ 0) then none
  else if p.oparg % 4 = 1 then
    match gatherWindow s p (firstUses 0 (gaList p) []) with
    | (none, u) => if waitingCopy u p || flowBlocked u p then none else some ({ entrant t q p with win := some (capIndex p.cap) }, u)
    | _ => none
  else if !thas s.pool.jobs p.job || waitingCopy s p || flowBlocked s p then none
  else some (entrant t q p, s)

/-- A SIEVE request that passes the checks of R280, whose operands lie here (R271), and that finds staging and a place in the dedup table: its quarter, the staging it needs, and the state then. -/
def sieveEntered (s : State) (q : Nat) (p : Packet) : Option (Nat × Nat × State) :=
  if (dedupOf s p).isSome || sieveMalformed p || ((extents p).any fun e => decide (opAddr p e.o % 128 ≠ 0)) || (filterRefusal s p).isSome
      || ((extents p).any (fun e => decide (opCap p e.o = 0)) && !thas s.pool.jobs p.job) then none
  else match operandWindows s p (extents p) with
    | (some _, _) => none
    | (none, u) =>
      let n := sieveQuarter u p (quarterOf q)
      let need := if sfnOf p = 5 then 2 * pH p * enginesOf u p else 0
      if operandStrays u p || decide (2097152 < stagingUsed u n + need) || dedupFull u then none else some (n, need, u)

/-- The mailbox commands: the caller, the opcode, and the jobs that the command names as its own (R484). -/
def mailboxCommand (i : Instr) : Option (Caller × Nat × List Nat) :=
  match i with
  | .writeRegister c _ _ _ => some (c, mbWRITE_REGISTER, [])
  | .readRegister c _ _ _ => some (c, mbREAD_REGISTER, [])
  | .commitGroup c _ => some (c, mbCOMMIT_GROUP, [])
  | .discardGroup c _ => some (c, mbDISCARD_GROUP, [])
  | .openWindow c a => some (c, mbOPEN_WINDOW, [a.job])
  | .revokeWindow c _ _ => some (c, mbREVOKE_WINDOW, [])
  | .queryWindow c _ => some (c, mbQUERY_WINDOW, [])
  | .setWindowQuota c job _ => some (c, mbSET_WINDOW_QUOTA, [job])
  | .attachAgent c _ _ _ => some (c, mbATTACH_AGENT, [])
  | .detachAgent c _ _ => some (c, mbDETACH_AGENT, [])
  | .flushNearTier c => some (c, mbFLUSH_NEAR_TIER, [])
  | .declareTrayLost c _ => some (c, mbDECLARE_TRAY_LOST, [])
  | .createPublishRegion c a => some (c, mbCREATE_PUBLISH_REGION, [a.job])
  | .deletePublishRegion c job _ => some (c, mbDELETE_PUBLISH_REGION, [job])
  | .openReduction c a => some (c, mbOPEN_REDUCTION, [a.job])
  | .closeReduction c _ => some (c, mbCLOSE_REDUCTION, [])
  | .abortReduction c _ => some (c, mbABORT_REDUCTION, [])
  | .queryReduction c _ => some (c, mbQUERY_REDUCTION, [])
  | .loadSieveProgram c _ _ owner _ _ => some (c, mbLOAD_SIEVE_PROGRAM, [owner])
  | .unloadSieveProgram c _ => some (c, mbUNLOAD_SIEVE_PROGRAM, [])
  | .querySieveProgram c _ => some (c, mbQUERY_SIEVE_PROGRAM, [])
  | .openMoverChannel c _ _ _ job _ => some (c, mbOPEN_MOVER_CHANNEL, [job])
  | .closeMoverChannel c _ => some (c, mbCLOSE_MOVER_CHANNEL, [])
  | .setMoverPriority c _ _ => some (c, mbSET_MOVER_PRIORITY, [])
  | .queryMoverChannel c _ => some (c, mbQUERY_MOVER_CHANNEL, [])
  | .assignBeadChannel c _ job => some (c, mbASSIGN_BEAD_CHANNEL, [job])
  | .releaseBeadChannel c _ => some (c, mbRELEASE_BEAD_CHANNEL, [])
  | .queryBeadChannel c _ => some (c, mbQUERY_BEAD_CHANNEL, [])
  | .setGateSchedule c _ _ => some (c, mbSET_GATE_SCHEDULE, [])
  | .setTallySession c _ => some (c, mbSET_TALLY_SESSION, [])
  | .readTally c _ _ => some (c, mbREAD_TALLY, [])
  | .getAttestation c _ => some (c, mbGET_ATTESTATION, [])
  | .getIdentityChain c => some (c, mbGET_IDENTITY_CHAIN, [])
  | .allocateKeySlot c _ _ => some (c, mbALLOCATE_KEY_SLOT, [])
  | .installTenantKey c _ => some (c, mbINSTALL_TENANT_KEY, [])
  | .setKeyGrant c _ _ => some (c, mbSET_KEY_GRANT, [])
  | .removeTenant c _ => some (c, mbREMOVE_TENANT, [])
  | .queryKeySlot c _ _ => some (c, mbQUERY_KEY_SLOT, [])
  | .proposeMap c _ => some (c, mbPROPOSE_MAP, [])
  | .queryMap c _ _ => some (c, mbQUERY_MAP, [])
  | .setPortRole c _ _ => some (c, mbSET_PORT_ROLE, [])
  | .drainModule c => some (c, mbDRAIN_MODULE, [])
  | .retireUnit c _ _ => some (c, mbRETIRE_UNIT, [])
  | .runDrill c _ => some (c, mbRUN_DRILL, [])
  | .abortDrill c => some (c, mbABORT_DRILL, [])
  | .readEventLog c _ _ => some (c, mbREAD_EVENT_LOG, [])
  | .readDrillLog c _ _ => some (c, mbREAD_DRILL_LOG, [])
  | .getIdentity c _ => some (c, mbGET_IDENTITY, [])
  | .getStatus c _ => some (c, mbGET_STATUS, [])
  | .openSession c _ => some (c, mbOPEN_SESSION, [])
  | .closeSession c => some (c, mbCLOSE_SESSION, [])
  | .setManagerKeys c _ => some (c, mbSET_MANAGER_KEYS, [])
  | .restorePages c job _ _ => some (c, mbRESTORE_PAGES, [job])
  | .bindHostMailbox c _ _ => some (c, mbBIND_HOST_MAILBOX, [])
  | .stageFirmware c _ _ => some (c, mbSTAGE_FIRMWARE, [])
  | .verifyFirmware c _ => some (c, mbVERIFY_FIRMWARE, [])
  | .activateFirmware c _ => some (c, mbACTIVATE_FIRMWARE, [])
  | .queryFirmware c => some (c, mbQUERY_FIRMWARE, [])
  | .retireLane c _ => some (c, mbRETIRE_LANE, [])
  | .retrainLane c _ => some (c, mbRETRAIN_LANE, [])
  | .releaseFlapHold c _ => some (c, mbRELEASE_FLAP_HOLD, [])
  | .setPortJobs c _ _ => some (c, mbSET_PORT_JOBS, [])
  | .installJob c a => some (c, mbINSTALL_JOB, [a.job])
  | .removeJob c job => some (c, mbREMOVE_JOB, [job])
  | .writeTtEntries c a => some (c, mbWRITE_TT_ENTRIES, [a.job])
  | .resolveFault c a => some (c, mbRESOLVE_FAULT, [a.job])
  | _ => none

end Sys2Proof.Machine
end

