-- ==== Sys2Proof/WellFormed.lean ====
section
/-! DEFINITION. Well-formed commands: every operand within the field of the spec that carries it, or within the range of the unit it names. -/

namespace Sys2Proof

/-- A value fits a field of `w` bits. -/
def fits (w n : Nat) : Bool := decide (n < 2 ^ w)

/-- A logical port a packet arrives on; 0x3FF stands for the module itself. -/
def portOk (q : Nat) : Bool := decide (q < 512 ∨ q = 0x3FF)

/-- A packet whose fields fit Table 4-1, with its extension as FLAGS.EXT says (R83). -/
def packetOk (p : Packet) : Bool :=
  fits 4 p.ver && fits 3 p.tc && fits 8 p.op && fits 16 p.flags && fits 16 p.dst && fits 16 p.src && fits 16 p.job && fits 8 p.epoch
    && fits 16 p.flow && fits 16 p.fseq && fits 24 p.msg && fits 12 p.pidx && fits 12 p.pcnt && fits 16 p.status && fits 32 p.oparg
    && fits 64 p.addr && fits 64 p.cap && fits 28 p.rsv && decide (p.ext.length = if p.flags.testBit 0 then 16 else 0)
    && decide (p.ext.length + p.payload.length ≤ 4096) && fits 32 p.crc

/-- A flit whose fields fit Table 3-4. -/
def flitOk (f : Flit) : Bool :=
  fits 2 f.fkind && fits 12 f.lseq && fits 12 f.lack && fits 8 f.fpo && fits 8 f.pend && fits 2 f.cselA && fits 12 f.ccumA && fits 2 f.cselB
    && fits 12 f.ccumB && fits 3 f.txlane && decide (f.payload.length ≤ 240) && fits 32 f.lcrc

/-- A HELLO whose fields fit Table 3-11. -/
def helloOk (h : Hello) : Bool :=
  fits 8 h.helloVer && fits 16 h.node && fits 16 h.lport && fits 8 h.width && fits 8 h.lane && fits 16 h.credTc0 && fits 16 h.credTc1
    && fits 16 h.credTc2 && fits 16 h.credTc5 && fits 16 h.replayDepth

/-- A unit of Table 1-2. -/
def unitOk (k : UnitKind) (i : Nat) : Bool :=
  match k with
  | .rod => decide (i < 64)
  | .carry => decide (i < 96)
  | .sieve => decide (i < 64)
  | .mover => decide (i < 32)

/-- A unit or a bead of the module. -/
def failedOk (u : FailedUnit) : Bool :=
  match u with
  | .unit k i => unitOk k i
  | .bead c p => decide (c < 128 ∧ p < 16)

/-- A mailbox of Table 17-2. -/
def mboxOk (m : MboxId) : Bool :=
  match m with
  | .fm i => decide (i < 2)
  | .host i => decide (i < 16)
  | .baseboard => true
  | .clear p => decide (p < 2)

/-- A caller whose header fields fit Table 17-3. -/
def callerOk (c : Caller) : Bool := mboxOk c.mbox && fits 32 c.cseq && fits 10 c.tslot

/-- A command slot whose fields fit Table 17-3. -/
def slotOk (sl : MboxSlot) : Bool :=
  fits 16 sl.opcode && fits 32 sl.cseq && fits 16 sl.len && fits 16 sl.part && fits 32 sl.total && fits 64 sl.session && fits 10 sl.tslot
    && decide (sl.args.length ≤ 224)

/-- A datagram whose fields fit Table 17-6. -/
def datagramOk (d : Datagram) : Bool :=
  decide (d.port < 2) && fits 8 d.dkind && fits 64 d.sessionId && fits 64 d.dseq && fits 64 d.rpos && d.slots.all slotOk

/-- The arguments of the mailbox commands fit their types (Table 17-8). -/
def windowArgsOk (a : OpenWindowArgs) : Bool :=
  fits 16 a.job && fits 8 a.rights && fits 8 a.evtLog2 && fits 16 a.evtNode && fits 64 a.base && fits 64 a.length && fits 64 a.evtCap
def publishArgsOk (a : PublishArgs) : Bool :=
  fits 16 a.job && fits 8 a.span && decide (a.pubs.length ≤ 8) && a.pubs.all (fits 16) && fits 64 a.view && fits 64 a.vword && fits 64 a.version
def reductionArgsOk (a : OpenReductionArgs) : Bool :=
  fits 32 a.rid && fits 16 a.job && fits 8 a.cop && fits 8 a.fmt && fits 8 a.rfmt && fits 8 a.rmode && fits 8 a.sat && fits 8 a.ranked
    && fits 8 a.qn && fits 8 a.dmode && fits 8 a.dtc && fits 16 a.parent && fits 16 a.round0 && fits 16 a.dnode && fits 16 a.dgroup
    && fits 32 a.length && fits 32 a.ntotal && fits 32 a.roundTimeout && fits 64 a.dcap && fits 64 a.resBase && fits 64 a.cplOffset
    && fits 16 a.inputs.length && a.inputs.all fun x => fits 16 x.kind && fits 16 x.node && fits 32 x.rank
def jobArgsOk (a : InstallJobArgs) : Bool :=
  fits 16 a.job && fits 8 a.ranked && fits 16 a.pagerNode && fits 32 a.faultSlots && fits 32 a.parkTimeout && fits 64 a.ttRoot && fits 64 a.pagerCap
    && a.rankedSet.all fun n => decide (n < 16384)
def ttArgsOk (a : WriteTtArgs) : Bool :=
  fits 16 a.job && fits 8 a.level && fits 16 a.first && fits 64 a.table && fits 16 a.entries.length && a.entries.all (fits 64)
def faultArgsOk (a : ResolveFaultArgs) : Bool := fits 16 a.job && fits 8 a.outcome && fits 8 a.hasLeaf && fits 32 a.fid && fits 64 a.leaf
def tallyArgsOk (a : TallySessionArgs) : Bool :=
  fits 8 a.session && fits 8 a.enable && fits 8 a.shift && fits 8 a.tcMask && fits 8 a.events && fits 8 a.anyMask && fits 8 a.op && fits 16 a.lport
    && fits 16 a.job && fits 16 a.src && fits 16 a.dst
def mapArgsOk (a : ProposeMapArgs) : Bool :=
  fits 8 a.base && fits 8 a.maxTransit && fits 16 a.records.length && a.records.all fun r => decide (r.length = 32)
def drillArgsOk (a : DrillArgs) : Bool := fits 8 a.dkind && fits 16 a.id && fits 32 a.target && fits 64 a.p0 && fits 64 a.p1
def sessionArgsOk (a : OpenSessionArgs) : Bool :=
  fits 8 a.keyIdx && decide (a.nonce.length = 32 ∧ a.kemCt.length = 1568 ∧ a.mgrSig.length = 49856)

/-- What the monitors of chapters 16 and 18 name. -/
def errorUnitOk (k : ErrorUnit) : Bool :=
  match k with
  | .bankPair c => decide (c < 128)
  | .sramMacro d => decide (d < 4)
def placeOk (w : ErrorPlace) : Bool :=
  match w with
  | .packetBuffer q i => decide (q < 512 ∧ i < 16)
  | .directory n set way => decide (n < 4 ∧ set < 2 ^ 21 ∧ way < 16)
  | .translation n job lvl _ => decide (n < 4 ∧ lvl < 4) && fits 16 job
  | .window i => decide (i < 2 ^ 20)
  | .staging rid _ _ => fits 32 rid
  | .dramLine l => decide (l < 2 ^ 57)
def sampleOk (m : SupplySample) : Bool := decide (m.vin < 2 ^ 17) && fits 16 m.iin && fits 16 m.pin && fits 14 m.vstore && decide (m.rails.length = 9)

/-- The operands of a command lie in the ranges that the spec gives them. -/
def wellFormed (i : Instr) : Bool :=
  match i with
  | .writeRegister c addr mask value => callerOk c && fits 32 addr && fits 32 mask && fits 32 value
  | .readRegister c addr count pend => callerOk c && fits 32 addr && fits 16 count && fits 8 pend
  | .counterLowWordRead c addr => callerOk c && fits 32 addr
  | .commitGroup c group => callerOk c && fits 8 group
  | .discardGroup c group => callerOk c && fits 8 group
  | .governorEvaluation die => decide (die < 4)
  | .setpointStep die => decide (die < 4)
  | .admissionRaiseRelease die => decide (die < 4)
  | .canaryMeasure kind index margin => unitOk kind index && decide (margin < 65536)
  | .canaryHoldExpiry die => decide (die < 4)
  | .portEnable lport => decide (lport < 512)
  | .portDisable lport => decide (lport < 512)
  | .disableDrainEnd lport => decide (lport < 512)
  | .trainingStartGrant => true
  | .laneReceiverReady lane _ => decide (lane < 512)
  | .trainingTimeout lport => decide (lport < 512)
  | .flitLockAchieved lane => decide (lane < 512)
  | .helloSend lane => decide (lane < 512)
  | .helloReceive lane h => decide (lane < 512) && helloOk h
  | .helloTimeout lport => decide (lport < 512)
  | .flitTransmit lane => decide (lane < 512)
  | .flitReceive lane f _ => decide (lane < 512) && flitOk f
  | .missingLseqTimeout lport => decide (lport < 512)
  | .replayTimeout lport => decide (lport < 512)
  | .laneLockLoss lane => decide (lane < 512)
  | .laneUncorrectableLimit lane => decide (lane < 512)
  | .symbolErrorWindow lane corrected symbols => decide (lane < 512) && decide (corrected < 2 ^ 64) && decide (symbols < 2 ^ 64)
  | .laneRetire lport mask => decide (lport < 512) && decide (mask < 256)
  | .laneAdd lport mask => decide (lport < 512) && decide (mask < 256)
  | .linkDownCtl lport reason => decide (lport < 512) && decide (reason < 8)
  | .departing lport => decide (lport < 512)
  | .downBackoffExpiry lport => decide (lport < 512)
  | .backoffReset lport => decide (lport < 512)
  | .packetForward lport p => portOk lport && packetOk p
  | .reseqContextIdle quarter src dst flow => decide (quarter < 4) && decide (src < 65536) && decide (dst < 65536) && decide (flow < 65536)
  | .residenceLimit lport queue => portOk lport && decide (queue < 16)
  | .packetTransmitSelect lport => decide (lport < 512)
  | .gateEntryChange lport => decide (lport < 512)
  | .ackGatherFlush quarter src => decide (quarter < 4) && decide (src < 65536)
  | .ackReceive lport p => portOk lport && packetOk p
  | .nakReceive lport p => portOk lport && packetOk p
  | .rspReceive lport p => portOk lport && packetOk p
  | .rspDataReceive lport p => portOk lport && packetOk p
  | .retxTimerExpiry dst msg pidx _ => decide (dst < 65536) && decide (msg < 2 ^ 24) && decide (pidx < 4096)
  | .packetAbandon dst msg pidx _ => decide (dst < 65536) && decide (msg < 2 ^ 24) && decide (pidx < 4096)
  | .assemblyTimeout quarter src msg => decide (quarter < 4) && decide (src < 65536) && decide (msg < 2 ^ 24)
  | .dedupExpiry src msg => decide (src < 65536) && decide (msg < 2 ^ 24)
  | .writeCompletionDelay dst msg => decide (dst < 65536) && decide (msg < 2 ^ 24)
  | .load lport p => portOk lport && packetOk p
  | .store lport p => portOk lport && packetOk p
  | .atomic lport p => portOk lport && packetOk p
  | .fence lport p => portOk lport && packetOk p
  | .commandSpaceStore lport p => portOk lport && packetOk p
  | .faultTimeout job fid => decide (job < 65536) && decide (fid < 2 ^ 32)
  | .flowPendingExpiry src dst flow fseq => decide (src < 65536) && decide (dst < 65536) && decide (flow < 65536) && decide (fseq < 65536)
  | .parkedBehindTimeout quarter src msg => decide (quarter < 4) && decide (src < 65536) && decide (msg < 2 ^ 24)
  | .rankedEpochApply job repoch => decide (job < 65536) && decide (repoch < 256)
  | .rankedEpochTimeout job repoch => decide (job < 65536) && decide (repoch < 256)
  | .combinedAtomicSend dst entry => decide (dst < 65536) && decide (entry < 2 ^ 64)
  | .lineRelease line => decide (line < 2 ^ 57)
  | .translationFenceDone fence => decide (fence < 2 ^ 64)
  | .wopen lport p => portOk lport && packetOk p
  | .wrevoke lport p => portOk lport && packetOk p
  | .windowDrained index => decide (index < 2 ^ 20)
  | .drbgReseed => true
  | .openWindow c a => callerOk c && windowArgsOk a
  | .revokeWindow c force cap => callerOk c && fits 8 force && fits 64 cap
  | .queryWindow c index => callerOk c && fits 32 index
  | .setWindowQuota c job quota => callerOk c && fits 16 job && fits 32 quota
  | .creqRdShared lport p => portOk lport && packetOk p
  | .creqRdOwn lport p => portOk lport && packetOk p
  | .creqUpgrade lport p => portOk lport && packetOk p
  | .creqWbDirty lport p => portOk lport && packetOk p
  | .creqEvictClean lport p => portOk lport && packetOk p
  | .crspReceive lport p => portOk lport && packetOk p
  | .cdatReceive lport p => portOk lport && packetOk p
  | .snoopTimeout agent line => decide (agent < 64) && decide (line < 2 ^ 57)
  | .reclaimScanEnd agent => decide (agent < 64)
  | .attachAgent c port snpCap creqCredits => callerOk c && fits 8 port && fits 16 snpCap && fits 16 creqCredits
  | .detachAgent c port force => callerOk c && fits 8 port && fits 8 force
  | .detachComplete agent => decide (agent < 64)
  | .dirtyMarkSend page => decide (page < 2 ^ 48)
  | .writebackThreshold quarter => decide (quarter < 4)
  | .budgetWaitRelease quarter => decide (quarter < 4)
  | .flushNearTier c => callerOk c
  | .flushEnd => true
  | .stackFailure stack => decide (stack < 8)
  | .trayReachable tray => decide (tray < 65536)
  | .declareTrayLost c tray => callerOk c && fits 16 tray
  | .poolFatalReport job => decide (job < 65536)
  | .publish lport p => portOk lport && packetOk p
  | .createPublishRegion c a => callerOk c && publishArgsOk a
  | .deletePublishRegion c job view => callerOk c && fits 16 job && fits 64 view
  | .restorePages c job va images => callerOk c && fits 16 job && fits 64 va && (images.all fun b => decide (b.length < 65536))
  | .reduce lport p => portOk lport && packetOk p
  | .partialData lport p => portOk lport && packetOk p
  | .abtUp lport p => portOk lport && packetOk p
  | .abtDown lport p => portOk lport && packetOk p
  | .abtDone lport p => portOk lport && packetOk p
  | .beadPartial lport p => portOk lport && packetOk p
  | .reduceWrite lport p => portOk lport && packetOk p
  | .roundCompletionRecord rid => decide (rid < 2 ^ 32)
  | .roundTimeout rid => decide (rid < 2 ^ 32)
  | .openReduction c a => callerOk c && reductionArgsOk a
  | .closeReduction c rid => callerOk c && fits 32 rid
  | .abortReduction c rid => callerOk c && fits 32 rid
  | .queryReduction c rid => callerOk c && fits 32 rid
  | .gather lport p => portOk lport && packetOk p
  | .sieveGatherMem lport p => portOk lport && packetOk p
  | .sieveScatter lport p => portOk lport && packetOk p
  | .sieveSetop lport p => portOk lport && packetOk p
  | .sieveFilter lport p => portOk lport && packetOk p
  | .sieveDispatch lport p => portOk lport && packetOk p
  | .sieveCombine lport p => portOk lport && packetOk p
  | .sieveChunkStart src msg => decide (src < 65536) && decide (msg < 2 ^ 24)
  | .sieveRequestEnd src msg => decide (src < 65536) && decide (msg < 2 ^ 24)
  | .loadSieveProgram c slot last owner partno instrs => callerOk c && fits 8 slot && fits 8 last && fits 16 owner && fits 16 partno && instrs.all (fits 64)
  | .unloadSieveProgram c slot => callerOk c && fits 8 slot
  | .querySieveProgram c slot => callerOk c && fits 8 slot
  | .slotLoadTimeout slot => decide (slot < 64)
  | .doorbellRing lport p => portOk lport && packetOk p
  | .doorbellResume lport p => portOk lport && packetOk p
  | .doorbellAbort lport p => portOk lport && packetOk p
  | .descriptorStart engine => decide (engine < 32)
  | .moverUnit ch => decide (ch < 128)
  | .moverStepBoundary ch => decide (ch < 128)
  | .descriptorEnd ch => decide (ch < 128)
  | .openMoverChannel c ch ringLog2 prio job ringBase => callerOk c && fits 8 ch && fits 8 ringLog2 && fits 8 prio && fits 16 job && fits 64 ringBase
  | .closeMoverChannel c ch => callerOk c && fits 8 ch
  | .setMoverPriority c ch prio => callerOk c && fits 8 ch && fits 8 prio
  | .queryMoverChannel c ch => callerOk c && fits 8 ch
  | .beadMode lport p => portOk lport && packetOk p
  | .beadAttn lport p => portOk lport && packetOk p
  | .beadDot lport p => portOk lport && packetOk p
  | .beadAxpy lport p => portOk lport && packetOk p
  | .beadScan lport p => portOk lport && packetOk p
  | .beadCommitPoint ch pair => decide (ch < 128) && decide (pair < 16)
  | .beadCommandEnd ch => decide (ch < 128)
  | .modeChangeEffect ch => decide (ch < 128)
  | .beadPowerWindow stack => decide (stack < 8)
  | .assignBeadChannel c ch job => callerOk c && fits 8 ch && fits 16 job
  | .releaseBeadChannel c ch => callerOk c && fits 8 ch
  | .queryBeadChannel c ch => callerOk c && fits 8 ch
  | .rateEntryRecovery quarter dst => decide (quarter < 4) && decide (dst < 65536)
  | .tallyExport quarter => decide (quarter < 4)
  | .mirror lport p => portOk lport && packetOk p
  | .ptpMessage _ => true
  | .setGateSchedule c lport sched => callerOk c && fits 16 lport && decide (sched.length ≤ 262144)
  | .setTallySession c a => callerOk c && tallyArgsOk a
  | .readTally c quarter max => callerOk c && fits 8 quarter && fits 32 max
  | .getAttestation c nonce => callerOk c && decide (nonce.length = 64)
  | .attestationSigned => true
  | .getIdentityChain c => callerOk c
  | .allocateKeySlot c slot tenant => callerOk c && fits 16 slot && fits 16 tenant
  | .installTenantKey c a => callerOk c && decide (a.bytes.length = 1828)
  | .setKeyGrant c body sig => callerOk c && decide (body.length = 152) && decide (sig.length = 29792)
  | .grantInForce slot => decide (slot < 1024)
  | .removeTenant c tenant => callerOk c && fits 16 tenant
  | .queryKeySlot c slot ttag => callerOk c && fits 16 slot && (decide (ttag = []) || decide (ttag.length = 32))
  | .keyZeroise slot => decide (slot < 1024)
  | .zeroiseTimeout slot => decide (slot < 1024)
  | .trayScrubStart slot => decide (slot < 1024)
  | .trayScrubEnd slot => decide (slot < 1024)
  | .scrubRetry slot => decide (slot < 1024)
  | .akCertified => true
  | .mapLsr lport p => portOk lport && packetOk p
  | .lsrOriginate => true
  | .lsrRefresh => true
  | .lsrAgeOut origin => decide (origin < 65536)
  | .mapAck lport p => portOk lport && packetOk p
  | .mapPrepare lport p => portOk lport && packetOk p
  | .mapSnapshot lport p => portOk lport && packetOk p
  | .mapVote lport p => portOk lport && packetOk p
  | .mapCommit lport p => portOk lport && packetOk p
  | .mapPull lport p => portOk lport && packetOk p
  | .mapResend lport key => portOk lport && decide (key < 2 ^ 64)
  | .voteTimeout => true
  | .stagedVerdictTimeout => true
  | .graceEnd => true
  | .handoffOffer lport p => portOk lport && packetOk p
  | .handoffAccept lport p => portOk lport && packetOk p
  | .handoffProbe lport p => portOk lport && packetOk p
  | .handoffClaim lport p => portOk lport && packetOk p
  | .handoffProbeTimer tray => decide (tray < 65536)
  | .handoffSettleTimeout tray => decide (tray < 65536)
  | .proposeMap c a => callerOk c && mapArgsOk a
  | .queryMap c what id => callerOk c && fits 8 what && fits 16 id
  | .setPortRole c lport role => callerOk c && fits 16 lport && fits 8 role
  | .drainModule c => callerOk c
  | .drainFinalWait => true
  | .unitFailure u cause => failedOk u && decide (cause.code < 65536)
  | .rodSpareLoaded index => decide (index < 64)
  | .switchInComplete die => decide (die < 4)
  | .errorRateWindow k index corrected => errorUnitOk k && decide (index < 1024) && decide (corrected < 2 ^ 64)
  | .bankPairCopyEnd channel => decide (channel < 128)
  | .macroCopyEnd die macroIdx => decide (die < 4) && decide (macroIdx < 1024)
  | .memoryUncorrectable w => placeOk w
  | .regulatorPhaseLost rail phase => decide (rail < 9) && decide (phase < 16)
  | .retireUnit c uclass unit => callerOk c && fits 8 uclass && fits 16 unit
  | .runDrill c a => callerOk c && drillArgsOk a
  | .abortDrill c => callerOk c
  | .readEventLog c fromSeq max => callerOk c && fits 32 fromSeq && fits 16 max
  | .readDrillLog c fromIdx max => callerOk c && fits 16 fromIdx && fits 16 max
  | .drillInjectEnd => true
  | .drillLaneRestore => true
  | .selfTestEnd kind index _ => unitOk kind index
  | .watchdogRestart => true
  | .dvorroRestartEnd => true
  | .coreFailure core => decide (core < 8)
  | .ucieLinkLoss module => decide (module < 4)
  | .ucieRetrainTimeout module => decide (module < 4)
  | .ucieReturn module => decide (module < 4)
  | .mailboxSlot m sl => mboxOk m && slotOk sl
  | .hostSlotStore lport p => portOk lport && packetOk p
  | .hostMailboxDoorbell lport p => portOk lport && packetOk p
  | .mgmtDatagram d => datagramOk d
  | .responseResend session => decide (session < 2)
  | .sessionIdleTimeout session => decide (session < 2)
  | .mctpMessage vendor endpoint sl => decide (vendor < 2 ^ 32) && decide (endpoint < 256) && slotOk sl
  | .pldmRequest ptype cmd sensor => decide (ptype < 64) && decide (cmd < 256) && decide (sensor < 65536)
  | .getIdentity c ttag => callerOk c && (decide (ttag = []) || decide (ttag.length = 32))
  | .getStatus c ttag => callerOk c && (decide (ttag = []) || decide (ttag.length = 32))
  | .openSession c a => callerOk c && sessionArgsOk a
  | .closeSession c => callerOk c
  | .setManagerKeys c keys => callerOk c && (keys.all fun k => decide (k.length = 64))
  | .bindHostMailbox c mbox lport => callerOk c && fits 8 mbox && fits 16 lport
  | .stageFirmware c offset data => callerOk c && fits 32 offset && decide (data.length ≤ 262144)
  | .verifyFirmware c length => callerOk c && fits 32 length
  | .activateFirmware c digest => callerOk c && decide (digest.length = 64)
  | .activationWindowEnd => true
  | .queryFirmware c => callerOk c
  | .flashWriteStart => true
  | .flashWriteEnd => true
  | .firmwareFallback => true
  | .retireLane c lane => callerOk c && fits 16 lane
  | .retrainLane c lane => callerOk c && fits 16 lane
  | .releaseFlapHold c lport => callerOk c && fits 16 lport
  | .setPortJobs c lport jobs => callerOk c && fits 16 lport && jobs.all (fits 16)
  | .installJob c a => callerOk c && jobArgsOk a
  | .removeJob c job => callerOk c && fits 16 job
  | .writeTtEntries c a => callerOk c && ttArgsOk a
  | .resolveFault c a => callerOk c && faultArgsOk a
  | .identity lport p => portOk lport && packetOk p
  | .statusQuery lport p => portOk lport && packetOk p
  | .supplySample m => sampleOk m
  | .shedLevelEnter level => decide (level < 8)
  | .shedLevelLeave level => decide (level < 8)
  | .holdupTimerExpiry => true
  | .logSaveEnd => true
  | .l4Recovery => true
  | .inputOvervoltage vin => decide (vin < 2 ^ 17)
  | .resetAssert => true
  | .resetRelease => true
  | .senseLoss => true
  | .insertion _ => true
  | .bringupStart => true
  | .railsDone => true
  | .portPlanRestore => true
  | .romDone => true
  | .imageVerified => true
  | .memoryDone failed => failed.all fun e => unitOk e.1 e.2
  | .linksPhaseStart => true
  | .linksDone => true
  | .mapPhaseStart => true
  | .mapPhaseTimeout => true
  | .holdupCharged capUf => decide (capUf < 65536)
  | .moduleReady => true
  | .portPlanSave => true
  | .thermalSample temps => temps.all fun e => decide (e.1 < 14)
  | .thermalActionRelease sensor => decide (sensor < 14)
  | .thermalTrip sensor => decide (sensor < 14)
  | .sensorStale sensor => decide (sensor < 14)
  | .unreachableTrayParkTimeout quarter src msg => decide (quarter < 4) && decide (src < 65536) && decide (msg < 2 ^ 24)
  | .windowLostRevokeHold index => decide (index < 2 ^ 20)
  | .entdaa address => decide (address < 128)

end Sys2Proof
end

