-- ==== Sys2Proof/Certificates/Slice0/Obligations.lean ====
section
/-! DEFINITION. The statements for the provers. Each says in its own words which rule of the specification, or which choice of the model, it formalises; a packet row's statement speaks of a packet that comes to its service at this module (Safety), and a mailbox row's of a command that the common checks let go (`gate`). -/

open Sys2Proof Sys2Proof.Machine

/-- A well-formed ACK or NAK packet that comes to its service acts entry by entry, in order (R97, R98). An RSP, laid out as Table 4-7 gives, of a message that the module holds, unless its code asks for a re-issue, acknowledges itself where it has RACK and completes the message with its status, detail and hint (R105, R108). An RSP_DATA packet of such a message that agrees with those received (R90) and whose PIDX is new is kept, and completes the message when it is the last one missing (R91, R107). In each case the row answers the state after that effect. Rows: ACK_RECEIVE, NAK_RECEIVE, RSP_RECEIVE, RSP_DATA_RECEIVE. -/
def Obligations.AnswersToOwnMessagesAct : Prop :=
  ∀ (s u : State) (t0 : Ns) (q : Nat) (p : Packet), served s q p = some (t0, u) →
    (p.op = opACK → entriesOk p = true →
      exec (.ackReceive q p) s = .next (finish s q p ((entriesIn p).foldl (fun st e => takeAckEntry st p.src e) u))) ∧
    (p.op = opNAK → entriesOk p = true →
      exec (.nakReceive q p) s = .next (finish s q p ((entriesIn p).foldl (fun st e => takeNakEntry st p.src e) u))) ∧
    (∀ k m, p.op = opRSP → ownOf (ackRack u q p) p.src p.msg = some (k, m) → rspMalformed p = false →
      isRClass p.status = false →
      exec (.rspReceive q p) s = .next (finish s q p (finishOwn (ackRack u q p) k m
        { code := p.status, detail := if p.status = kSUCCESS then 0 else field p.payload 4 4
          hint := if p.status = kSUCCESS then 0 else field p.payload 0 2 }))) ∧
    (∀ k m, p.op = opRSP_DATA → ownOf (ackRack u q p) p.src p.msg = some (k, m) → thas m.got p.pidx = false → p.pidx ≤ p.pcnt → (∀ g ∈ m.got, sameAnswer g.2 p = true) →
      exec (.rspDataReceive q p) s = .next (finish s q p (
        if p.pcnt < (tset m.got p.pidx p).length then
          finishOwn (ackRack u q p) k { m with got := tset m.got p.pidx p }
            { code := (deliveryCode (tset m.got p.pidx p)).1, detail := (deliveryCode (tset m.got p.pidx p)).2 }
        else { ackRack u q p with net := { (ackRack u q p).net with own := tset (ackRack u q p).net.own k { m with got := tset m.got p.pidx p } } })))

/-- A memory request that comes to its service, enters its home and whose access can be served now takes effect: a LOAD answers the data of its parts, with poisoned payload lines named (R129); a STORE whose parts are whole where a line carries a check writes its parts and is answered (R122, R129), and to a line whose backing is gone it answers poison (R234); a single ATOMIC outside ranked mode replaces its operand as its operation says and answers the old value (R124), and a combined list is applied joiner by joiner and answered with every joiner's result (R148); an ATOMIC of a ranked job is held in its epoch (R151); a FENCE with nothing pending before it closes its epoch and is answered (R130); a REDUCE_WRITE writes its parts with the lines its mask marks and is answered (R127). Rows: LOAD, STORE, ATOMIC, FENCE, REDUCE_WRITE. -/
def Obligations.MemoryRequestsComplete : Prop :=
  ∀ (s u v x : State) (t0 : Ns) (q : Nat) (p : Packet) (w : Waiter) (l : List Piece) (ps : List Part), served s q p = some (t0, u) →
    (p.op = opLOAD → aspaceOf p ≠ 3 → memEntered u t0 q p = some (w, v) →
      access v w rightRead (accessVa v w) (loadSize p) false = .now l ps x →
      exec (.load q p) s = .next (finish s q p
        (countJoined u (respondData (leaveWindow (countRead x true ps) w) p (gatherData (countRead x true ps) ps)) q p))) ∧
    (p.op = opSTORE → toCommandSpace p = false → memEntered u t0 q p = some (w, v) →
      access v w rightWrite (accessVa v w) (lenOf p) true = .now l ps x →
      (∀ y ∈ ps, leafE2e y.leaf = true → y.len = 128 ∧ lineCheck ((p.payload.drop y.pos).take 128) = true) →
      exec (.store q p) s = .next (finish s q p (
        if goneIn x ps then
          if messageOver x p then leaveWindow x w else respondPoison (endMessage (leaveWindow (openDedup x p) w) p) p 0 0 kPOISONED_POOL_LOSS 0
        else writeDone (writeParts (expandAll x (accessJob x w) l) ps p.payload (hasFlag p fCLRPSN) [] false) w))) ∧
    (∀ y, p.op = opATOMIC → memEntered u t0 q p = some (w, v) → rankedJob v p.job = false → atomicCmb p = false →
      access v w rightAtomic (accessVa v w) (atomicBytes p) true = .now l [y] x →
      (leafE2e y.leaf = true → y.off + y.len ≤ 124) →
      atomicBad (noteTray (leaveWindow (openDedup x p) w) [(p.src, p.msg)] y.line) y = none →
      exec (.atomic q p) s = .next (finish s q p (
        let z := applyAtomic (expandAll (noteTray (leaveWindow (openDedup x p) w) [(p.src, p.msg)] y.line)
            (accessJob (noteTray (leaveWindow (openDedup x p) w) [(p.src, p.msg)] y.line) w) l)
          y (atomicOp p) (atomicBytes p) (field p.payload 0 8) (field p.payload 8 8)
        countJoined u (respondOk z.2 q p (le 8 z.1)) q p))) ∧
    (∀ y w' x' acc z, p.op = opATOMIC → memEntered u t0 q p = some (w, v) → rankedJob v p.job = false → atomicCmb p = true →
      access v w rightAtomic (accessVa v w) (atomicBytes p) true = .now l [y] x → accept x w = (w', x') →
      (leafE2e y.leaf = true → y.off + y.len ≤ 124) →
      applyList (noteTray (expandAll x' (accessJob x' w') l) ((p.src, p.msg) :: (joinersOf p.payload).map fun j => (j.src, j.msg)) y.line)
        p y w'.mine w'.done.length ((joinersOf p.payload).drop w'.done.length) w'.done = (none, acc, z) →
      exec (.atomic q p) s = .next (finish s q p (countJoined u (respondData (leaveWindow z w') p
        { data := (List.zipWith (fun j r => joinerBytes j r.1 r.2) (joinersOf p.payload) acc).flatten }) q p))) ∧
    (p.op = opATOMIC → memEntered u t0 q p = some (w, v) → rankedJob v p.job = true →
      exec (.atomic q p) s = .next (finish s q p (countJoined u (holdRanked v w) q p))) ∧
    (p.op = opFENCE → memEntered u t0 q p = some (w, v) → epochRefusal v p (bits p.oparg 15 8) = none → fencePending (closeEpoch v p) p 0 = false →
      exec (.fence q p) s = .next (finish s q p (respondOk (closeEpoch v p) q p []))) ∧
    (p.op = opREDUCE_WRITE → memEntered u t0 q p = some (w, v) →
      access v w rightWrite (accessVa v w) (lenOf p) true = .now l ps x → goneIn x ps = false →
      exec (.reduceWrite q p) s = .next (finish s q p
        (writeDone (writeParts (expandAll x (accessJob x w) l) ps p.payload false (maskLines p.oparg) true) w)))

/-- A STORE to command space that comes to its service and passes the common checks acts as the command at its address. A doorbell that nothing refuses rings, resumes or aborts its mover channel and is answered SUCCESS (R311, R327, R328), under its own row and under the general row COMMAND_SPACE_STORE alike; a STORE to a host mailbox that takes it writes the slot or moves the ring tails and is answered (R492, R493), and a LOAD from it is answered with its bytes (R119, R492). Rows: LOAD, COMMAND_SPACE_STORE, DOORBELL_RING, DOORBELL_RESUME, DOORBELL_ABORT, HOST_SLOT_STORE, HOST_MAILBOX_DOORBELL. -/
def Obligations.CommandSpaceStoresComplete : Prop :=
  ∀ (s u : State) (t0 : Ns) (q : Nat) (p : Packet), served s q p = some (t0, u) →
    (∀ m off d, p.op = opLOAD → aspaceOf p = 3 → memFieldCheck u q p = none → hostBoxOf p.addr = some (m, off) → hostLoad u m off q p = .inl d →
      exec (.load q p) s = .next (finish s q p (respondData u p { data := d }))) ∧
    (commandEntered u q p = true →
    (∀ c, doorbellChannel p.addr = some c → doorbellRefusal u c p = none →
      exec (.commandSpaceStore q p) s = .next (finish s q p (respondOk (if dbOp p = 0 then ring (openDedup u p) c p
        else if dbOp p = 1 then resumeBell (openDedup u p) c else abortChannel (openDedup u p) c kSUCCESS) q p [])) ∧
      (dbOp p = 0 → exec (.doorbellRing q p) s = .next (finish s q p (respondOk (ring (openDedup u p) c p) q p []))) ∧
      (dbOp p = 1 → exec (.doorbellResume q p) s = .next (finish s q p (respondOk (resumeBell (openDedup u p) c) q p []))) ∧
      (dbOp p = 2 → exec (.doorbellAbort q p) s = .next (finish s q p (respondOk (abortChannel (openDedup u p) c kSUCCESS) q p [])))) ∧
    (∀ m off t, hostBoxOf p.addr = some (m, off) → hostStore u m off q p = .inl t →
      (p.addr % 0x10000 ≠ 0x8000 → exec (.hostSlotStore q p) s = .next (finish s q p (respondOk (openDedup t p) q p []))) ∧
      (p.addr % 0x10000 = 0x8000 → exec (.hostMailboxDoorbell q p) s = .next (finish s q p (respondOk (openDedup t p) q p [])))))

/-- A STORE to a bead channel's queue that comes to its service, passes the common checks and every check of its channel, and finds fewer than 256 commands queued is accepted: it joins the channel's queue, is counted and answered, and beads with work start (R345, R346, R348). It holds of MODE (R343), ATTN (R353), DOT, AXPY and SCAN (R357), each under its own row. Rows: BEAD_MODE, BEAD_ATTN, BEAD_DOT, BEAD_AXPY, BEAD_SCAN. -/
def Obligations.BeadCommandsQueue : Prop :=
  ∀ (s u x : State) (t0 : Ns) (q c : Nat) (p : Packet) (l : List (BeadOp × List Piece)), served s q p = some (t0, u) → commandEntered u q p = true →
    beadQueueOf p.addr = some c → beadChecked u q c p = some (l, x) →
    (field p.payload 0 1 % 16 = 0 → exec (.beadMode q p) s = .next (finish s q p (queueBead x (entrant t0 q p) c l))) ∧
    (field p.payload 0 1 % 16 = 1 → exec (.beadAttn q p) s = .next (finish s q p (queueBead x (entrant t0 q p) c l))) ∧
    (field p.payload 0 1 % 16 = 2 → exec (.beadDot q p) s = .next (finish s q p (queueBead x (entrant t0 q p) c l))) ∧
    (field p.payload 0 1 % 16 = 3 → exec (.beadAxpy q p) s = .next (finish s q p (queueBead x (entrant t0 q p) c l))) ∧
    (field p.payload 0 1 % 16 = 4 → exec (.beadScan q p) s = .next (finish s q p (queueBead x (entrant t0 q p) c l))) ∧
    (queueBead x (entrant t0 q p) c l =
      startBeads (respondOk (bump (modBead (expandChannel (accept x (entrant t0 q p)).2 c) c fun b =>
          { b with queue := b.queue ++ [{ req := { arrived t0 q p with order := x.pool.accepted + 1 }, ops := l.filterMap opPlace }], cmds := b.cmds + 1 })
        (cBEAD_CMDS (c / 32))) q p []) c)

/-- A WOPEN that comes to its service, is well formed, aligned and of an installed job, and for which a window is to be had opens it and answers its capability (R171, R172). A WREVOKE that comes to its service and names a window of the caller's job: an OPEN window of the same generation is accepted and its generation moves (R174, R177), one whose revoke is under way is accepted and waits for the drain, and one already revoked is answered at once (R174, R178). Rows: WOPEN, WREVOKE. -/
def Obligations.WindowPacketsComplete : Prop :=
  ∀ (s u : State) (t0 : Ns) (q : Nat) (p : Packet), served s q p = some (t0, u) → newHere u p = true →
    (∀ c v, p.op = opWOPEN → wopenMalformed p = false → p.addr % 128 = 0 → thas u.pool.jobs p.job = true →
      openWindowAt (openDedup u p) (quarterOf q) (wopenAsk p) = (.cap c, v) →
      exec (.wopen q p) s = .next (finish s q p (respondOk v q p (le 8 c)))) ∧
    (p.op = opWREVOKE → p.addr = 0 → p.oparg = 0 → lenOf p = 0 → p.pcnt = 0 →
      (revokeCase u p.cap (some p.job) = .start →
        exec (.wrevoke q p) s = .next (finish s q p (startRevoke (modWindow (accept u (entrant t0 q p)).2 (capIndex p.cap)
          fun x => { x with waitReq := x.waitReq ++ [(accept u (entrant t0 q p)).1.req] }) (capIndex p.cap)))) ∧
      (revokeCase u p.cap (some p.job) = .join →
        exec (.wrevoke q p) s = .next (finish s q p (modWindow (accept u (entrant t0 q p)).2 (capIndex p.cap)
          fun x => { x with waitReq := x.waitReq ++ [(accept u (entrant t0 q p)).1.req] }))) ∧
      (revokeCase u p.cap (some p.job) = .done →
        exec (.wrevoke q p) s = .next (finish s q p (respondOk (openDedup u p) q p []))))

/-- A CREQ that comes to its service and that its agent may send: RD_SHARED, RD_OWN and UPGRADE whose line is to be had meet the line's directory entry (R192, Table 7-6); WB_DIRTY of a line that the agent owns gives the data to memory, frees the entry and is answered WB_ACK, and one of a line it does not own is answered WB_STALE; EVICT_CLEAN of an owned line frees the entry and is answered EV_ACK. A CRSP or CDAT that is well formed and answers an outstanding snoop of an attached agent ends that snoop, a CDAT's data going to memory first (R194, R195, R198, R199). Rows: CREQ_RD_SHARED, CREQ_RD_OWN, CREQ_UPGRADE, CREQ_WB_DIRTY, CREQ_EVICT_CLEAN, CRSP_RECEIVE, CDAT_RECEIVE. -/
def Obligations.CoherenceRequestsMeetTheDirectory : Prop :=
  ∀ (s u v : State) (t0 : Ns) (q h : Nat) (p : Packet), served s q p = some (t0, u) →
    (∀ y, p.op = opCREQ → creqChecked u q p = true → creqLine u q p = some (h, y, v) →
      (ckind p = 0 → exec (.creqRdShared q p) s = .next (finish s q p (creqOnEntry v (entrant t0 q p) h y.line y.leaf))) ∧
      (ckind p = 1 → exec (.creqRdOwn q p) s = .next (finish s q p (creqOnEntry v (entrant t0 q p) h y.line y.leaf))) ∧
      (ckind p = 2 → exec (.creqUpgrade q p) s = .next (finish s q p (creqOnEntry v (entrant t0 q p) h y.line y.leaf)))) ∧
    (∀ l o, p.op = opCREQ → creqChecked u q p = true → lineOfHln u p.addr = some l → lineBusy u l p.addr 0 = false →
      dirState (lookupDir u p.addr) p.addr = some (.owned o) →
      (ckind p = 3 → exec (.creqWbDirty q p) s = .next (finish s q p (
        if o = q / 8 then crspTo (setDir (takeAgentData (lookupDir u p.addr) p.addr l (bit p.oparg 4) p.payload) p.addr none) (arrived t0 q p) p.addr 1
        else crspTo (bump (lookupDir u p.addr) (cDIR_WB_STALE (p.addr / 2 ^ 27))) (arrived t0 q p) p.addr 2))) ∧
      (ckind p = 4 → exec (.creqEvictClean q p) s = .next (finish s q p (
        crspTo (if o = q / 8 then setDir (lookupDir u p.addr) p.addr none else lookupDir u p.addr) (arrived t0 q p) p.addr 3)))) ∧
    (((agentOf u (q / 8)).state = .attached ∨ (agentOf u (q / 8)).state = .detaching) → snoopOf u (q / 8) p = some h → cohAnswerOk u q p = true →
      (p.op = opCRSP → lenOf p = 0 → p.oparg = 8 →
        exec (.crspReceive q p) s = .next (finish s q p
          (snoopAnswered (if askedToShare u h then bump u (cDIR_STALE_SNOOP (h / 2 ^ 27)) else u) (q / 8) p.msg h false))) ∧
      (p.op = opCRSP → lenOf p = 0 → p.oparg = 9 → askedToShare u h = true →
        exec (.crspReceive q p) s = .next (finish s q p (snoopAnswered u (q / 8) p.msg h true))) ∧
      (∀ l, p.op = opCDAT → lenOf p = 128 → p.oparg < 32 → (p.oparg % 16 = 8 ∨ p.oparg % 16 = 9 ∧ askedToShare u h = true) → lineOfHln u h = some l →
        exec (.cdatReceive q p) s = .next (finish s q p
          (snoopAnswered (takeAgentData u h l (bit p.oparg 4) p.payload) (q / 8) p.msg h (decide (p.oparg % 16 = 9))))))

/-- A PUBLISH that comes to its service and passes its checks, whose job is one of its region's publishers or that comes through a window, whose staging span is aligned and overlaps no view, whose two covering entries are page tables, whose version is the current one and whose version word can be written now, publishes: the version moves, the two entries are exchanged and a translation fence begins (R230, R231). A GATHER that comes to its service and passes its checks, and whose records can all be read now, counts them and answers the records, once each with UNIQ (R274 to R276). Rows: PUBLISH, GATHER. -/
def Obligations.PublishAndGatherComplete : Prop :=
  ∀ (s u v x : State) (t0 : Ns) (q : Nat) (p : Packet) (w : Waiter), served s q p = some (t0, u) →
    (∀ g vo ve so se l y, p.op = opPUBLISH → publishEntered u t0 q p = some (w, v) → regionOf v w = some g → (w.win.isSome = true ∨ p.job ∈ g.pubs) →
      field p.payload 8 6 % g.span = 0 → (∀ z ∈ v.pool.regions, z.job = g.job → overlap (field p.payload 8 6) g.span z.view z.span = false) →
      coveringEntry v g.job g.view (spanLevel g.span) = some (vo, ve) → coveringEntry v g.job (field p.payload 8 6) (spanLevel g.span) = some (so, se) →
      ttKind ve = 1 → ttKind se = 1 → field p.payload 0 8 = g.version →
      reach v w.quarter g.job p.job rightWrite g.vword 8 = (.ok l, x) → linesHold x 0 true (partsOf l 0) = (none, y) →
      exec (.publish q p) s = .next (finish s q p (publishNow (expandAll y g.job l) w g (field p.payload 8 6) vo ve so se (partsOf l 0)))) ∧
    (∀ t, p.op = opGATHER → gatherEntered u t0 q p = some (w, v) → gatherReach v w (firstUses 0 (gaList p) []) = .ok (t, x) →
      exec (.gather q p) s = .next (finish s q p (
        let y := countRead x true (t.flatMap (·.2))
        let y := bumpBy (bumpBy (bump y (cSIEVE_REQUESTS w.quarter)) (cSIEVE_RECORDS w.quarter) (gaList p).length) (cSIEVE_OUT w.quarter)
          (if gaUniq p then t.length else (gaList p).length)
        respondData (leaveWindow y w) p (gatherData y (gatherParts p t)))))

/-- A SIEVE request that comes to its service, passes the checks of R280 and finds staging and room is accepted: acceptance numbers it, its windows and its program slot count it, and it is entered among the running requests with its quarter, its function and its staging; where an earlier packet of its flow waits it waits behind it. It holds of all six functions, each under its own row. Rows: SIEVE_GATHER_MEM, SIEVE_SCATTER, SIEVE_SETOP, SIEVE_FILTER, SIEVE_DISPATCH, SIEVE_COMBINE. -/
def Obligations.SieveRequestsAreAccepted : Prop :=
  ∀ (s u v : State) (t0 : Ns) (q n need : Nat) (p : Packet), served s q p = some (t0, u) → p.op = opSIEVE → sieveEntered u q p = some (n, need, v) →
    (sfnOf p = 0 → exec (.sieveGatherMem q p) s = .next (finish s q p (acceptSieve v (entrant t0 q p) n need))) ∧
    (sfnOf p = 1 → exec (.sieveScatter q p) s = .next (finish s q p (acceptSieve v (entrant t0 q p) n need))) ∧
    (sfnOf p = 2 → exec (.sieveSetop q p) s = .next (finish s q p (acceptSieve v (entrant t0 q p) n need))) ∧
    (sfnOf p = 3 → exec (.sieveFilter q p) s = .next (finish s q p (acceptSieve v (entrant t0 q p) n need))) ∧
    (sfnOf p = 4 → exec (.sieveDispatch q p) s = .next (finish s q p (acceptSieve v (entrant t0 q p) n need))) ∧
    (sfnOf p = 5 → exec (.sieveCombine q p) s = .next (finish s q p (acceptSieve v (entrant t0 q p) n need))) ∧
    ((v.pool.waiters.any (fun x => flowBefore x.req.pkt p)
        || v.pool.pendingFlow.any (fun e => e.1.1 = p.src && e.1.2.1 = p.flow && hasFlag p fORDERED && earlierSeq e.1.2.2 p.fseq)) = false → tget (acceptSieve v (entrant t0 q p) n need).sieve.reqs (p.src, p.msg) =
      some { req := { arrived t0 q p with order := v.pool.accepted + 1 }, quarter := n, sfn := sfnOf p, staging := need })

/-- A REDUCE that comes to its service, is well formed, of its group's job, operation and format, from one of its contributors and within its elements, of the round now open is acknowledged, counted and taken in (R250), or goes up unreduced where this switch only forwards; while an engine it needs is being replaced it is held (R268); a DATA partial of the round now open from a child is acknowledged, counted and taken in (R260); ABT_UP and ABT_DONE of a child and ABT_DOWN of the parent are acknowledged and act on the group (R266); a bead partial of a group that a switch only forwards is acknowledged, counted and forwarded, and at the root it enters the staged queries, whose results leave once all are there (R360, R362). Rows: REDUCE, PARTIAL_DATA, ABT_UP, ABT_DOWN, ABT_DONE, BEAD_PARTIAL. -/
def Obligations.ReductionPacketsAct : Prop :=
  ∀ (s u : State) (t0 : Ns) (q : Nat) (p : Packet) (g : Group), served s q p = some (t0, u) → p.job = g.a.job →
    (∀ i l, p.op = opREDUCE → reduceMalformed p = false → groupOf u (rdRid p) = some g → rdCop p = g.a.cop → rdFmt p = g.a.fmt →
      classOf g.a ≠ .attn → contribIndex u g.a p.src (rdRank p) = some i → reduceCover g.a p = some l →
      (forwardsOnly u g.a = true ∨ roundCheck g (rdRound p) = .now) →
      exec (.reduce q p) s = .next (finish s q p (
        if forwardsOnly u g.a then forwardUp (bump (ackPacket u q p) (cCARRY_CONTRIB (quarterOf q))) g.a p
        else if enginesAway u (l.map fun x => engineOf (rdRid p) x.1) then holdInput u (arrived t0 q p)
        else takeIn (bump (ackPacket u q p) (cCARRY_CONTRIB (quarterOf q))) (rdRid p) i l))) ∧
    (p.op = opPARTIAL → field p.ext 0 1 = 1 → partialMalformed p = false → groupOf u (pxRid p) = some g → p.oparg = g.a.cop + g.a.fmt * 16 →
      (∀ i l, pxKind p = 0 → inputIndex g.a 1 p.src 0 = some i → classOf g.a ≠ .fp64 → classOf g.a ≠ .attn → pxElem p % 32 = 0 →
        pxElem p / 32 + pxSlices p ≤ sliceCount g.a → roundCheck g (pxRound p) = .now → readSlices g.a (pxSlices p) (pxElem p / 32) p.payload = some l →
        exec (.partialData q p) s = .next (finish s q p (
          if enginesAway u (l.map fun x => engineOf (pxRid p) x.1) then holdInput u (arrived t0 q p)
          else takeIn (bump (ackPacket u q p) (cCARRY_CONTRIB (quarterOf q))) (pxRid p) i l))) ∧
      (∀ i, pxKind p = 1 → inputIndex g.a 1 p.src 0 = some i →
        exec (.abtUp q p) s = .next (finish s q p (takeAbtUp (ackPacket u q p) (pxRid p) (pxRound p) (pxAbseq p)))) ∧
      (pxKind p = 2 → isRoot u g.a = false → p.src = g.a.parent →
        exec (.abtDown q p) s = .next (finish s q p (takeAbtDown (ackPacket u q p) (pxRid p) (pxRound p) (pxAbseq p)))) ∧
      (∀ i, pxKind p = 3 → inputIndex g.a 1 p.src 0 = some i →
        exec (.abtDone q p) s = .next (finish s q p (takeAbtDone (ackPacket u q p) (pxRid p) p.src (pxRound p) (pxAbseq p))))) ∧
    (p.op = opPARTIAL → p.ext.length = 16 → field p.ext 0 1 = 2 → beadPartialMalformed p = false → groupOf u (pxRid p) = some g → classOf g.a = .attn →
      (∃ x ∈ g.a.inputs, x.node = p.src) → bxBidx p < g.a.ntotal → bxQbase p + bxQn p ≤ g.a.qn → dhOf (bxDhc p) = g.a.length →
      lenOf p = bxQn p * (8 + 4 * dhOf (bxDhc p)) → p.oparg = 10 + 10 * 16 →
      (forwardsOnly u g.a = true → exec (.beadPartial q p) s =
        .next (finish s q p (forwardUp (bump (ackPacket u q p) (cCARRY_CONTRIB (quarterOf q))) g.a p))) ∧
      (forwardsOnly u g.a = false → roundCheck g (bxRound p) = .now → exec (.beadPartial q p) s =
        .next (finish s q p (if enginesAway u [attnEngine (pxRid p)] then holdInput u (arrived t0 q p) else deliverAttn ((partialQueries p).foldl (fun st x =>
          match groupOf st (pxRid p) with
          | none => st
          | some g =>
            if thas g.attn (bxBidx p, x.1) then bump st (cCARRY_DUP (pxRid p % 4))
            else setGroup st (pxRid p) { g with attn := tset g.attn (bxBidx p, x.1) x.2, first := some (g.first.getD st.now) })
          (bump (ackPacket u q p) (cCARRY_CONTRIB (quarterOf q)))) (pxRid p)))))

/-- An IDENTITY or STATUS_QUERY request for this module whose CRC holds, on a port that is UP and from phase ROM on, with no other field set and no answer given on the port in the last 10 µs, is answered: with the 64 bytes of the module's identity or the 32 bytes of its status (R428, R533). A MIRROR packet that comes to its service is counted and discarded (R394). Rows: IDENTITY, STATUS_QUERY, MIRROR. -/
def Obligations.QueriesAndMirrorsComplete : Prop :=
  ∀ (s u : State) (t0 : Ns) (q : Nat) (p : Packet),
    (∀ c, q ≠ selfPort → takenIn s q p = some (c, u) → (isReady u = true ∨ 3 ≤ u.supply.phase) → headerCheck p = none → forMe u p = true →
      (∀ t, tget u.supply.tc6At q = some t → due u t (us 10) = true) → lenOf p = 0 → p.oparg = 0 → p.addr = 0 → p.cap = 0 →
      (p.op = opIDENTITY →
        exec (.identity q p) s = .next (finish s q p (
          let a := sealPacket { responsePacket p opRSP_DATA kSUCCESS 0 0 (identityBytes u) with tc := 6, src := myNode u }
          let v := { u with supply := { u.supply with tc6At := tset u.supply.tc6At q u.now } }
          if p.src = 0xFFFF ∨ p.dst = 0xFFFF then sendOn v q a else send v a))) ∧
      (p.op = opSTATUS_QUERY →
        exec (.statusQuery q p) s = .next (finish s q p (
          let a := sealPacket { responsePacket p opRSP_DATA kSUCCESS 0 0 (statusBytes u) with tc := 6, src := myNode u }
          let v := { u with supply := { u.supply with tc6At := tset u.supply.tc6At q u.now } }
          if p.src = 0xFFFF ∨ p.dst = 0xFFFF then sendOn v q a else send v a)))) ∧
    (served s q p = some (t0, u) → p.op = opMIRROR → exec (.mirror q p) s = .next (finish s q p (bump u (cMIRROR_DISCARD (quarterOf q)))))

/-- A map message that comes to its service on a SWITCH port, or from the module itself, and keeps its layout acts: a MAP_LSR fragment is taken into the link-state records (R430); a MAP_ACK ends the repetition of what it names (R434); a MAP_PREPARE fragment of a proposal is gathered and voted on (R437), and of a snapshot gathered and installed (R446); a MAP_VOTE is acknowledged and counted by the coordinator of its proposal (R438); a MAP_COMMIT is passed on and acted on (R438); a MAP_PULL is answered with the snapshot or a new link-state record (R433). Rows: MAP_LSR, MAP_ACK, MAP_PREPARE, MAP_SNAPSHOT, MAP_VOTE, MAP_COMMIT, MAP_PULL. -/
def Obligations.MapMessagesAct : Prop :=
  ∀ (s u : State) (t0 : Ns) (q : Nat) (p : Packet), served s q p = some (t0, u) → (roleOf u q = roleSWITCH ∨ q = selfPort) →
    (p.op = opMAP_LSR → lsrMalformed p = false → exec (.mapLsr q p) s = .next (finish s q p (takeLsr u q p))) ∧
    (p.op = opMAP_ACK → lenOf p = 8 → (mapHeaderOk p true = true ∨ mapHeaderOk p false = true) →
      exec (.mapAck q p) s = .next (finish s q p (takeAck u q p))) ∧
    (p.op = opMAP_PREPARE → prepareMalformed p = false → p.oparg % 256 ≠ 1 → exec (.mapPrepare q p) s = .next (finish s q p (takePrepare u q p))) ∧
    (p.op = opMAP_PREPARE → prepareMalformed p = false → p.oparg % 256 = 1 → exec (.mapSnapshot q p) s = .next (finish s q p (takeSnapshot u q p))) ∧
    (∀ c, p.op = opMAP_VOTE → voteMalformed p false = false → (ackRouted u p.src opMAP_VOTE 0 0 (field p.payload 0 4)).map.coord = some c →
      c.propId = field p.payload 0 4 → c.epoch = field p.payload 4 1 →
      exec (.mapVote q p) s = .next (finish s q p
        (takeVote (ackRouted u p.src opMAP_VOTE 0 0 (field p.payload 0 4)) p.src (field p.payload 5 1) (field p.payload 6 2)))) ∧
    (p.op = opMAP_COMMIT → voteMalformed p true = false → exec (.mapCommit q p) s = .next (finish s q p (takeCommit u q p))) ∧
    (p.op = opMAP_PULL → mapHeaderOk p true = true → lenOf p = 8 → field p.payload 2 6 = 0 →
      (field p.payload 0 1 = 0 → exec (.mapPull q p) s = .next (finish s q p (sendSnapshot u q (field p.payload 1 1)))) ∧
      (field p.payload 0 1 = 1 → exec (.mapPull q p) s = .next (finish s q p (floodLsr u))))

/-- A hand-off message that comes to its service on a SWITCH port, or from the module itself, and keeps its layout acts: an OFFER installs the records it names and is accepted, and after the last one the held requests run (R443); an ACCEPT gives the named records up (R442); a PROBE is answered with a CLAIM of each key (R445); a CLAIM settles each key it names and the held requests run (R445). Rows: HANDOFF_OFFER, HANDOFF_ACCEPT, HANDOFF_PROBE, HANDOFF_CLAIM. -/
def Obligations.HandoffMessagesAct : Prop :=
  ∀ (s u : State) (t0 : Ns) (q : Nat) (p : Packet), served s q p = some (t0, u) → (roleOf u q = roleSWITCH ∨ q = selfPort) →
    p.op = opMAP_HANDOFF → handoffMalformed p = false →
    (field p.payload 0 4 % 16 = 0 → exec (.handoffOffer q p) s = .next (finish s q p
      (if hoLast p then rerunHandoff (takeOffer u p) (hoTray p) else takeOffer u p))) ∧
    (field p.payload 0 4 % 16 = 1 → exec (.handoffAccept q p) s = .next (finish s q p (takeAccept u p))) ∧
    (field p.payload 0 4 % 16 = 2 → exec (.handoffProbe q p) s = .next (finish s q p (takeProbe u q p))) ∧
    (field p.payload 0 4 % 16 = 3 → exec (.handoffClaim q p) s = .next (finish s q p (rerunHandoff (takeClaim u p) (hoTray p))))

/-- A packet for one other node that passes its port's checks, that nothing combines here and whose epoch this module has a map for, leaves by the map of its epoch: it enters the output queue of the port chosen for it, through the resequencer where that port faces its destination (R111, R115, R440). A packet for a group takes its group's way (R432). A packet on a port that is UP whose end-to-end CRC fails is discarded and counted, whatever its row (R99). Rows: PACKET_FORWARD. -/
def Obligations.TransitPacketsGoOn : Prop :=
  ∀ (s u : State) (q : Nat) (p : Packet) (c : Colour), q ≠ selfPort →
    (∀ comp port v, takenIn s q p = some (c, u) → passesPort u q p = true → forMe s p = false → forMe u p = false → p.src ≠ 0xFFFF → isCohOp p.op = false → isGroup p.dst = false →
      badCombined u q p = false → combine u q p = none → compFor u p.epoch = some comp → choosePort u (routeSet u comp p.dst) p = (some port, v) →
      exec (.packetForward q p) s = .next (finish s q p (sendTransit v q c (arrivedAt s q p) comp port p))) ∧
    (∀ comp w, takenIn s q p = some (c, u) → passesPort u q p = true → forMe s p = false → forMe u p = false → p.src ≠ 0xFFFF → isCohOp p.op = false → isGroup p.dst = true →
      multicastOk p = true → badCombined u q p = false → compFor u p.epoch = some comp → forwardGroup u q c (arrivedAt s q p) comp p = (false, w) →
      exec (.packetForward q p) s = .next (finish s q p w)) ∧
    (isUp s q = true → p.crc ≠ packetCrc p → lossless p.tc = false → forMe s p = false →
      exec (.packetForward q p) s = .next (bump (takeFromDock s q p) (cROD_E2E_CRC_ERR (nativeOf q % 64))))

/-- A register command that the common checks let go takes effect and is answered SUCCESS. WRITE_REGISTER of a register with a writable field, in a block that is reachable, and not held back by a locked field is accepted: its word is written, a LIVE field of a block at work coming into force at its next unit boundary (R8, R9), and, where it has staged fields, its pending copy, and what the write sets off follows (R11, R12, R506). READ_REGISTER of 1 to 56 registers of one block answers them in ascending order (R539). The low-word read of a 64-bit value latches the high word of that instant (R540). COMMIT_GROUP of group NEAR_TIER or QOS puts the pending copies in force, and of group GATE gives every port its pending schedule; DISCARD_GROUP drops the pending copies (R507, R508). Rows: WRITE_REGISTER, READ_REGISTER, COUNTER_LOW_WORD_READ, COMMIT_GROUP, DISCARD_GROUP. -/
def Obligations.RegisterCommandsComplete : Prop :=
  ∀ (s u : State) (c : Caller), u = startCmd s c →
    (∀ addr mask value b, gate s c mbWRITE_REGISTER [] = .go → rangeBlock addr 1 = some b → (∃ f ∈ regFields addr, f.kind ≠ .ro) →
      blockReached u b = true → absentPort u addr = false → tailHeld u addr = false →
      writeLocked u addr (writtenWord (acceptedWord u addr) (BitVec.ofNat 32 mask) (BitVec.ofNat 32 value) addr) = false →
      exec (.writeRegister c addr mask value) s = .next (
        let v := controlWrite (acceptWord u addr (writtenWord (acceptedWord u addr) (BitVec.ofNat 32 mask) (BitVec.ofNat 32 value) addr)) b
        let v := if (regFields addr).any fun f => f.kind = .staged then
          { v with regsPending := tset v.regsPending addr (writtenPending (pendWord u addr) (BitVec.ofNat 32 mask) (BitVec.ofNat 32 value) addr) } else v
        answerOk (settle (afterWrite v addr (regWord u addr) (lports u))) c mbWRITE_REGISTER [])) ∧
    (∀ addr count pend b, gate s c mbREAD_REGISTER [] = .go → 1 ≤ count → count ≤ 56 → pend ≤ 1 → rangeBlock addr count = some b →
      (callerClass c = .baseboard → b ∈ [0x00000, 0x10000, 0x20000, 0x30000]) → blockReached u b = true →
      exec (.readRegister c addr count pend) s = .next (
        answerOk (readRange u c.mbox (decide (pend = 1)) count addr).2 c mbREAD_REGISTER (readRange u c.mbox (decide (pend = 1)) count addr).1)) ∧
    (∀ addr, isPair addr = true → addr % 8 = 0 → ∃ t, exec (.counterLowWordRead c addr) s = .next t ∧
      (mboxOf t c.mbox).latch = some (addr, (if addr = 0x40000 then timeNow s else (value64 s addr).1) / 2 ^ 32 % 2 ^ 32)) ∧
    (gate s c mbCOMMIT_GROUP [] = .go →
      exec (.commitGroup c 1) s = .next (commitNear u c) ∧
      (∀ l, l = (sortAsc (u.queues.gatePending.map (·.1))).filter (isLport u) → s.queues.gateCommit = none →
        (∀ q ∈ l, gateBad u q (tgetD u.queues.gatePending q {}) = none) →
        exec (.commitGroup c 2) s = .next (
          let v := l.foldl (fun st q =>
            let g := tgetD u.queues.gatePending q {}
            if g = gateNow st q then st
            else { st with queues := { st.queues with gates := tset st.queues.gates q { portGate st q with next := some g, takeAt := gateTakes st q g } } }) u
          gateDone (l.foldl gateMove { v with queues := { v.queues with gatePending := [], gateCommit := some c } }))) ∧
      ((∀ a ∈ qosPending u, qosBad u a = none) →
        exec (.commitGroup c 3) s = .next (answerOk ((qosPending u).foldl swapReg u) c mbCOMMIT_GROUP []))) ∧
    (gate s c mbDISCARD_GROUP [] = .go →
      exec (.discardGroup c 1) s = .next (answerOk { u with regsPending := tdel u.regsPending aNEAR_CFG } c mbDISCARD_GROUP []) ∧
      exec (.discardGroup c 2) s = .next (answerOk { u with queues := { u.queues with gatePending := [] } } c mbDISCARD_GROUP []) ∧
      exec (.discardGroup c 3) s = .next (answerOk { u with regsPending := u.regsPending.filter fun e => e.1 < aAQM_PROFILE 0 } c mbDISCARD_GROUP []))

/-- A window or agent command that the common checks let go takes effect. OPEN_WINDOW well formed, aligned and of an installed job answers the capability of the window it opens (R171, R182). REVOKE_WINDOW of an OPEN window of the caller's reach, by capability or with FORCE by index, waits for the drain and moves the generation; one of a window already REVOKED is answered SUCCESS (R174, R180). QUERY_WINDOW answers the descriptor and its counts; SET_WINDOW_QUOTA sets the job's quota (R173). ATTACH_AGENT of a port that may take an agent enters it ATTACHED (R188); DETACH_AGENT of an attached agent makes it DETACHING and takes its lines back, or reclaims it with FORCE (R208). Rows: OPEN_WINDOW, REVOKE_WINDOW, QUERY_WINDOW, SET_WINDOW_QUOTA, ATTACH_AGENT, DETACH_AGENT. -/
def Obligations.WindowAndAgentCommandsComplete : Prop :=
  ∀ (s u : State) (c : Caller), u = startCmd s c →
    (∀ a v w, gate s c mbOPEN_WINDOW [a.job] = .go → a.rights < 32 →
      openMalformed { job := a.job, rights := a.rights, base := a.base, length := a.length, evtCap := a.evtCap, evtNode := a.evtNode, evtLog2 := a.evtLog2, via := true } = false →
      a.base % 128 = 0 → thas u.pool.jobs a.job = true →
      openWindowAt u (callerQuarter u c) { job := a.job, rights := a.rights, base := a.base, length := a.length, evtCap := a.evtCap, evtNode := a.evtNode, evtLog2 := a.evtLog2, via := true } = (.cap v, w) →
      exec (.openWindow c a) s = .next (answerOk w c mbOPEN_WINDOW (le 8 v))) ∧
    (∀ cap, gate s c mbREVOKE_WINDOW [] = .go → ownJob u c (windowAt u (capIndex cap)).ownerJob = true →
      (revokeCase u cap none = .start → exec (.revokeWindow c 0 cap) s = .next (settle (startRevoke (waitDrain u c (capIndex cap)) (capIndex cap)))) ∧
      (revokeCase u cap none = .join → exec (.revokeWindow c 0 cap) s = .next (waitDrain u c (capIndex cap))) ∧
      (revokeCase u cap none = .done → exec (.revokeWindow c 0 cap) s = .next (answerOk u c mbREVOKE_WINDOW []))) ∧
    (∀ i, gate s c mbREVOKE_WINDOW [] = .go → callerClass c = .fm → i < 2 ^ 20 →
      ((windowAt u i).state = .open_ → exec (.revokeWindow c 1 i) s = .next (settle (startRevoke (waitDrain u c i) i))) ∧
      ((windowAt u i).state = .revoked → exec (.revokeWindow c 1 i) s = .next (answerOk u c mbREVOKE_WINDOW []))) ∧
    (∀ i, gate s c mbQUERY_WINDOW [] = .go → i < 2 ^ 20 → ownJob u c (windowAt u i).ownerJob = true →
      exec (.queryWindow c i) s = .next (answerOk u c mbQUERY_WINDOW
        (descriptorBytes (windowAt u i) ++ le 4 (windowAt u i).inflight ++ le 4 (windowAt u i).violations ++ le 4 (windowAt u i).evSeq))) ∧
    (∀ job quota, gate s c mbSET_WINDOW_QUOTA [job] = .go → job < 65536 → quota ≤ 1048576 → ∃ t, exec (.setWindowQuota c job quota) s = .next t ∧
      tget t.win.quota job = some quota ∧ t.win.table = s.win.table ∧ t.pool = s.pool ∧ AnsweredOk t c mbSET_WINDOW_QUOTA []) ∧
    (∀ n snp credits, gate s c mbATTACH_AGENT [] = .go → n < 64 → 64 ≤ snp → snp ≤ 1024 → 1 ≤ credits → credits ≤ 256 → mayAttach u n = true →
      ∃ t, exec (.attachAgent c n snp credits) s = .next t ∧ AnsweredOk t c mbATTACH_AGENT [] ∧
        agentOf t n = { state := .attached, node := (Machine.lport s (agentPort n)).partnerNode, snpCap := snp, creqCredits := credits } ∧
        t.coh.dir = s.coh.dir ∧ t.pool = s.pool) ∧
    (∀ n, gate s c mbDETACH_AGENT [] = .go → n < 64 → (agentOf u n).state = .attached →
      exec (.detachAgent c n 0) s = .next (settle (probeAgent (setAgent u n { agentOf u n with state := .detaching, detach := (agentOf u n).detach ++ [c] }) n)) ∧
      exec (.detachAgent c n 1) s = .next (settle (startReclaim (setAgent u n { agentOf u n with state := .detaching, detach := (agentOf u n).detach ++ [c] }) n)))

/-- A job command that the common checks let go takes effect. SET_PORT_JOBS of an existing logical port sets its job set and answers SUCCESS (R121). INSTALL_JOB with arguments in range, of a job not yet installed, enters the job (R136). REMOVE_JOB of an installed job drops it and its cached translations, ends its parked requests, windows and channels, and a fence completes the command (R135, R143, R180, R307). WRITE_TT_ENTRIES with no argument or entry to refuse writes the entries and a fence completes the command (R132, R135). RESOLVE_FAULT of an open fault closes it: RETRY runs its requests again, the other outcomes fail them, with ADDRESS_INVALID or ACCESS_DENIED (R141); RETRY with a leaf writes the leaf over the LEAF entry and the fault ends with its fence (R574). Rows: SET_PORT_JOBS, INSTALL_JOB, REMOVE_JOB, WRITE_TT_ENTRIES, RESOLVE_FAULT. -/
def Obligations.JobCommandsComplete : Prop :=
  ∀ (s u : State) (c : Caller), u = startCmd s c →
    (∀ q jobs, gate s c mbSET_PORT_JOBS [] = .go → q < 512 → jobs.length ≤ 64 → badItem 4 2 (fun j => 65536 ≤ j) jobs = none → isLport u q = true →
      exec (.setPortJobs c q jobs) s = .next (answerOk
        (((sortAsc (portJobs u q ++ jobs)).filter fun j => (portJobs u q).contains j ≠ jobs.contains j).foldl jobsetMoved
          { u with pool := { u.pool with portJobs := tset u.pool.portJobs q jobs } }) c mbSET_PORT_JOBS [])) ∧
    (∀ a j v, gate s c mbINSTALL_JOB [a.job] = .go → installBad u a = none → thas u.pool.jobs a.job = false →
      j = ({ ttRoot := a.ttRoot, pagerCap := a.pagerCap, pagerNode := a.pagerNode, faultSlots := a.faultSlots, parkTimeout := a.parkTimeout
             ranked := decide (a.ranked = 1), rankedSet := sortAsc a.rankedSet } : Job) →
      v = jobsetMoved (setJob u a.job j) a.job →
      exec (.installJob c a) s = .next (answerOk (settle (noteLost v (v.pool.stacksLost ≠ []))) c mbINSTALL_JOB [])) ∧
    (∀ job j v, gate s c mbREMOVE_JOB [job] = .go → tget u.pool.jobs job = some j →
      v = failAll { u with pool := { u.pool with jobs := tdel u.pool.jobs job, xlate := u.pool.xlate.filter fun e => e.1.2.1 ≠ job } }
        (fun w => parks w.why && w.req.pkt.job = job) kJOB_UNKNOWN →
      exec (.removeJob c job) s = .next (settle (startFence (jobsetMoved
          (releaseJobBeads (closeJobChannels ((ownedWindows v job).foldl forceRevoke v) job) job) job)
        { caller := some (c, mbREMOVE_JOB), probe := (jobLeaves u j).flatMap fun x => heldOfLeaf u x.1 x.2, spans := [(job, 0, 2 ^ 48)] }))) ∧
    (∀ a, gate s c mbWRITE_TT_ENTRIES [a.job] = .go → thas u.pool.jobs a.job = true → a.level < 4 → a.first + a.entries.length ≤ 2 ^ levelBits a.level →
      a.table % (8 * 2 ^ levelBits a.level) = 0 → a.table + 8 * 2 ^ levelBits a.level ≤ ttSize u → (∀ e ∈ a.entries, e < 2 ^ 64 ∧ entryRefused u a.level e = false) →
      exec (.writeTtEntries c a) s = .next (writeEntries u c mbWRITE_TT_ENTRIES a.level (a.entries.mapIdx fun i e => (a.table + 8 * (a.first + i), e)) none)) ∧
    (∀ a j f, gate s c mbRESOLVE_FAULT [a.job] = .go → resolveBad a = none → tget u.pool.jobs a.job = some j → tget j.faults a.fid = some f →
      (a.hasLeaf = 0 → a.outcome = 0 → exec (.resolveFault c a) s =
        .next (answerOk (settle (rerunAll (closeFault u a.job a.fid) (onFault a.job a.fid))) c mbRESOLVE_FAULT [])) ∧
      (a.hasLeaf = 0 → a.outcome ≠ 0 → exec (.resolveFault c a) s =
        .next (answerOk (settle (failAll (closeFault u a.job a.fid) (onFault a.job a.fid) (if a.outcome = 1 then kADDRESS_INVALID else kACCESS_DENIED))) c mbRESOLVE_FAULT [])) ∧
      (∀ off e, a.hasLeaf = 1 → entryRefused u (3 - f.psize) a.leaf = false → coveringEntry u a.job f.page (3 - f.psize) = some (off, e) → ttKind e = 2 →
        exec (.resolveFault c a) s = .next (writeEntries u c mbRESOLVE_FAULT (3 - f.psize) [(off, a.leaf)] (some (a.job, a.fid)))))

/-- A near-tier or publishing command that the common checks let go takes effect. FLUSH_NEAR_TIER starts a flush that answers it (R223). DECLARE_TRAY_LOST of a tray of the map loses it: what waits on it is answered, its dirty lines are dropped, and the command answers SUCCESS (R234). CREATE_PUBLISH_REGION with arguments in range, overlapping no region of its job, with room for it and a page table over its view, enters the region and a fence that takes the view's lines back completes the command (R206, R229). DELETE_PUBLISH_REGION of a region drops it (R229). RESTORE_PAGES of valid images onto compressed blocks of this module holds each image for its block (R228). Rows: FLUSH_NEAR_TIER, DECLARE_TRAY_LOST, CREATE_PUBLISH_REGION, DELETE_PUBLISH_REGION, RESTORE_PAGES. -/
def Obligations.NearTierCommandsComplete : Prop :=
  ∀ (s u : State) (c : Caller), u = startCmd s c →
    (gate s c mbFLUSH_NEAR_TIER [] = .go → exec (.flushNearTier c) s = .next (startFlush u false (some c))) ∧
    (∀ tray e, gate s c mbDECLARE_TRAY_LOST [] = .go → tray < 0x4000 → tget u.map.comp.nodes tray = some e → e.kind = 2 →
      exec (.declareTrayLost c tray) s = .next (answerOk (settle (flushAdvance (rerunAll (loseTray u tray) (onTray tray)))) c mbDECLARE_TRAY_LOST [])) ∧
    (∀ a off e, gate s c mbCREATE_PUBLISH_REGION [a.job] = .go → thas u.pool.jobs a.job = true → regionBad a = none →
      (∀ g ∈ u.pool.regions, g.job = a.job → overlap a.view (spanBytes a.span) g.view g.span = false) → u.pool.regions.length < 65536 →
      coveringEntry u a.job a.view (spanLevel (spanBytes a.span)) = some (off, e) → ttKind e = 1 →
      exec (.createPublishRegion c a) s = .next (startFence
        { u with pool := { u.pool with regions := u.pool.regions ++
            [{ job := a.job, span := spanBytes a.span, view := a.view, vword := a.vword, version := a.version, pubs := a.pubs }] } }
        { caller := some (c, mbCREATE_PUBLISH_REGION), probe := heldUnder u (spanLevel (spanBytes a.span)) e })) ∧
    (∀ job view, gate s c mbDELETE_PUBLISH_REGION [job] = .go → (∃ g ∈ u.pool.regions, g.job = job ∧ g.view = view) →
      ∃ t, exec (.deletePublishRegion c job view) s = .next t ∧ AnsweredOk t c mbDELETE_PUBLISH_REGION [] ∧
        t.pool = { s.pool with regions := s.pool.regions.filter fun g => !(g.job = job && g.view = view) } ∧ t.coh = s.coh) ∧
    (∀ job va images (bs : List Nat), gate s c mbRESTORE_PAGES [job] = .go → thas u.pool.jobs job = true → va % 4096 = 0 → va + 4096 * images.length ≤ 2 ^ 48 →
      (∀ x ∈ images, (decodeImage x).isSome = true) → bs.length = images.length →
      (List.range images.length).map (fun i => compressedBlock u job (va + 4096 * i)) = bs.map some →
      exec (.restorePages c job va images) s = .next (answerOk ((bs.zip images).foldl holdImage u) c mbRESTORE_PAGES []))

/-- A command on reduction groups or sieve programs that the common checks let go takes effect. OPEN_REDUCTION with arguments and inputs in range, of an RID neither open nor closed in the last 8 ms, with room and staging, installs the group in its first round (R240, R243). CLOSE_REDUCTION discards an open group; ABORT_REDUCTION aborts its round at the root, and elsewhere asks the parent to; QUERY_REDUCTION answers it (R244, R265). LOAD_SIEVE_PROGRAM of a part that fits its slot stores it, and the last part of a valid program loads the slot and answers its digest (R293, R294). UNLOAD_SIEVE_PROGRAM of a loaded slot frees it, or makes it UNLOADING while requests use it; QUERY_SIEVE_PROGRAM answers the slot (R295). Rows: OPEN_REDUCTION, CLOSE_REDUCTION, ABORT_REDUCTION, QUERY_REDUCTION, LOAD_SIEVE_PROGRAM, UNLOAD_SIEVE_PROGRAM, QUERY_SIEVE_PROGRAM. -/
def Obligations.ReductionAndProgramCommandsComplete : Prop :=
  ∀ (s u : State) (c : Caller), u = startCmd s c →
    (∀ a, gate s c mbOPEN_REDUCTION [a.job] = .go → openReductionBad u a = none → inputsBad a = none → thas u.carry.groups a.rid = false →
      (∀ t, tget u.carry.closed a.rid = some t → t + ms 8 ≤ u.now) → u.carry.groups.length < 16384 → stagingShort u a = none →
      ∃ t, exec (.openReduction c a) s = .next t ∧ AnsweredOk t c mbOPEN_REDUCTION [] ∧
        t.carry = { s.carry with failed := tdel s.carry.failed a.rid, groups := tset s.carry.groups a.rid { a := a, round := a.round0 } } ∧ t.pool = s.pool ∧ t.net = s.net) ∧
    (∀ rid g, rid < 2 ^ 20 → groupOf u rid = some g → ownJob u c g.a.job = true →
      (gate s c mbCLOSE_REDUCTION [] = .go → exec (.closeReduction c rid) s = .next (answerOk (settle (closeGroup u rid)) c mbCLOSE_REDUCTION [])) ∧
      (gate s c mbABORT_REDUCTION [] = .go → isRoot u g.a = true → exec (.abortReduction c rid) s = .next (answerOk (abortRoot u rid) c mbABORT_REDUCTION [])) ∧
      (gate s c mbABORT_REDUCTION [] = .go → isRoot u g.a = false → exec (.abortReduction c rid) s = .next (askAbort u (.abortUp c) rid)) ∧
      (gate s c mbQUERY_REDUCTION [] = .go → exec (.queryReduction c rid) s = .next (answerOk u c mbQUERY_REDUCTION (groupBytes u g)))) ∧
    (∀ slot last owner part ins, gate s c mbLOAD_SIEVE_PROGRAM [owner] = .go → slot < 64 → last ≤ 1 → ins ≠ [] → ins.length ≤ 24 → owner < 65536 →
      (if part = 0 then (progSlot u slot).state = .free
        else (progSlot u slot).state = .loading ∧ part = (progSlot u slot).nextPart ∧ owner = (progSlot u slot).owner) →
      ∀ code, code = (if part = 0 then [] else (progSlot u slot).code) ++ ins →
      (last = 0 → ∃ t, exec (.loadSieveProgram c slot last owner part ins) s = .next t ∧ AnsweredOk t c mbLOAD_SIEVE_PROGRAM [] ∧
        progSlot t slot = { state := .loading, owner := owner, nextPart := part + 1, lastPart := s.now, code := code }) ∧
      (last = 1 → firstBad code = none → ∃ t, exec (.loadSieveProgram c slot last owner part ins) s = .next t ∧
        AnsweredOk t c mbLOAD_SIEVE_PROGRAM (shake256 (codeBytes code) 64) ∧
        progSlot t slot = { state := .loaded, owner := owner, nextPart := part + 1, lastPart := s.now, code := code, digest := shake256 (codeBytes code) 64 })) ∧
    (∀ slot, gate s c mbUNLOAD_SIEVE_PROGRAM [] = .go → slot < 64 → (progSlot u slot).state = .loaded → ownJob u c (progSlot u slot).owner = true →
      exec (.unloadSieveProgram c slot) s = .next (answerOk
        (setEvt (if 0 < slotUsers u slot then setSlot u slot { progSlot u slot with state := .unloading } else freeProg u slot) aSIEVE_CFG 9) c mbUNLOAD_SIEVE_PROGRAM [])) ∧
    (∀ slot, gate s c mbQUERY_SIEVE_PROGRAM [] = .go → slot < 64 → ((progSlot u slot).owner = 0 ∨ ownJob u c (progSlot u slot).owner = true) →
      exec (.querySieveProgram c slot) s = .next (answerOk u c mbQUERY_SIEVE_PROGRAM (slotBytes (progSlot u slot))))

/-- A channel command that the common checks let go, on a channel of the caller's jobs, takes effect. OPEN_MOVER_CHANNEL of a CLOSED channel with arguments in range makes it IDLE with its ring; CLOSE_MOVER_CHANNEL of an open one begins its close; SET_MOVER_PRIORITY of an open one sets the priority, at the next step boundary where the engine runs a channel; QUERY_MOVER_CHANNEL answers it (R307). ASSIGN_BEAD_CHANNEL of a resident channel in mode MEMORY without an owner gives it to the job; RELEASE_BEAD_CHANNEL of an assigned one stops its beads and is answered; QUERY_BEAD_CHANNEL answers it (R340). Rows: OPEN_MOVER_CHANNEL, CLOSE_MOVER_CHANNEL, SET_MOVER_PRIORITY, QUERY_MOVER_CHANNEL, ASSIGN_BEAD_CHANNEL, RELEASE_BEAD_CHANNEL, QUERY_BEAD_CHANNEL. -/
def Obligations.ChannelCommandsComplete : Prop :=
  ∀ (s u : State) (c : Caller) (ch : Nat), u = startCmd s c → ch < 128 →
    (∀ lg prio job base, gate s c mbOPEN_MOVER_CHANNEL [job] = .go → 4 ≤ lg → lg ≤ 16 → prio ≤ 3 → base % (64 * 2 ^ lg) = 0 → base + 64 * 2 ^ lg ≤ 2 ^ 48 →
      thas u.pool.jobs job = true → (chan u ch).state = .closed →
      ∃ t, exec (.openMoverChannel c ch lg prio job base) s = .next t ∧ AnsweredOk t c mbOPEN_MOVER_CHANNEL [] ∧
        chan t ch = { state := .idle, prio := prio, job := job, ringBase := base, ringLog2 := lg, record := (chan s ch).record } ∧
        (∀ o, o ≠ ch → chan t o = chan s o) ∧ t.pool = s.pool) ∧
    ((chan u ch).state ≠ .closed → ownJob u c (chan u ch).job = true →
      (gate s c mbCLOSE_MOVER_CHANNEL [] = .go → (chan u ch).closing = false →
        exec (.closeMoverChannel c ch) s = .next (settle (askClose u ch kSUCCESS (some c)))) ∧
      (∀ prio, gate s c mbSET_MOVER_PRIORITY [] = .go → prio ≤ 3 →
        ∃ t, exec (.setMoverPriority c ch prio) s = .next t ∧ AnsweredOk t c mbSET_MOVER_PRIORITY [] ∧
          chan t ch = (if (runningOn u (ch / 4)).isSome then { chan s ch with newPrio := some prio } else { chan s ch with prio := prio, newPrio := none }))) ∧
    (((chan u ch).state = .closed ∨ ownJob u c (chan u ch).job = true) → gate s c mbQUERY_MOVER_CHANNEL [] = .go →
      exec (.queryMoverChannel c ch) s = .next (answerOk u c mbQUERY_MOVER_CHANNEL (channelBytes (chan u ch)))) ∧
    (∀ job, gate s c mbASSIGN_BEAD_CHANNEL [job] = .go → thas u.pool.jobs job = true → (residentChannels u).contains ch = true → (beadCh u ch).mode = .memory →
      (beadCh u ch).owner = none → u.pool.stacksLost.contains (ch / 16) = false →
      ∃ t, exec (.assignBeadChannel c ch job) s = .next t ∧ AnsweredOk t c mbASSIGN_BEAD_CHANNEL [] ∧
        beadCh t ch = { beadCh s ch with owner := some job, saved := .memory, shedHeld := decide (1 ≤ level s) } ∧ t.pool = s.pool) ∧
    (gate s c mbRELEASE_BEAD_CHANNEL [] = .go → (beadCh u ch).owner.isSome = true → ownChannel u c ch = true →
      exec (.releaseBeadChannel c ch) s = .next (answerOk (settle (stopBead u ch kACCESS_DENIED true)) c mbRELEASE_BEAD_CHANNEL [])) ∧
    (gate s c mbQUERY_BEAD_CHANNEL [] = .go → ownChannel u c ch = true →
      exec (.queryBeadChannel c ch) s = .next (answerOk u c mbQUERY_BEAD_CHANNEL (beadChannelBytes u ch)))

/-- Rows: SET_GATE_SCHEDULE, SET_TALLY_SESSION, READ_TALLY, PROPOSE_MAP, QUERY_MAP, SET_PORT_ROLE, DRAIN_MODULE, RETIRE_LANE, RETRAIN_LANE, RELEASE_FLAP_HOLD. A command on queues, the map or lanes that the common checks let go takes effect. SET_GATE_SCHEDULE of an existing port with a well laid-out schedule writes the pending copy of group GATE (R387). SET_TALLY_SESSION with arguments in range sets the session (R391). READ_TALLY of a quarter whose UCIe module is up and whose EXPORT is 0 answers the oldest unread records and consumes them (R394). PROPOSE_MAP with arguments in range and records well laid out, against the committed epoch, with nothing staged and no grace, whose records pass the checks, begins the proposal (R436). QUERY_MAP answers the epochs, a node's entry or a group's (R449). SET_PORT_ROLE of a port whose ROLE is not locked writes the role (R428). DRAIN_MODULE of a module that is not departing begins the drain (R448). RETIRE_LANE of an active lane of an UP port retires it with its partner, and of another lane at once, with reason COMMANDED; RETRAIN_LANE of a retired idle lane trains it again (R75); RELEASE_FLAP_HOLD of a HELD port releases it (R78). -/
def Obligations.QueueMapAndLaneCommandsComplete : Prop :=
  ∀ (s u : State) (c : Caller), u = startCmd s c →
    (∀ q b, gate s c mbSET_GATE_SCHEDULE [] = .go → q < 512 → isLport u q = true → gateWell b = true →
      ∃ t, exec (.setGateSchedule c q b) s = .next t ∧ AnsweredOk t c mbSET_GATE_SCHEDULE [] ∧
        t.queues = { s.queues with gatePending := tset s.queues.gatePending q (parseGate b) } ∧ t.pool = s.pool ∧ t.net = s.net) ∧
    (∀ a, gate s c mbSET_TALLY_SESSION [] = .go → sessionBad a = none → a.anyMask < 32 →
      ∃ t, exec (.setTallySession c a) s = .next t ∧ AnsweredOk t c mbSET_TALLY_SESSION [] ∧
        t.queues = { s.queues with sessions := tset s.queues.sessions a.session a } ∧ t.pool = s.pool ∧ t.net = s.net) ∧
    (∀ n m, gate s c mbREAD_TALLY [] = .go → n < 4 → regField u (aTALLY_CFG n) 9 1 = 0 → ucieUp u n = true →
      exec (.readTally c n m) s = .next (answerOk (consumeTally u n ((unreadRecords u n).take m).length) c mbREAD_TALLY (recordList ((unreadRecords u n).take m)))) ∧
    (∀ a comp, gate s c mbPROPOSE_MAP [] = .go → a.base < 256 → 1 ≤ a.maxTransit → a.maxTransit ≤ 100 → a.records ≠ [] → a.records.length ≤ 8128 →
      (∀ b ∈ a.records, recOk b = true) → u.map.proposal = none → u.map.coord = none → a.base = u.map.epoch →
      checkRecs u (a.records.map parseRec) = .inl comp → graceRuns u = false →
      exec (.proposeMap c a) s = .next (settle (propose u c a.maxTransit a.records comp))) ∧
    (∀ id, gate s c mbQUERY_MAP [] = .go →
      exec (.queryMap c 0 id) s = .next (answerOk u c mbQUERY_MAP (mapEpochs u)) ∧
      (∀ e, tget u.map.comp.nodes id = some e → ownNode u c id = true → exec (.queryMap c 1 id) s = .next (answerOk u c mbQUERY_MAP (mapNode u id e))) ∧
      (∀ g, tget u.map.comp.groups id = some g → g.2.all (ownNode u c) = true → exec (.queryMap c 2 id) s = .next (answerOk u c mbQUERY_MAP (mapGroup id g)))) ∧
    (∀ q role, gate s c mbSET_PORT_ROLE [] = .go → q < 512 → role ≤ 4 → isLport u q = true → writeLocked u (aLPORT_ROLE q) (BitVec.ofNat 32 role) = false →
      exec (.setPortRole c q role) s = .next (answerOk
        (settle (afterWrite (setRegWord u (aLPORT_ROLE q) (BitVec.ofNat 32 role)) (aLPORT_ROLE q) (regWord u (aLPORT_ROLE q)) (lports u))) c mbSET_PORT_ROLE [])) ∧
    (gate s c mbDRAIN_MODULE [] = .go → s.map.departing = false → exec (.drainModule c) s = .next (settle (startDrain u c))) ∧
    (∀ l, gate s c mbRETIRE_LANE [] = .go → l < 512 → (Machine.lane u l).retired = false → exec (.retireLane c l) s = .next (
      if isUp u (lportOfLane u l) = true ∧ (Machine.lane u l).active = true then
        answerOk (settle (retireLanes u (lportOfLane u l) (2 ^ (l - lportOfLane u l)) 6)) c mbRETIRE_LANE []
      else answerOk (settle (portAdvance (dropLanes u (lportOfLane u l) [l] 6) (lportOfLane u l))) c mbRETIRE_LANE [])) ∧
    (∀ l, gate s c mbRETRAIN_LANE [] = .go → l < 512 → (Machine.lane u l).retired = true → (Machine.lane u l).retrain = .idle →
      exec (.retrainLane c l) s = .next (answerOk (Machine.retrainLane u l) c mbRETRAIN_LANE [])) ∧
    (∀ q, gate s c mbRELEASE_FLAP_HOLD [] = .go → q < 512 → isLport u q = true → (Machine.lport u q).state = .held →
      exec (.releaseFlapHold c q) s = .next (answerOk (releaseHold u q) c mbRELEASE_FLAP_HOLD []))

/-- Rows: GET_ATTESTATION, GET_IDENTITY_CHAIN, ALLOCATE_KEY_SLOT, INSTALL_TENANT_KEY, REMOVE_TENANT, SET_KEY_GRANT, QUERY_KEY_SLOT. An attestation or tenant command that the common checks let go takes effect. GET_ATTESTATION with a 64-byte nonce, with the attestation key certified and room in the queue, joins the report queue (R414). GET_IDENTITY_CHAIN answers the two certificates (R404, R426). ALLOCATE_KEY_SLOT of a FREE slot no leaf names makes it ALLOCATED to the tenant (R413, R417). INSTALL_TENANT_KEY into a slot ALLOCATED to the tenant, debug off, bound to a report the module signed, whose wrapped keys open, makes the slot ACTIVE with the keys and the session key derived (R417, R418). REMOVE_TENANT of a tenant with slots takes each slot through its leaving and answers SUCCESS (R422). SET_KEY_GRANT with a grant that is valid for a slot takes the grant (R419). QUERY_KEY_SLOT answers the slot's entry and its in-flight count, to a tenant only when TTAG holds (R426, R483). -/
def Obligations.TenantCommandsComplete : Prop :=
  ∀ (s u : State) (c : Caller), u = startCmd s c →
    (∀ nonce, gate s c mbGET_ATTESTATION [] = .go → nonce.length = 64 → s.ten.akReady = true → s.ten.reports.length < 17 →
      ∃ t, exec (.getAttestation c nonce) s = .next t ∧ t.ten.reports = s.ten.reports ++ [(c, nonce)] ∧ t.ten.slots = s.ten.slots ∧
        t.pool = s.pool ∧ t.net = s.net) ∧
    (gate s c mbGET_IDENTITY_CHAIN [] = .go →
      exec (.getIdentityChain c) s = .next (answerOk u c mbGET_IDENTITY_CHAIN (Config.deviceCert ++ Config.makerCert))) ∧
    (∀ i tenant, gate s c mbALLOCATE_KEY_SLOT [] = .go → i < 1024 → 1 ≤ tenant → tenant < 4096 → (keySlot s i).state = .free → (keySlot s i).leafRefs = 0 →
      ∃ t, exec (.allocateKeySlot c i tenant) s = .next t ∧ AnsweredOk t c mbALLOCATE_KEY_SLOT [] ∧
        keySlot t i = { state := .allocated, tenant := tenant } ∧ (∀ j, j ≠ i → keySlot t j = keySlot s j) ∧ t.pool = s.pool) ∧
    (∀ a i p, gate s c mbINSTALL_TENANT_KEY [] = .go → a.bytes.length = 0x724 → Config.debugEnabled = false → i = field a.bytes 2 2 % 1024 →
      (keySlot s i).state = .allocated → (keySlot s i).tenant = field a.bytes 0 2 % 4096 → (a.bytes.drop 8).take 64 ∈ s.ten.digests →
      unwrapKeys a.bytes (Config.kemOpen s.ten.kemKey ((a.bytes.drop 0x48).take 1568)) = some p →
      ∃ t, exec (.installTenantKey c a) s = .next t ∧ AnsweredOk t c mbINSTALL_TENANT_KEY [] ∧
        (keySlot t i).state = .active ∧ (keySlot t i).keys = p.take 96 ∧ (keySlot t i).gkey = p.drop 96 ∧ (keySlot t i).gseq = 0 ∧
        (keySlot t i).jobs = [] ∧ (keySlot t i).pin = (if bit (field a.bytes 2 2) 15 then some s.rkn.running.digest else none) ∧
        (keySlot t i).tenant = (keySlot s i).tenant ∧ (∀ j, j ≠ i → keySlot t j = keySlot s j) ∧ t.pool = s.pool) ∧
    (∀ tenant, gate s c mbREMOVE_TENANT [] = .go → 1 ≤ tenant → tenant < 4096 → slotsOfTenant u tenant ≠ [] →
      exec (.removeTenant c tenant) s = .next (answerOk ((slotsOfTenant u tenant).foldl leaveSlot u) c mbREMOVE_TENANT [])) ∧
    (∀ body sig, gate s c mbSET_KEY_GRANT [] = .go → grantValid u body sig = true →
      exec (.setKeyGrant c body sig) s = .next (takeGrant u c (field body 6 2) body)) ∧
    (∀ i ttag, gate s c mbQUERY_KEY_SLOT [] = .go → i < 1024 → (c.tenant = true → tagHolds u c i ttag = true) →
      exec (.queryKeySlot c i ttag) s = .next (answerOk u c mbQUERY_KEY_SLOT (slotEntry u i ++ le 4 (slotInflight u i))))

/-- Rows: GET_IDENTITY, GET_STATUS, OPEN_SESSION, CLOSE_SESSION, SET_MANAGER_KEYS, BIND_HOST_MAILBOX, STAGE_FIRMWARE, VERIFY_FIRMWARE, ACTIVATE_FIRMWARE, QUERY_FIRMWARE. A command of the Reckoner's own that the common checks let go takes effect. GET_IDENTITY answers IDENTITY bytes 0 to 0x023, GET_STATUS the STATUS, SUPPLY and THERMAL blocks and the management addresses (R542), to a tenant only when TTAG holds (R483). OPEN_SESSION in a clear mailbox, well formed, signed by a manager key that the module holds, with the attestation key certified and a session free or idle, begins that session (R498, R500). CLOSE_SESSION answers and closes the session it came in (R500). SET_MANAGER_KEYS with one to four 64-byte keys, from the fabric manager or while none is held, replaces the keys (R499). BIND_HOST_MAILBOX binds or unbinds a host mailbox (R484). STAGE_FIRMWARE within 5 MiB is kept and STAGED_VALID falls; VERIFY_FIRMWARE of a good image sets STAGED_VALID and answers digest and version (R509); ACTIVATE_FIRMWARE of the staged valid image opens the activation window, or in identity-and-fetch mode begins the flash write (R510, R513); QUERY_FIRMWARE answers. -/
def Obligations.ReckonerCommandsComplete : Prop :=
  ∀ (s u : State) (c : Caller), u = startCmd s c →
    (∀ ttag, gate s c mbGET_IDENTITY [] = .go → (callerClass c = .tenant → ttagHolds u c mbGET_IDENTITY [] ttag = true) →
      exec (.getIdentity c ttag) s = .next (answerOk (readRange u c.mbox false 9 0).2 c mbGET_IDENTITY (readRange u c.mbox false 9 0).1)) ∧
    (∀ ttag x1 x2 x3, gate s c mbGET_STATUS [] = .go → (callerClass c = .tenant → ttagHolds u c mbGET_STATUS [] ttag = true) →
      x1 = readRange u c.mbox false 3 aSTATUS → x2 = readRange x1.2 c.mbox false 25 aSUPPLY → x3 = readRange x2.2 c.mbox false 29 aTHERMAL →
      exec (.getStatus c ttag) s = .next (answerOk x3.2 c mbGET_STATUS
        (x1.1 ++ x2.1 ++ x3.1 ++ zeros 4 ++ (List.range 4).flatMap fun i => padTo 16 (Config.mgmtAddress i)))) ∧
    (∀ a i, gate s c mbOPEN_SESSION [] = .go → isClear c.mbox = true → a.nonce.length = 32 → a.kemCt.length = 1568 → a.mgrSig.length = 49856 →
      s.ten.akReady = true → managerSigned u a = true → sessionFor u = some i →
      exec (.openSession c a) s = .next (beginSession u c a i)) ∧
    (∀ i, c.mbox = .fm i → gate s c mbCLOSE_SESSION [] = .go → stillOpen u c = true →
      exec (.closeSession c) s = .next (closeOne (answerOk u c mbCLOSE_SESSION []) i)) ∧
    (∀ keys, gate s c mbSET_MANAGER_KEYS [] = .go → (callerClass c = .baseboard → s.rkn.managerKeys = []) → 1 ≤ keys.length → keys.length ≤ 4 →
      (∀ k ∈ keys, k.length = 64) →
      exec (.setManagerKeys c keys) s = .next (answerOk { u with rkn := { u.rkn with managerKeys := keys } } c mbSET_MANAGER_KEYS [])) ∧
    (∀ m q l v, gate s c mbBIND_HOST_MAILBOX [] = .go → m < 16 → (q = 0xFFFF ∨ isLport u q = true) →
      l = (u.rkn.journal.filter fun j => !j.2 && j.1.mbox = .host m).map (·.1) →
      v = l.foldl (fun st h => answer st h mbGET_ATTESTATION mABORTED_BY_UPDATE 0 []) { u with ten := { u.ten with reports := u.ten.reports.filter fun r => !(r.1 ∈ l) } } →
      exec (.bindHostMailbox c m q) s = .next (answerOk
        (setMbox v (.host m) { bound := if q = 0xFFFF then none else some q, started := (mboxOf v (.host m)).started }) c mbBIND_HOST_MAILBOX [])) ∧
    (∀ offset data, gate s c mbSTAGE_FIRMWARE [] = .go → offset + data.length ≤ 5242880 →
      ∃ t, exec (.stageFirmware c offset data) s = .next t ∧ AnsweredOk t c mbSTAGE_FIRMWARE [] ∧ t.pool = s.pool ∧ t.net = s.net) ∧
    (∀ n im, gate s c mbVERIFY_FIRMWARE [] = .go → verifyError u n = 0 → im = imageOf (stagedBytes u n) →
      exec (.verifyFirmware c n) s = .next (answerOk { u with rkn := { u.rkn with staged := im, stagedValid := true } } c mbVERIFY_FIRMWARE
        (padTo 64 im.digest ++ le 8 im.version))) ∧
    (∀ d, gate s c mbACTIVATE_FIRMWARE [] = .go → s.rkn.stagedValid = true → d = s.rkn.staged.digest → s.rkn.activation = none →
      exec (.activateFirmware c d) s = .next (
        if s.rkn.dvorro = .fetch then { u with rkn := { u.rkn with flashWrite := true, activation := some (c, s.now) } }
        else { u with rkn := { u.rkn with dvorro := .activating, activation := some (c, s.now) } })) ∧
    (gate s c mbQUERY_FIRMWARE [] = .go → exec (.queryFirmware c) s = .next (queryImages u c))

/-- Rows: RETIRE_UNIT, RUN_DRILL, ABORT_DRILL, READ_EVENT_LOG, READ_DRILL_LOG. A command of the fault manager that the common checks let go takes effect. RETIRE_UNIT of an existing unit not yet retired fails it with cause 5, of a bank pair spares the pair, of a buffer macro spares the macro, each answered SUCCESS (R462). RUN_DRILL whose arguments are those of its row and which nothing refuses raises DRILL_START, is answered SUCCESS and acts (R471). ABORT_DRILL while a drill runs marks it and is answered (R474). READ_EVENT_LOG answers the records from a sequence number on that its caller may read, and those records no longer hold ALERT_N (R467). READ_DRILL_LOG answers the drill log's entries (R475). -/
def Obligations.FaultCommandsComplete : Prop :=
  ∀ (s u : State) (c : Caller), u = startCmd s c →
    (gate s c mbRETIRE_UNIT [] = .go →
      (∀ k n i, (n, k) ∈ [(3, UnitKind.rod), (4, .carry), (5, .sieve), (6, .mover)] → i < unitTotalOf k → u.spares.retired.contains (k, i) = false →
        exec (.retireUnit c n i) s = .next (answerOk (settle (failUnit u k i 5)) c mbRETIRE_UNIT [])) ∧
      (∀ i, i < 2048 → u.spares.bankRetired.contains i = false → exec (.retireUnit c 9 i) s = .next (answerOk (settle (sparePair u i)) c mbRETIRE_UNIT [])) ∧
      (∀ i, i < 4096 → exec (.retireUnit c 10 i) s = .next (answerOk (settle (spareMacro u (i / 1024) (i % 1024))) c mbRETIRE_UNIT []))) ∧
    (∀ a, gate s c mbRUN_DRILL [] = .go → drillBad a = none → drillRefusal u a = none →
      exec (.runDrill c a) s = .next (settle (drillAct (answerOk (raise
        (bump { u with spares := { u.spares with drill := some { args := a, startedAt := s.now } } } cDRILLS_RUN)
        (drillRecord a eDRILL_START a.dkind a.target)) c mbRUN_DRILL []) a))) ∧
    (gate s c mbABORT_DRILL [] = .go → s.spares.drill.isSome = true →
      exec (.abortDrill c) s = .next (answerOk (cutDrill (modDrill u fun d => { d with aborted := true })) c mbABORT_DRILL [])) ∧
    (∀ first m l, gate s c mbREAD_EVENT_LOG [] = .go → l = (u.events.ring.filter fun r => decide (first ≤ r.seq) && readable c r).take m →
      exec (.readEventLog c first m) s = .next (answerOk
        { u with events := { u.events with alert := u.events.alert.filter fun q => !(l.any fun r => r.seq = q) } } c mbREAD_EVENT_LOG (recordList (l.map eventBytes)))) ∧
    (∀ first m, gate s c mbREAD_DRILL_LOG [] = .go →
      exec (.readDrillLog c first m) s = .next (answerOk u c mbREAD_DRILL_LOG (recordList (((u.spares.log.drop first).take m).map eventBytes))))

/-- Rows: PORT_ENABLE, PORT_DISABLE, DISABLE_DRAIN_END, TRAINING_START_GRANT, LANE_RECEIVER_READY, TRAINING_TIMEOUT, FLIT_LOCK_ACHIEVED, HELLO_SEND, HELLO_RECEIVE, HELLO_TIMEOUT, DOWN_BACKOFF_EXPIRY, BACKOFF_RESET. PORT_ENABLE and PORT_DISABLE of an existing port write its bit, and the ports of its native port that are between two packets act by it at once: a DISABLED port whose bit is set, with LINKS begun and its rod in service, goes to WAIT_ADMIT (R56); one whose bit is clear sends LINK_DOWN from UP and starts its drain, and any other state but DISABLED and HELD goes DISABLED at once (R79). The drain ends when every flit is acknowledged or after 10 us (R79). A training start is granted to the first request still waiting, at most one in 125 us (R57). A lane of a TRAINING port reports ready, and the port goes to LOCK when every live lane is ready (R56); with flit lock on every live lane it goes to HELLO (R56). A lane in HELLO sends its HELLO flit each 1 us (R58). A well-formed HELLO with at least 65 credits of each class is taken, and the exchange ends when every live lane agrees (R58). TRAINING of 500 ms and HELLO of 10 ms time out (R57, R58). A DOWN port's back-off ends in WAIT_ADMIT with the back-off doubled, at most 1,024 ms (R78); 60 s of UP reset it to 1 (R78). -/
def Obligations.PortsTrainAndComeUp : Prop :=
  ∀ (s : State) (q l : Nat),
    (isLport s q = true → exec (.portEnable q) s = .next (cfgWritten (setEnable s q true) (nativeOf q)) ∧
      exec (.portDisable q) s = .next (cfgWritten (setEnable s q false) (nativeOf q))) ∧
    (isLport s q = true → portEnabled s q = true → (Machine.lport s q).state = .disabled → s.links.open_ = true → rodOut s q = false →
      enablePort s q = toWaitAdmit s q) ∧
    (isLport s q = true → portEnabled s q = false →
      ((Machine.lport s q).state = .up → (Machine.lport s q).draining = none →
        cfgActs s q = modLport s q fun p => { p with ctl := p.ctl ++ [[4, 0]], draining := some s.now }) ∧
      ((Machine.lport s q).state ∈ [PortState.waitAdmit, .training, .lock, .hello, .down] → cfgActs s q = toState (clearLink s q) q .disabled)) ∧
    (∀ t, (Machine.lport s q).draining = some t →
      ((Machine.lport s q).replay = [] ∧ (Machine.lport s q).ctl = [] ∨ due s t (us 10) = true) →
      exec (.disableDrainEnd q) s = .next (settle (enablePort (leaveUp s q .disabled) q))) ∧
    (∀ x, s.links.open_ = true → (∀ t, s.links.lastStart = some t → due s t (us 125) = true) → s.links.starts.find? (startWaits s) = some x → x.lane = none →
      exec .trainingStartGrant s =
        .next (startTraining { s with links := { s.links with starts := s.links.starts.erase x, lastStart := some s.now } } x.lport)) ∧
    (∀ pre v, q = lportOfLane s l → (Machine.lport s q).state = .training → (Machine.lane s l).retired = false →
      v = setLane s l { Machine.lane s l with ready := true, precode := pre && decide (regField s (aPORT_CFG (nativeOf q)) 3 1 = 1) } →
      exec (.laneReceiverReady l pre) s = .next (if (liveLanes v q).all fun x => (Machine.lane v x).ready then
        modLport (toState v q .lock) q fun p => { p with precodeOn := (liveLanes v q).any fun x => (Machine.lane v x).precode } else v)) ∧
    ((Machine.lport s q).state = .training → due s (Machine.lport s q).since (ms 500) = true →
      exec (.trainingTimeout q) s = .next (settle (addStart (goDown s q 0) { lport := q, late := true }))) ∧
    (∀ v, q = lportOfLane s l → (Machine.lport s q).state = .lock → (Machine.lane s l).retired = false → v = setLane s l { Machine.lane s l with locked := true, place := 0, badFirst := false, badSecond := false } →
      exec (.flitLockAchieved l) s = .next (if (liveLanes v q).all fun x => (Machine.lane v x).locked then toState v q .hello else v)) ∧
    (∀ v, inHello s l = true → due s (Machine.lane s l).lastHello (us 1) = true → v = setLane s l { Machine.lane s l with lastHello := s.now } →
      exec (.helloSend l) s = .next { v with links := { v.links with lastTx := tset v.links.lastTx l (sealFlit { fkind := 3, pend := 32, txlane := l - lportOfLane s l, payload := helloBytes (helloOf s l) }) } }) ∧
    (∀ h v, q = lportOfLane s l → (Machine.lport s q).state = .hello → inHello s l = true → helloWell h = true → 65 ≤ leastCredit h →
      v = modLport (setLane s l { Machine.lane s l with hello := some h }) q (fun p => { p with partnerReady := h.ready }) →
      exec (.helloReceive l h) s = .next (settle (if (liveLanes v q).all fun x => x ∈ agreeing v q then helloOver v q else v))) ∧
    ((Machine.lport s q).state = .hello → due s (Machine.lport s q).since (ms 10) = true → exec (.helloTimeout q) s = .next (settle (helloOver s q))) ∧
    ((Machine.lport s q).state = .down → due s (Machine.lport s q).since (ms (Machine.lport s q).backoff) = true → rodOut s q = false → portEnabled s q = true →
      flapping (Machine.lport s q) = false →
      exec (.downBackoffExpiry q) s = .next (toWaitAdmit (setLport s q { Machine.lport s q with backoff := min 1024 (2 * (Machine.lport s q).backoff) }) q)) ∧
    (isUp s q = true → due s (Machine.lport s q).since (ms 60000) = true →
      exec (.backoffReset q) s = .next (setLport s q { Machine.lport s q with backoff := 1 }))

/-- Rows: FLIT_TRANSMIT, FLIT_RECEIVE, MISSING_LSEQ_TIMEOUT, REPLAY_TIMEOUT, LANE_LOCK_LOSS, LANE_UNCORRECTABLE_LIMIT, SYMBOL_ERROR_WINDOW, LANE_RETIRE, LANE_ADD, LINK_DOWN, DEPARTING. At its slot an active lane of an UP port whose rod is not paused sends a replayed flit first, then, while fewer flits are unacknowledged than the replay buffer holds, a CONTROL flit, lossless DATA, lossy DATA, or IDLE (R60, R68, R70; the order is the model's, log entry 26). A good flit on such a lane gives its credits and its LACK (R66, R70); a DATA or CONTROL flit then enters the ingress dock and acts by its LSEQ (R41, R69); a bad one sets LNAK and drops the flits held ahead (R61). A missing LSEQ sets LNAK after 256 ns (R69). LACK that has not moved for 10 us replays the flits, and after 16 replays the port goes DOWN (R70). A lane that loses lock, has four uncorrectable codewords in 1 s, or exceeds its symbol threshold is retired with reason 1, 2 or 3 (R72). The partner's LANE_RETIRE retires the lanes it names that are in use, is answered with the same mask unless the module's own has named it (log entry 24), and replays the flits (R73); its LANE_ADD brings lanes in HELLO back (R75); its LINK_DOWN and DEPARTING take the port DOWN (R76). -/
def Obligations.FlitsAndLaneEventsAct : Prop :=
  ∀ (s : State) (q l : Nat), q = lportOfLane s l → isUp s q = true →
    ((Machine.lane s l).active = true → rodPaused s q = false →
      (∀ f r, (Machine.lport s q).resend = f :: r → exec (.flitTransmit l) s = .next (sentFlit (setLport s q { Machine.lport s q with resend := r }) l f)) ∧
      ((Machine.lport s q).resend = [] → replayRoom s q ≤ (Machine.lport s q).replay.length → exec (.flitTransmit l) s = .next (sentFlit s l { lseq := (Machine.lport s q).txSeq })) ∧
      ((Machine.lport s q).resend = [] → (Machine.lport s q).replay.length < replayRoom s q →
        (∀ m r, (Machine.lport s q).ctl = m :: r → exec (.flitTransmit l) s =
          .next (sendKept (setLport s q { Machine.lport s q with ctl := r }) l { fkind := 2, pend := m.length, payload := m })) ∧
        (∀ e, e = endsPackets (Machine.lport s q) → (Machine.lport s q).ctl = [] →
          (hasBytes (Machine.lport s q).txLossless e = true → ∀ d o x, packTx (Machine.lport s q).txLossless e = (d, o, x) →
            exec (.flitTransmit l) s = .next (sendData (setLport s q { Machine.lport s q with txLossless := x }) l { fkind := 1, fpo := o, pend := d.length, payload := d })) ∧
          (hasBytes (Machine.lport s q).txLossless e = false → hasBytes (Machine.lport s q).txLossy e = true → ∀ d o x, packTx (Machine.lport s q).txLossy e = (d, o, x) →
            exec (.flitTransmit l) s =
              .next (sendData (setLport s q { Machine.lport s q with txLossy := x }) l { fkind := 1, flossy := true, fpo := o, pend := d.length, payload := d })) ∧
          (hasBytes (Machine.lport s q).txLossless e = false → hasBytes (Machine.lport s q).txLossy e = false →
            exec (.flitTransmit l) s = .next (sentFlit s l { lseq := (Machine.lport s q).txSeq })))) ∧
      (∀ f drained u, u = passFlit s l f.damaged → isUp u q = true → (Machine.lane u l).active = true → rodPaused u q = false →
        (flitBad f = true → exec (.flitReceive l f drained) s = .next (settle (modLport u q fun p => { p with lnak := true, ahead := [] }))) ∧
        (flitBad f = false → ∀ v, v = takeLnak (modLport u q fun p => takeLack (takeCredit (takeCredit p f.cselA f.ccumA) f.cselB f.ccumB) u.now f.lack) q f →
          (f.fkind = 0 → exec (.flitReceive l f drained) s = .next (settle v)) ∧
          (f.fkind ≠ 0 → f.fkind ≠ 3 → exec (.flitReceive l f drained) s = .next (settle (takeSequenced (dockFlit v q drained).2 q f (dockFlit v q drained).1)))))) ∧
    ((Machine.lport s q).lnak = false → (Machine.lport s q).ahead ≠ [] → due s (Machine.lport s q).aheadAt 256 = true →
      exec (.missingLseqTimeout q) s = .next (setLport s q { Machine.lport s q with lnak := true, ahead := [] })) ∧
    (rodPaused s q = false → (Machine.lport s q).replay ≠ [] → due s (Machine.lport s q).lackAt (us 10) = true →
      ((Machine.lport s q).replays < 16 → exec (.replayTimeout q) s = .next (settle (replayAll (setLport s q { Machine.lport s q with lackAt := s.now }) q))) ∧
      (16 ≤ (Machine.lport s q).replays → ∀ m r, activeLanes s q = m :: r → exec (.replayTimeout q) s =
        .next (settle (goDown (sentFlit s m { fkind := 2, lseq := (Machine.lport s q).txSeq, pend := 2, payload := [4, 1] }) q 2)))) ∧
    ((Machine.lane s l).active = true → exec (.laneLockLoss l) s = .next (settle (retireLanes s q (2 ^ (l - q)) 1))) ∧
    (4 ≤ ((Machine.lane s l).uncorr.filter fun t => s.now < t + ms 1000).length →
      exec (.laneUncorrectableLimit l) s = .next (settle (retireLanes s q (2 ^ (l - q)) 2))) ∧
    (∀ corrected symbols v, v = bumpBy s (cLANE_FEC_CORR l) corrected → injectedLane v l = false →
      portCfg v q 16 8 ≠ 0 → portCfg v q 16 8 * symbols < corrected * 30000 →
      exec (.symbolErrorWindow l corrected symbols) s = .next (settle (retireLanes v q (2 ^ (l - q)) 3))) ∧
    (∀ mask ls v w, ls = (maskLanes s q mask).filter (fun x => (Machine.lane s x).active) →
      v = (if ls = [] then s else dropLanes (drawFree s).2 q ls (1 + (drawFree s).1 % 6)) →
      w = (if mask &&& (Machine.lport v q).retireSent = mask then v
        else modLport (sendCtl v q [2, BitVec.ofNat 8 mask]) q fun p => { p with retireSent := p.retireSent ||| mask }) →
      exec (.laneRetire q mask) s = .next (settle (if ls = [] then replayAll w q else lanesLeft (replayAll w q) q))) ∧
    (∀ mask ls, ls = (maskLanes s q mask).filter (fun x => (Machine.lane s x).retrain = .hello) → ls ≠ [] →
      exec (.laneAdd q mask) s = .next (settle (lanesBack s q ls))) ∧
    (∀ reason, reason < 256 → exec (.linkDownCtl q reason) s = .next (settle (goDown s q 4))) ∧
    exec (.departing q) s = .next (settle (goDown s q 5))

/-- Rows: PACKET_TRANSMIT_SELECT, RESIDENCE_LIMIT, GATE_ENTRY_CHANGE, RESEQ_CONTEXT_IDLE, RATE_ENTRY_RECOVERY, TALLY_EXPORT, PTP_MESSAGE. Once the module's own packets that may go have joined their queues (R94, R383), at a packet boundary a port sends the head of the queue it chooses, with the virtual time moved for a queue that is not strict (R379). The packets of an output queue that have been in the switch for 1 ms, chosen or not, and those that the resequencers of a quarter hold, are discarded (R99). A gate entry change leaves the port at the entry of its schedule's place in the cycle (R384). A resequencer context that holds nothing goes after 100 us without traffic (R112). A rate entry gains 2,000 units every 50 us after its last mark, and goes at the line rate (R383). With EXPORT 1 and the mirror port UP with role MIRROR, unread tally records leave as a MIRROR packet (R394). From phase ROM on a valid IEEE 1588 message locks an unlocked clock by stepping its counter; a locked one at most 1 s behind is slewed by the offset (R389). -/
def Obligations.QueueTimersAndClockAct : Prop :=
  ∀ (s : State) (q n : Nat),
    (∀ w k x b u v, w = releaseOwn s → atBoundary w q = true → chooseQueue w q = some (k, x, b) →
      u = toStream (if regField w (aQUEUE_PARAM k) 8 1 = 1 then w else setSched w q { sched w q with v := (outQ w k).fin }) q k x →
      v = bumpBy u (cLPORT_TX_BYTES q) (packetSize x.pkt) →
      exec (.packetTransmitSelect q) s = .next (admitReserves (popHead (capture
        (if b then setEvt (bump v (cLPORT_GATE_OVERRUN q)) (aQUEUE_CFG (quarterOf q)) 28 else v)
        q (k % 16) (if b then 7 else if x.marked then 6 else 1) x.colour x.pkt) k) (quarterOf q))) ∧
    (q ≠ selfPort → ∀ k, k < 16 → exec (.residenceLimit q k) s = .next (expireQueue (expireChosen s q (16 * q + k)) q (16 * q + k))) ∧
    exec (.residenceLimit selfPort n) s = .next (expireHeld s n) ∧
    (∃ t, exec (.gateEntryChange q) s = .next t ∧ t.pool = s.pool ∧ t.net = s.net ∧ t.regs = s.regs ∧ (portGate t q).cur = gateNow s q ∧
      (portGate t q).idx = (gateNow s q).entries.length - (gateFrom (gatePlace (gateNow s q) (timeNow s)) (gateNow s q).entries).length) ∧
    (∀ src dst flow x, tget s.net.reseq (q, src, dst, flow) = some x → x.held = [] → due s x.lastAt (us 100) = true →
      exec (.reseqContextIdle q src dst flow) s = .next { s with net := { s.net with reseq := tdel s.net.reseq (q, src, dst, flow) } }) ∧
    (∀ dst r, tget s.queues.rates (n, dst) = some r → due s r.markAt (us 50) = true →
      exec (.rateEntryRecovery n dst) s = .next (if lineRate s (egressPort s dst) ≤ r.rate + 2000
        then { s with queues := { s.queues with rates := tdel s.queues.rates (n, dst) } }
        else { s with queues := { s.queues with rates := tset s.queues.rates (n, dst) { r with rate := r.rate + 2000, markAt := s.now } } })) ∧
    (∀ l u, exports s n = true → l = (unreadRecords s n).take (if rec128 s n then 32 else 64) →
      u = setTally s n { tally s n with mirrorMsg := ((tally s n).mirrorMsg + 1) % 2 ^ 24 } →
      exec (.tallyExport n) s = .next (sendOn (bump (consumeTally u n l.length) (cMIRROR_SENT n)) (regField u (aTALLY_CFG n) 10 9) (mirrorPacket s n l))) ∧
    (∀ m, m.valid = true → 2 ≤ s.supply.phase →
      (s.clock.locked = false → ∃ t, exec (.ptpMessage m) s = .next t ∧ t.clock.locked = true ∧ t.clock.offset = m.offset ∧
        t.clock.counter = ((s.clock.counter : Int) - m.offset).toNat % 2 ^ 64 ∧ t.pool = s.pool ∧ t.net = s.net) ∧
      (s.clock.locked = true → -1000000000 ≤ m.offset →
        exec (.ptpMessage m) s = .next { s with clock := { s.clock with offset := m.offset, slew := -m.offset } }))

/-- Rows: ACK_GATHER_FLUSH, RETX_TIMER_EXPIRY, PACKET_ABANDON, ASSEMBLY_TIMEOUT, DEDUP_EXPIRY, WRITE_COMPLETION_DELAY. A flush sends the gathered ACK and NAK entries of a source (R95). A retransmission timer that is due before 10 ms from the first transmission sends the packet again (R97, R105); a packet of an own request unanswered for 10 ms ends its message with TRANSPORT_TIMEOUT, one of a response is forgotten (R97). The bitmap of a message some of whose packets are still missing is freed 12 ms after its last packet and counted (R92). A dedup entry whose retention is over goes (R102). A write that was transmitted again is reported at its time (R100). -/
def Obligations.TransportTimersAct : Prop :=
  ∀ (s : State) (q src dst msg pidx : Nat),
    exec (.ackGatherFlush q src) s = .next (flushEntries s q src) ∧
    (∀ rsp x, tget s.net.sent (dst, msg, pidx, rsp) = some x → retxDue s x = true → tooLong s x = false →
      exec (.retxTimerExpiry dst msg pidx rsp) s = .next (settle (retransmit s (dst, msg, pidx, rsp) x))) ∧
    (∀ rsp x, tget s.net.sent (dst, msg, pidx, rsp) = some x → tooLong s x = true →
      (∀ k m, rsp = false → ownOf s dst msg = some (k, m) → exec (.packetAbandon dst msg pidx rsp) s =
        .next (settle (finishOwn s k m { code := kTRANSPORT_TIMEOUT, detail := 1, timeout := true }))) ∧
      (rsp = true → exec (.packetAbandon dst msg pidx rsp) s = .next (settle { s with net := { s.net with sent := tdel s.net.sent (dst, msg, pidx, rsp) } }))) ∧
    (∀ a, tget s.net.assembly (q, src, msg) = some a → a.got.length ≤ a.first.pcnt → due s a.lastAt (ms 12) = true →
      exec (.assemblyTimeout q src msg) s = .next (settle (endMessage (bump s (cASSEMBLY_TIMEOUT_COUNT q)) a.first))) ∧
    (∀ d, tget s.net.dedup (src, msg) = some d → dedupOver s d = true →
      exec (.dedupExpiry src msg) s = .next (settle { s with net := { s.net with dedup := tdel s.net.dedup (src, msg) } })) ∧
    (∀ m c, tget s.net.own (dst, msg) = some m → m.waiting = some c → reportHeld s m = false →
      exec (.writeCompletionDelay dst msg) s = .next (settle (closeOwn s (dst, msg) m { code := c, timeout := decide (c = kTRANSPORT_TIMEOUT) })))

/-- Rows: FAULT_TIMEOUT, FLOW_PENDING_EXPIRY, PARKED_BEHIND_TIMEOUT, UNREACHABLE_TRAY_PARK_TIMEOUT, RANKED_EPOCH_APPLY, RANKED_EPOCH_TIMEOUT, COMBINED_ATOMIC_SEND, LINE_RELEASE, TRANSLATION_FENCE_DONE. A fault open PARK_TIMEOUT after its first park is counted and closed and its requests fail FAULT_TIMEOUT (R142). A refused packet of a flow is no longer pending PARK_TIMEOUT later (R139); a packet parked behind another, or on an unreachable tray, fails FAULT_TIMEOUT at its PARK_TIMEOUT (R139, R233). A ranked epoch that all sources of the set have closed, and none before it is open, is applied (R151); one that is late is applied as held and its missing sources are named (R153). A combining entry not yet sent is sent (R147). Once a line is at rest the oldest request waiting for it runs (R198). A translation fence whose old lines are given up and whose spans no bead command uses is over (R135). -/
def Obligations.WaitingRequestsAreReleased : Prop :=
  ∀ (s : State),
    (∀ job fid j f, tget s.pool.jobs job = some j → tget j.faults fid = some f → due s f.opened (j.parkTimeout * us 100) = true →
      exec (.faultTimeout job fid) s = .next (settle (failAll (closeFault
        (bump s (cFAULT_TIMEOUT_COUNT (((s.pool.waiters.find? (onFault job fid)).map (·.quarter)).getD 0))) job fid) (onFault job fid) kFAULT_TIMEOUT))) ∧
    (∀ src flow fseq t job, tget s.pool.pendingFlow (src, flow, fseq) = some (t, job) → due s t (parkTimeout s job) = true →
      exec (.flowPendingExpiry src (myNode s) flow fseq) s =
        .next (settle { s with pool := { s.pool with pendingFlow := tdel s.pool.pendingFlow (src, flow, fseq) } })) ∧
    (∀ q src msg,
      exec (.parkedBehindTimeout q src msg) s = .next (settle (failAll s (fun w => decide (w.why = .behind)
        && decide (w.quarter = q ∧ w.req.pkt.src = src ∧ w.req.pkt.msg = msg) && due s w.since (parkTimeout s (accessJob s w))) kFAULT_TIMEOUT)) ∧
      exec (.unreachableTrayParkTimeout q src msg) s = .next (settle (failAll s (fun w => whyTray w.why
        && decide (w.quarter = q ∧ w.req.pkt.src = src ∧ w.req.pkt.msg = msg) && due s w.since (parkTimeout s (accessJob s w))) kFAULT_TIMEOUT))) ∧
    (∀ job r, epochReady s job r = true → exec (.rankedEpochApply job r) s = .next (settle (applyEpoch s job r))) ∧
    (∀ job r j t l, tget s.pool.jobs job = some j → tget j.epochs r = some (some t, l) → due s t (j.parkTimeout * us 100) = true → unclosed j r ≠ [] →
      exec (.rankedEpochTimeout job r) s = .next (settle (rankedRecords (applyEpoch s job r) job r (sortAsc (unclosed j r))))) ∧
    (∀ dst i e, tget s.pool.combine i = some e → e.head.dst = dst → e.sent = false → e.head.op = opATOMIC →
      exec (.combinedAtomicSend dst i) s = .next (sendOwn (setCombine s i { e with sent := true }) (.combinedAtomic i) (combinedPacket e))) ∧
    (∀ h w r, underWay s h = false → sortBy (fun w => w.req.order) (s.pool.waiters.filter fun w => w.why = .line h) = w :: r →
      exec (.lineRelease h) s = .next (settle (transactionOver (rerun s w) h))) ∧
    (∀ n f, tget s.pool.fences n = some f → probeDone s f.probe = true → beadsUse s f.spans = false →
      exec (.translationFenceDone n) s = .next (settle (fenceOver { s with pool := { s.pool with fences := tdel s.pool.fences n } } f)))

/-- Rows: WINDOW_DRAINED, WINDOW_LOST_REVOKE_HOLD, DRBG_RESEED, SNOOP_TIMEOUT, RECLAIM_SCAN_END, DETACH_COMPLETE, DIRTY_MARK_SEND, WRITEBACK_THRESHOLD, BUDGET_WAIT_RELEASE, FLUSH_END, STACK_FAILURE, TRAY_REACHABLE, POOL_FATAL_REPORT. A REVOKING window with nothing in flight, not held, is REVOKED and those who waited are answered (R176), and so is one held after its hold (R183). The DRBG reseed is counted while Dvorro runs. A snoop unanswered beyond its limit starts the agent's reclamation (R207), whose scan ends it (R209). A DETACHING agent that is quiet is gone, one that is not is probed again (R208). Dirty marks of a page leave (R220). Above the dirty threshold a quarter writes lines back (R217); below its budget waiting requests run. A flush all of whose lines are clean ends and is answered (R223). A stack failure drops what lies on it (R225). A tray reachable again releases its requests (R233). A job that has lost data and has not told its pager sends POOL_FATAL (R229). -/
def Obligations.WindowAgentAndTierTimersAct : Prop :=
  ∀ (s : State) (i a : Nat),
    (mayDrain s i = true → exec (.windowDrained i) s = .next (drained s i) ∧
      ((windowAt s i).holdUntil ≠ 0 → exec (.windowLostRevokeHold i) s = .next (drained s i))) ∧
    (s.rkn.dvorro = .running → exec .drbgReseed s = .next { s with win := { s.win with reseeds := s.win.reseeds + 1 } }) ∧
    (∀ h, snoopLate s a h = true → (agentOf s a).state ≠ .reclaiming →
      exec (.snoopTimeout a h) s = .next (settle (startReclaim (setEvt s (aDIR_AGENT_STATUS a) 27) a))) ∧
    ((agentOf s a).state = .reclaiming → exec (.reclaimScanEnd a) s = .next (settle (endReclaim s a))) ∧
    ((agentOf s a).state = .detaching → agentQuiet s a = true → exec (.detachComplete a) s = .next (settle (agentGone s a))) ∧
    ((agentOf s a).state = .detaching → agentQuiet s a = false → exec (.detachComplete a) s = .next (settle (probeAgent s a))) ∧
    (∀ page ls t, tget s.pool.toMark page = some (ls, t) → exec (.dirtyMarkSend page) s = .next (trayStore
      (bump { s with pool := { s.pool with toMark := tdel s.pool.toMark page } } (cNEAR_MARKS_SENT (lineQuarter { s with pool := { s.pool with toMark := tdel s.pool.toMark page } } (page * 512))))
      (.mark page ls) (nodeOf (page * 65536)) 3 0x1000 (pageMask page ls))) ∧
    (∀ u v, dirtyAbove s i (cleanStart s) = true → i ∉ s.pool.cleaning → i ∉ s.pool.trimming → u = { s with pool := { s.pool with cleaning := s.pool.cleaning ++ [i] } } →
      v = (cleanBatch u i ((cleanStart u - 10) * budgetShare u / 100)).foldl writeBack u → exec (.writebackThreshold i) s =
        .next (if (cleanStart v - 10) * budgetShare v < 100 * (dirtyLines v i).length then v else { v with pool := { v.pool with cleaning := v.pool.cleaning.filter (· ≠ i) } })) ∧
    (dirtyAbove s i 100 = false → exec (.budgetWaitRelease i) s = .next (settle (rerunAll s (fun w => w.why = .budget i)))) ∧
    (∀ f c u, u = flushAdvance s → u.pool.flushes.find? (flushOver u) = some f → f.caller = some c →
      exec .flushEnd s = .next (settle (answerOk { u with pool := { u.pool with flushes := u.pool.flushes.erase f } } c mbFLUSH_NEAR_TIER
        (le 8 (f.count - f.lines.length))))) ∧
    (i < 8 → exec (.stackFailure i) s = .next (settle (flushAdvance (failStack s i)))) ∧
    (∀ u, u = { s with pool := { s.pool with unreachable := s.pool.unreachable.filter (· ≠ i) } } → i ∈ s.pool.unreachable → Machine.trayReachable u i = true →
      exec (.trayReachable i) s = .next (settle (flushAdvance (rerunAll u (fun w => w.why = .tray i))))) ∧
    (∀ j r, tget s.pool.jobs i = some j → j.lostAt.isSome = true → j.fatalSent = false →
      r = ({ etype := ePOOL_FATAL, sev := sevFATAL, uclass := 15, node := myNode s, time := timeNow s, seq := j.fatalSeq + 1
             arg0 := i, arg1 := flag j.lostStack } : EventRec) →
      exec (.poolFatalReport i) s = .next (raise (sendRecord (setJob s i { j with fatalSent := true, fatalSeq := j.fatalSeq + 1 })
        (.poolFatal i) j.pagerNode j.pagerCap (64 * j.faultSlots) (eventBytes r)) r))

/-- Rows: ROUND_COMPLETION_RECORD, ROUND_TIMEOUT, SIEVE_CHUNK_START, SIEVE_REQUEST_END, SLOT_LOAD_TIMEOUT, DESCRIPTOR_START, MOVER_UNIT, MOVER_STEP_BOUNDARY, DESCRIPTOR_END, BEAD_COMMIT_POINT, BEAD_COMMAND_END, MODE_CHANGE_EFFECT, BEAD_POWER_WINDOW. A reduction round whose record is due sends its completion record and marks it (R250); a round that is overdue is aborted at the root (R247). A sieve request that has not ended and is not held back runs its chunks (R283); one that has ended leaves and is answered with its result, or PROGRAM_FAULT (R288). A program slot that is LOADING is FREE 1 s after its last part (R293). An idle mover engine in service serves the channel it picks (R314); a running channel past its length ends DONE (R316); at a step boundary with nothing to stop it its step is marked (R324); a descriptor that ends has its record written (R316). A bead unit commits and the beads go on (R345); an ended command without a completion record leaves its queue (R349); a due mode change takes effect once its lines are given up (R366); a power window of a working stack counts its throttled time. -/
def Obligations.EngineTimersAct : Prop :=
  ∀ (s : State) (i : Nat),
    (∀ g, groupOf s i = some g →
      (recordDue g = true → exec (.roundCompletionRecord i) s =
        .next (sendCompletion (setGroup s i { g with cplSent := true }) g.a g.round g.abseq g.psnElems (if g.psnElems = 0 then kSUCCESS else kPOISONED_DATA) false)) ∧
      (roundOverdue s g = true → exec (.roundTimeout i) s = .next (abortRoot s i))) ∧
    (∀ src msg r, tget s.sieve.reqs (src, msg) = some r →
      (sieveEnded r = false → flowBlocked s r.req.pkt = false →
        exec (.sieveChunkStart src msg) s = .next (settle (if freeChunks r then runFree s (src, msg) r else if orderedChunks r then runOrdered s (src, msg) r else runInOrder s (src, msg) r))) ∧
      (∀ x u, sieveEnded r = true → x = cutShort r → u = forgetUnits (countWindows (countSieve { s with sieve := { s.sieve with reqs := tdel s.sieve.reqs (src, msg) } } x) x.req.pkt (· - 1)) (sieveAt x).who →
        x.sfn ≠ 3 → x.fault = none →
        exec (.sieveRequestEnd src msg) s = .next (settle (respondOk u x.req.lport x.req.pkt (sieveResult x))))) ∧
    ((progSlot s i).state = .loading → due s (progSlot s i).lastPart (ms 1000) = true → exec (.slotLoadTimeout i) s = .next (freeProg s i)) ∧
    (∀ ch u v, engineRuns s i = true → runningOn s i = none → u = takePriorities s i → pickChannel u i = some ch →
      v = { u with mover := { u.mover with served := tset u.mover.served i ch } } →
      exec (.descriptorStart i) s = .next (settle (if (chan v ch).state = .preempted then resumeDescriptor v ch else startDescriptor v ch))) ∧
    (engineRuns s (i / 4) = true → (chan s i).state = .running → (chan s i).ending = none →
      (boundaryDue (chan s i) = false → (chan s i).abort = none → dcLen (chan s i).desc ≤ (chan s i).pos →
        exec (.moverUnit i) s = .next (settle (endDescriptor s i crDONE kSUCCESS 0 false))) ∧
      (∀ u c, boundaryDue (chan s i) = true → u = takePriorities s (i / 4) → c = chan u i → c.abort = none → windowLost u c = (none, u) → level u < 3 →
        regField u aMOVER_CFG 0 1 = 0 →
        exec (.moverStepBoundary i) s = .next (settle (setChan u i { c with stepPos := c.pos, stepCount := c.count, stepFirst := c.first, stepPsn := c.psn })))) ∧
    (engineRuns s (i / 4) = true → (chan s i).state ≠ .halted → (chan s i).preempting = false →
      exec (.descriptorEnd i) s = .next (settle (writeEnding s i))) ∧
    (∀ pair, (beadCh s i).active.contains pair = true →
      exec (.beadCommitPoint i pair) s = .next (settle (startBeads (rerunAll (commitUnit s i pair) (onBank i)) i))) ∧
    (∀ b, endedCmd (beadCh s i) = some b → bhCpl b.req.pkt = 0 →
      exec (.beadCommandEnd i) s = .next (settle (rerunAll (dropCmd s i b) (onBeadQueue i)))) ∧
    (∀ b u, modeDue (beadCh s i) = some b → ((beadCh s i).mode ≠ .memory ∨ modeOf (bhNewMode b.req.pkt) = .memory) →
      u = modBead (expandChannel s i) i (fun x => { x with mode := modeOf (bhNewMode b.req.pkt) }) →
      exec (.modeChangeEffect i) s = .next (settle (rerunAll (startBeads (modCmd u i b.req.order fun y => { y with ended := true, commit := timeNow u }) i) (onBank i)))) ∧
    (∀ u, i < 8 → stackWorks s i = true → u = bumpBy (drawFree s).2 (cBEAD_THROTTLE_NS (i / 2)) ((drawFree s).1 % 10001) →
      exec (.beadPowerWindow i) s = .next (if (drawFree s).1 % 10001 = 0 then u else setEvt u aBEAD_CFG 16))

/-- Rows: ATTESTATION_SIGNED, AK_CERTIFIED, GRANT_IN_FORCE, KEY_ZEROISE, ZEROISE_TIMEOUT, TRAY_SCRUB_START, SCRUB_RETRY, TRAY_SCRUB_END. The first report of the queue is signed while Dvorro does not restart, counted, its digest remembered among the last 64, and returned with the chain (R414, R416). A key being derived is certified (R405). A new grant comes in force: the slot's jobs are its jobs and its commands complete (R420). A draining slot that still holds its key is zeroised when its in-flight count is 0, and 10 ms after the linearisation point in any case (R423). Four ms after zeroisation the scrub of the slot's tray pages starts; what did not land is written again at its time; when all has landed the slot is FREE and TENANT_REMOVED tells of it (R424). -/
def Obligations.TenantTimersAct : Prop :=
  ∀ (s : State) (i : Nat),
    (∀ c nonce r body sig u, s.ten.reports = (c, nonce) :: r → s.rkn.dvorro ≠ .restarting → body = reportBody s nonce →
      sig = padTo 49856 (Config.slhSign true s.ten.akSeeds body) →
      u = bump { s with ten := { s.ten with reports := r, reportAt := s.now, reportSeq := s.ten.reportSeq + 1, digests := (shake256 (body ++ sig) 64 :: s.ten.digests).take 64 } } cREPORTS_SIGNED →
      exec .attestationSigned s = .next (deliver u c { opcode := mbGET_ATTESTATION, cseq := c.cseq, completion := mSUCCESS, result := body ++ sig ++ reportChain u })) ∧
    (s.ten.akStart.isSome = true → exec .akCertified s = .next { s with ten := { s.ten with akReady := true, akStart := none } }) ∧
    (∀ b l, (keySlot s i).newGrant = some (b, l) → exec (.grantInForce i) s = .next (l.foldl (fun st c => answerOk st c mbSET_KEY_GRANT [])
      (settle (setKeySlot s i { keySlot s i with newGrant := none, jobs := grantJobs b, grantBody := b })))) ∧
    ((keySlot s i).state = .draining → (keySlot s i).zeroisedAt = none →
      (slotInflight s i = 0 → exec (.keyZeroise i) s = .next (zeroise s i)) ∧
      (due s (keySlot s i).drainAt (ms 10) = true → exec (.zeroiseTimeout i) s = .next (zeroise s i))) ∧
    (∃ t, zeroise s i = t ∧ (keySlot t i).keys = [] ∧ (keySlot t i).tsk = [] ∧ (keySlot t i).gkey = [] ∧ (keySlot t i).zeroisedAt = some s.now ∧
      (∀ j, j ≠ i → keySlot t j = keySlot s j) ∧ t.pool = s.pool) ∧
    (∀ t, (keySlot s i).state = .draining → (keySlot s i).scrubbing = false → (keySlot s i).zeroisedAt = some t → due s t (ms 4) = true →
      exec (.trayScrubStart i) s = .next (scrubAll s i)) ∧
    ((keySlot s i).scrubbing = true → (keySlot s i).scrub ≠ [] → (keySlot s i).retryAt ≤ s.now → exec (.scrubRetry i) s = .next (scrubAll s i)) ∧
    ((keySlot s i).scrubbing = true → (keySlot s i).scrub = [] → (∀ e ∈ s.net.own, e.2.purpose ≠ .scrub i) →
      exec (.trayScrubEnd i) s = .next (event (setEvt (setKeySlot s i { leafRefs := (keySlot s i).leafRefs }) aIDENTITY_SECURITY 24)
        eTENANT_REMOVED sevINFO 15 0 ((keySlot s i).tenant + i * 65536) (keySlot s i).scrubbed))

/-- Rows: LSR_ORIGINATE, LSR_REFRESH, LSR_AGE_OUT, MAP_RESEND, VOTE_TIMEOUT, STAGED_VERDICT_TIMEOUT, GRACE_END, HANDOFF_PROBE_TIMER, HANDOFF_SETTLE_TIMEOUT, DRAIN_FINAL_WAIT. A link-state record that is due, or 1 s old, is flooded with the next LSR_SEQ; one not refreshed for 3 s is dropped (R430). A map message that is due is sent again, or after ten sends given up with MAP_UNREACHABLE (R434). A coordinator without all votes after 1 ms aborts (R438). A staged proposal without a verdict 5 ms after its vote pulls the status of its neighbours, and is discarded when no pull is open any more or there is no switch to ask (R439). The previous epoch goes when its grace ends (R438). A taker with requests held and no last record probes its giver each 1 ms (R444), and 26 ms after the commit settles them as lost (R445). A drain's last wait of 4 ms ends with DEPARTING on every UP port and its answer (R448). -/
def Obligations.MapTimersAct : Prop :=
  ∀ (s : State) (i q key : Nat),
    (s.map.lsrDue.isSome = true → exec .lsrOriginate s = .next (floodLsr s)) ∧
    (due s s.map.lsrAt (ms 1000) = true → exec .lsrRefresh s = .next (floodLsr s)) ∧
    (∀ r, tget s.map.lsrs i = some r → due s r.keptAt (ms 3000) = true →
      exec (.lsrAgeOut i) s = .next (settle (settleTrays { s with map := { s.map with lsrs := tdel s.map.lsrs i } }))) ∧
    (∀ m, s.map.sends.find? (fun m => m.lport = q && m.key = key && due s m.lastAt (resendGap m.op)) = some m →
      (10 ≤ m.sends → exec (.mapResend q key) s = .next (settle (coordFinish (event { s with map := { s.map with sends := s.map.sends.erase m } }
        eMAP_UNREACHABLE sevDEGRADED (if q = selfPort then 15 else 2) (if q = selfPort then 0 else q)
        (if q = selfPort then m.pkt.dst else (Machine.lport { s with map := { s.map with sends := s.map.sends.erase m } } q).partnerNode) m.op)))) ∧
      (∀ u, m.sends < 10 → q ≠ selfPort → isUp s q = true →
        u = { s with map := { s.map with sends := s.map.sends.map fun x => if x = m then { x with sends := x.sends + 1, lastAt := s.now } else x } } →
        exec (.mapResend q key) s = .next (settle (sendOn u q m.pkt)))) ∧
    (∀ c, s.map.coord = some c → c.verdict = none → due s c.startedAt (ms 1) = true →
      exec .voteTimeout s = .next (settle (decide_ (drawFree s).2 (256 + (drawFree s).1 % 256) 0))) ∧
    (∀ p t, s.map.proposal = some p → p.coord ≠ myNode s → p.votedAt = some t → due s t (ms 5) = true →
      (p.pulled = true → pullsOpen s = false → exec .stagedVerdictTimeout s = .next (settle (dropProposal s))) ∧
      (p.pulled = false → switchPorts s = [] → exec .stagedVerdictTimeout s = .next (settle (dropProposal s))) ∧
      (p.pulled = false → switchPorts s ≠ [] → exec .stagedVerdictTimeout s = .next (settle (pullStatus s p)))) ∧
    (s.map.prev.isSome = true → s.map.graceEnd ≤ s.now → exec .graceEnd s = .next (settle { s with map := { s.map with prev := none } })) ∧
    (∀ h ks, tget s.map.handoffs i = some h → h.giver = false → ks = (heldFor s i).map (fun w => (w.req.pkt.src, w.req.pkt.msg)) → ks ≠ [] →
      due s h.lastProbe (ms 1) = true → exec (.handoffProbeTimer i) s = .next ((chunks 100 ks.length ks).foldl (fun st part =>
        match tget st.map.handoffs i with
        | some h =>
          let st := { st with map := { st.map with handoffs := tset st.map.handoffs i { h with hseq := h.hseq + 1 } } }
          sendRouted (bump st cHANDOFF_PROBES) h.peer opMAP_HANDOFF (handoffKey i (2 ^ 31 + h.hseq % 2 ^ 31))
            (handoffHead 2 i h.epoch part.length h.hseq false ++ part.flatMap fun k => keyRec k false)
        | none => st) { s with map := { s.map with handoffs := tset s.map.handoffs i { h with lastProbe := s.now } } })) ∧
    (∀ h u, tget s.map.handoffs i = some h → h.giver = false → due s h.commitAt (ms 26) = true → u = (heldFor s i).foldl (fun st w => stateLost st i w) s →
      exec (.handoffSettleTimeout i) s = .next (settle { u with map := { u.map with handoffs := tdel u.map.handoffs i } })) ∧
    (∀ c t, s.map.drainCaller = some c → s.map.drainReady = some t → s.map.drainStep = 3 → due s t (ms 4) = true →
      exec .drainFinalWait s = .next (answerOk
        { sendDeparting s with map := { (sendDeparting s).map with departed := true, drainCaller := none, drainStep := 4 } } c mbDRAIN_MODULE []))

/-- Rows: CANARY_MEASURE, CANARY_HOLD_EXPIRY, UNIT_FAILURE, ROD_SPARE_LOADED, SWITCH_IN_COMPLETE, ERROR_RATE_WINDOW, BANK_PAIR_COPY_END, MACRO_COPY_END, MEMORY_UNCORRECTABLE, DRILL_INJECT_END, DRILL_LANE_RESTORE, SELF_TEST_END. A canary margin of a unit in service is recorded and compared with the 15 % and 8 % thresholds; the end of the 100 ms after a trip compares the die's margins again (R46; that the raise ends then is the model's choice, log entry 31). A failed unit, or a bead, is marked and sparing asked for (R451, R456); a first residue mismatch is only counted (R268; log entry 41). A spare rod that loads goes on from the replay buffers of its ports (R454). A switch-in ends on a loaded spare: the spare serves the index and the next switch-in begins (R452). More than 10,000 corrected symbols of a bank pair, or 1,000 corrected words of a macro, in 10 s spare it (R451), whose copy then ends (R456, R457). An uncorrectable error acts by its place: a word of DRAM poisons its line and spares its pair (R470), a window in use is lost, staging is poisoned (R269). An injecting drill past its duration, a FAIL_LANE drill past its restore time, and the self-test of a displaced unit end (R471, R473). -/
def Obligations.FaultEventsAct : Prop :=
  ∀ (s : State) (i m : Nat),
    (∀ k v, i < unitTotalOf k → s.spares.retired.contains (k, i) = false → v = { s with spares := { s.spares with margin := tset s.spares.margin (k, i) m } } →
      exec (.canaryMeasure k i m) s = .next (settle (judgeMargin v k i m (tgetD s.spares.margin (k, i) 255))) ∧
      (15 ≤ m → judgeMargin v k i m (tgetD s.spares.margin (k, i) 255) = v)) ∧
    (∀ v, (dieState s i).canaryHold = true → (dieState s i).canaryUntil ≤ s.now → v = setDie s i { dieState s i with canaryHold := false, canaryRaise := 0 } →
      exec (.canaryHoldExpiry i) s = .next (settle ((v.spares.margin.filter fun e => unitDie e.1.1 e.1.2 = i).foldl (fun st e =>
        if e.1 ∈ st.spares.retired then st else judgeMargin st e.1.1 e.1.2 e.2 e.2) v))) ∧
    (∀ k cause again, i < unitTotalOf k → s.spares.retired.contains (k, i) = false → tgetD s.spares.switching (unitDie k i) [] = [] →
      (cause ≠ 2 ∨ again = true → exec (.unitFailure (.unit k i) ⟨cause, again⟩) s = .next (settle (askSwitch (markDegraded s k i cause) k i cause false))) ∧
      exec (.unitFailure (.unit k i) ⟨2, false⟩) s = .next (settle (residueSeen s k i))) ∧
    (∀ pair, i < 128 → pair < 16 → s.spares.beadsDegraded.contains (16 * i + pair) = false →
      exec (.unitFailure (.bead i pair) ⟨1, false⟩) s = .next (settle (sparePair (event
        { setEvt s aBEAD_CFG 17 with spares := { s.spares with beadsDegraded := s.spares.beadsDegraded ++ [16 * i + pair] } }
        eUNIT_DEGRADED sevDEGRADED 8 (16 * i + pair) (16 * i + pair) 1) (16 * i + pair)))) ∧
    (∀ w r, tgetD s.spares.switching (unitDie .rod i) [] = w :: r → w.kind = .rod → w.index = i → w.loaded = false →
      exec (.rodSpareLoaded i) s = .next (settle ((upPortsOf (setSwitching s (unitDie .rod i) ({ w with loaded := true } :: r)) i).foldl (fun st q =>
        (Machine.lport st q).retireLater.foldl (fun st e => retireLanes st q e.1 e.2)
          (modLport st q fun p => { p with lnak := true, ahead := [], resend := p.replay, lackAt := st.now, retireLater := [] }))
        (setSwitching s (unitDie .rod i) ({ w with loaded := true } :: r))))) ∧
    (∀ w r sp rest, tgetD s.spares.switching i [] = w :: r → (w.kind = .rod → w.loaded = true) → freeSpares s w.kind i = sp :: rest → w.drill = false →
      exec (.switchInComplete i) s = .next (settle (
        let u := { s with spares := { s.spares with
          slot := tset s.spares.slot (w.kind, w.index) sp, spare := tset s.spares.spare (w.kind, i) rest, degraded := s.spares.degraded.filter (· ≠ (w.kind, w.index)), margin := tdel s.spares.margin (w.kind, w.index), switchins := tset s.spares.switchins (w.kind, w.index) (tgetD s.spares.switchins (w.kind, w.index) 0 + 1) } }
        let v := engineReplaced (bump (setEvt u (aUnit w.kind w.index) 22) cSPARE_SWITCHINS) w.kind w.index
        beginSwitch i (r.length + 1) (setSwitching (raise v (markDrill v false { etype := eUNIT_SPARED, sev := sevCORRECTED, uclass := unitClass w.kind, unit := w.index, arg0 := unitSlot s w.kind w.index + sp * 2 ^ 32, arg1 := s.now - w.startedAt })) i r)))) ∧
    (∀ c, (10000 < c → m < 16 → injecting s (.bankPair i) = false → exec (.errorRateWindow (.bankPair i) m c) s = .next (settle (sparePair s (16 * i + m)))) ∧
      (1000 < c → injecting s (.sramMacro i) = false → exec (.errorRateWindow (.sramMacro i) m c) s = .next (settle (spareMacro s i m)))) ∧
    (∀ p t u, tget s.spares.bankCopy i = some (p, t) → u = { s with spares := { s.spares with
        bankCopy := tdel s.spares.bankCopy i, bankSpared := s.spares.bankSpared ++ [16 * i + p], beadsDegraded := s.spares.beadsDegraded.filter (· ≠ 16 * i + p) } } →
      exec (.bankPairCopyEnd i) s = .next (settle (startBeads
        (event (bump u cSPARE_SWITCHINS) eBANK_PAIR_SPARED sevCORRECTED 9 (16 * i + p) (poisonedIn u (16 * i + p)) ((s.now - t) / 1000)) i))) ∧
    (∀ t n, tgetD s.spares.macroCopy i [] = [(m, t)] → (List.range 16).find? (fun n => !thas s.spares.macroMap (i, n)) = some n →
      exec (.macroCopyEnd i m) s = .next (event (bump { s with spares := { s.spares with macroCopy := tdel s.spares.macroCopy i, macroMap := tset s.spares.macroMap (i, n) m } }
        cSPARE_SWITCHINS) eSRAM_MACRO_SPARED sevCORRECTED 10 (1024 * i + m) n ((s.now - t) / 1000))) ∧
    (∀ h, hlnOf s i = some h → exec (.memoryUncorrectable (.dramLine i)) s = .next (settle (sparePair
      (event (poisonLine s i kPOISONED_DATA) eMEMORY_UNCORRECTABLE sevDEGRADED 9 (pairOfHln h) h 0) (pairOfHln h)))) ∧
    ((windowAt s i).state ≠ .free → exec (.memoryUncorrectable (.window i)) s = .next (settle (loseWindow (noteUncorrectable s (windowQuarter i) 4) i))) ∧
    (∀ rid e, exec (.memoryUncorrectable (.staging rid i e)) s = .next (settle (loseStaging s rid i e))) ∧
    (∀ d, s.spares.drill = some d →
      (d.args.dkind = 3 → due s d.startedAt (ms d.args.p1) = true → exec .drillInjectEnd s = .next (endInject s d)) ∧
      (d.args.dkind = 2 → due s d.startedAt (ms d.args.p0) = true → exec .drillLaneRestore s = .next (drillRetrain s d)) ∧
      (∀ k, d.testing = true → drillTarget d.args = some (k, i) → exec (.selfTestEnd k i true) s = .next (endDrill
        { s with spares := { s.spares with spare := tset s.spares.spare (k, unitDie k i) (insertAsc d.oldSlot (freeSpares s k (unitDie k i))) } } d d.effect)))

/-- Rows: CORE_FAILURE, UCIE_LINK_LOSS, UCIE_RETRAIN_TIMEOUT, UCIE_RETURN, WATCHDOG_RESTART, FIRMWARE_FALLBACK, DVORRO_RESTART_END, ACTIVATION_WINDOW_END, FLASH_WRITE_START, FLASH_WRITE_END, MAILBOX_SLOT, MGMT_DATAGRAM, RESPONSE_RESEND, SESSION_IDLE_TIMEOUT, MCTP_MESSAGE, PLDM_REQUEST, ENTDAA. A core's failure from phase IMAGE on is recorded, and at six or more cores left Dvorro restarts (R26). A UCIe link that is lost is marked, fails 10 ms later with UCIE_DOWN, and its return is told (R481). A watchdog stop restarts Dvorro, or falls back from a new image (R460, R511); the end of the restart sends what waited (R512). The activation window ends after 100 ms with the staged image running (R510); its write to flash begins 10 s later (R511) and ends with the stored image replaced (R511, R513). A slot that arrives at a mailbox that takes slots acts by its CSEQ, a host's from its ring (R488, R493); a datagram is counted and its slots taken (R496); unacknowledged response slots are sent again with the wait doubled up to 1 s (R501); a session idle for 60 s closes (R500). MCTP messages of the vendor carry slots of the baseboard mailbox (R502); a PLDM sensor reading answers its value (R503); ENTDAA answers the provisioned ID and sets the address (R502, R557). -/
def Obligations.ReckonerEventsAct : Prop :=
  ∀ (s : State) (i : Nat),
    (∀ u v, i < 8 → s.rkn.coresLost.contains i = false → 3 ≤ s.supply.phase → u = { s with rkn := { s.rkn with coresLost := s.rkn.coresLost ++ [i] } } →
      v = event u eCORE_FAILED (if coresLeft u ≤ 5 then sevFAILED else sevCORRECTED) 13 i i (coresLeft u) →
      exec (.coreFailure i) s = .next (if 6 ≤ coresLeft v ∧ v.rkn.dvorro = .running then { v with rkn := { v.rkn with dvorro := .restarting } } else v)) ∧
    (i < 4 → 2 ≤ s.supply.phase → (tgetD s.rkn.ucie i {}).lostAt = none →
      exec (.ucieLinkLoss i) s = .next (modUcie s i fun u => { u with lostAt := some s.now })) ∧
    (∀ t, (tgetD s.rkn.ucie i {}).lostAt = some t →
      ((tgetD s.rkn.ucie i {}).failed = false → due s t (ms 10) = true → exec (.ucieRetrainTimeout i) s =
        .next (event (modUcie s i fun u => { u with failed := true }) eUCIE_DOWN sevDEGRADED 14 i i 0)) ∧
      ((tgetD s.rkn.ucie i {}).failed = true → s.rkn.dvorro = .running → exec (.ucieReturn i) s =
        .next (event (drainEvents (sendCarried (modUcie s i fun u => { u with lostAt := none, failed := false }))) eUCIE_UP sevINFO 14 i i 0))) ∧
    (s.rkn.dvorro = .running → (imageNew s = false → exec .watchdogRestart s = .next { s with rkn := { s.rkn with dvorro := .restarting } }) ∧
      (imageNew s = true → exec .watchdogRestart s = .next (settle (fallBack s)))) ∧
    (imageNew s = true → exec .firmwareFallback s = .next (settle (fallBack s))) ∧
    (∀ v, s.rkn.dvorro = .restarting → v = drainEvents (sendCarried (setEvt (modRkn (abortUnbegun s) fun x => { x with dvorro := .running }) aRECKONER_STATUS 16)) →
      exec .dvorroRestartEnd s = .next (match v.spares.drill with
        | some d => if d.args.dkind = 5 then endDrill v d (v.now - d.startedAt) else v
        | none => v)) ∧
    (∀ c t, s.rkn.activation = some (c, t) →
      (s.rkn.dvorro = .activating → due s t (ms 100) = true → exec .activationWindowEnd s = .next (settle (startImage s c))) ∧
      (s.rkn.flashWrite = true → exec .flashWriteEnd s = .next (modRkn (answerOk (modRkn s fun x => { x with flash := x.staged, flashWrite := false, activation := none })
        c mbACTIVATE_FIRMWARE []) fun x => { x with dvorro := .rom }))) ∧
    (∀ t, s.rkn.activatedAt = some t → due s t (ms 10000) = true → s.rkn.dvorro = .running →
      exec .flashWriteStart s = .next { s with rkn := { s.rkn with flashWrite := true } }) ∧
    (∀ m sl, takesSlots s m = true →
      (m = .baseboard → exec (.mailboxSlot m sl) s = .next (sequenceSlot s m sl)) ∧
      (m = .fm i → thas s.rkn.sessions i = true → exec (.mailboxSlot m sl) s = .next (sequenceSlot s m sl)) ∧
      (m = .clear i → exec (.mailboxSlot m sl) s = .next (clearSlot s m sl)) ∧
      (m = .host i → (mboxOf s m).bound.isSome = true → (mboxOf s m).cmdHead ≠ (mboxOf s m).cmdTail → slotOf (tgetD (mboxOf s m).slots ((mboxOf s m).cmdHead % 64) []) = sl →
        exec (.mailboxSlot m sl) s = .next (sequenceSlot (setMbox s m { mboxOf s m with cmdHead := ((mboxOf s m).cmdHead + 1) % 65536 }) m sl))) ∧
    (∀ d, takesSlots s (.clear 0) = true → d.port < 2 → d.rsv = 0 → d.slots.length ≤ 5 →
      (d.dkind = 1 → exec (.mgmtDatagram d) s = .next (takeSealed (bump s cDGRAM_RX) d)) ∧
      (d.dkind = 0 → d.sessionId = 0 → d.dseq = 0 → exec (.mgmtDatagram d) s =
        .next (d.slots.foldl (fun st sl => arriveSlot st (.clear d.port) { sl with src := d.src }) (bump s cDGRAM_RX)))) ∧
    (∀ e w, tget s.rkn.sessions i = some e → e.unacked ≠ [] → e.resendAt ≤ s.now → w = min (ms 1000) (2 * e.resendWait) →
      exec (.responseResend i) s = .next (sendFrom (putSession s i { e with resendWait := w, resendAt := s.now + w }) i e.rack (e.unacked.take 64))) ∧
    (∀ e, tget s.rkn.sessions i = some e → due s e.lastValid (ms 60000) = true → exec (.sessionIdleTimeout i) s = .next (closeOne s i)) ∧
    (∀ ep sl, takesSlots s .baseboard = true → exec (.mctpMessage Config.vendor ep sl) s = .next (sequenceSlot s .baseboard { sl with src := ep })) ∧
    (∀ d, takesSlots s .baseboard = true → i < 17 → pldmSensor s i = some d → exec (.pldmRequest 2 0x11 i) s =
      .next { s with rkn := { s.rkn with mgmt := s.rkn.mgmt ++ [.pldm 2 0x11 0 d] } }) ∧
    (2 ≤ s.supply.phase → exec (.entdaa i) s = .next { s with rkn := { s.rkn with i3cAddr := i, mgmt := s.rkn.mgmt ++ [.entdaa provisionedId i] } })

/-- Rows: GOVERNOR_EVALUATION, SETPOINT_STEP, ADMISSION_RAISE_RELEASE, SUPPLY_SAMPLE, SHED_LEVEL_ENTER, SHED_LEVEL_LEAVE, HOLDUP_TIMER_EXPIRY, LOG_SAVE_END, L4_RECOVERY, INPUT_OVERVOLTAGE, RESET_ASSERT, RESET_RELEASE, SENSE_LOSS, INSERTION, REGULATOR_PHASE_LOST, THERMAL_SAMPLE, THERMAL_ACTION_RELEASE, THERMAL_TRIP, SENSOR_STALE. The governor evaluates a die each 1 ms and steps its setpoint by at most 10 mV each 20 us, and raises the admitted rates a setpoint carries (R44). A supply sample takes the LIVE values in force and sets the input registers (R50, R544). The bus below a level's threshold for 200 us enters the next level (R519), above it for 200 us leaves it (R526); 1.6 ms of L3 lead to L4 (R523), whose save completes (R524); 10 ms at 46.8 V after L4 start bring-up (R524). An input above 60 V opens the switch and the module is off (R515). RESET_N low enters the levels up to L3 (R534), its release in OFF starts bring-up (R534); a sense break acts as L3 with its event bit (R536); insertion closes the input switch (R535). A lost phase of a rail in service is recorded, and a second one acts (R458). A thermal sample of a calibrated sensor is kept (R544); an action ends 100 ms after 5 C below its limit (R560); 120 C trips (R561); a sensor silent for 10 ms is STALE (R544). -/
def Obligations.PowerAndThermalEventsAct : Prop :=
  ∀ (s : State) (i : Nat),
    (governorAway s = false →
      (∀ u w, due s (dieState s i).lastEval (ms 1) = true → u = { s with admitted := (diePorts i).foldl (fun t n => tset t n (admittedRate s n)) s.admitted } →
        w = max (max (wantedFloor u i) (regField u (aSUPPLY_CORE i) 10 10)) (dieState s i).canaryRaise →
        exec (.governorEvaluation i) s = .next (setDie u i { dieState s i with
          lastEval := s.now, target := ceilDiv (if (dieState s i).canaryHold then max w (dieState s i).target else w) 10 * 10 })) ∧
      (∀ v, due s (dieState s i).lastStep (us 20) = true → (dieState s i).voltSet ≠ (dieState s i).target →
        v = (if (dieState s i).voltSet < (dieState s i).target then min (dieState s i).target ((dieState s i).voltSet + 10) else max (dieState s i).target ((dieState s i).voltSet - 10)) →
        floorFor (dieRate s i) ≤ v → exec (.setpointStep i) s = .next (setDie s i { dieState s i with voltSet := v, lastStep := s.now }))) ∧
    exec (.admissionRaiseRelease i) s = .next { s with admitted := (diePorts i).foldl (fun t n =>
      if floorFor (wantedRate s n) ≤ (dieState s i).voltSet then tset t n (wantedRate s n) else t) s.admitted } ∧
    (∀ m, ∃ t, exec (.supplySample m) s = .next t ∧ t.supply.vin = m.vin ∧ t.supply.iin = m.iin ∧ t.supply.vstore = m.vstore ∧ t.supply.level = s.supply.level ∧
      t.supply.phase = s.supply.phase ∧ t.pool = s.pool ∧ t.net = s.net) ∧
    (1 ≤ s.supply.phase → hasHeld s s.supply.belowSince i (us 200) = true → 1 ≤ i → i ≤ 4 → s.supply.level + 1 = i →
      exec (.shedLevelEnter i) s = .next (settle (enterLevel s i))) ∧
    (1 ≤ i → i ≤ 3 → s.supply.level = i → hasHeld s s.supply.aboveSince i (us 200) = true → cutActing s = false →
      exec (.shedLevelLeave i) s = .next (settle (leaveLevel s i))) ∧
    (∀ t, s.supply.holdupTimer = some t → due s t (us 1600) = true → s.supply.level = 3 → exec .holdupTimerExpiry s = .next (enterLevel s 4)) ∧
    (s.supply.saving = true → s.supply.resetPulse = false → s.supply.tripped = false → exec .logSaveEnd s =
      .next { s with supply := { s.supply with saving := false, saved := s.supply.saved.map fun l => { l with complete := true } } }) ∧
    (∀ t, s.supply.highSince = some t → s.supply.level = 4 → due s t (ms 10) = true → cutActing s = false → exec .l4Recovery s = .next (startBringup (powerOff s))) ∧
    (60000 < i → exec (.inputOvervoltage i) s = .next (powerOff { s with supply := { s.supply with switchClosed := false, resetPulse := false } })) ∧
    (1 ≤ s.supply.phase → exec .resetAssert s = .next (settle (enterToL3 { s with supply := { s.supply with resetLow := true, resetPulse := true } }))) ∧
    (s.supply.resetLow = true → s.supply.phase = 0 → s.supply.switchClosed = true → s.supply.senseBroken = false → 46000 ≤ s.supply.vin →
      exec .resetRelease s = .next (startBringup { s with supply := { s.supply with resetLow := false, tripped := false, resetPulse := true } })) ∧
    (1 ≤ s.supply.phase → exec .senseLoss s = .next (settle (enterToL3 (setEvt { s with supply := { s.supply with senseBroken := true } } aSUPPLY_SHED 16)))) ∧
    (∀ k, s.supply.phase = 0 → k.main = true → k.senseVin = true → k.senseRtn = true →
      exec (.insertion k) s = .next { s with supply := { s.supply with senseBroken := false, switchClosed := true, highSince := none } }) ∧
    (∀ p u, i < 9 → p < Config.railPhases i → (railState s i).lost.contains p = false → (railState s i).on = true →
      u = event (setEvt { s with supply := { s.supply with rails := tset s.supply.rails i { railState s i with lost := (railState s i).lost ++ [p] } } } (aSUPPLY_RAIL i) 25)
        eREGULATOR_PHASE_LOST (if (railState s i).lost.length + 1 < 2 then sevCORRECTED else sevFAILED) 12 i i (Config.railPhases i - ((railState s i).lost.length + 1)) →
      exec (.regulatorPhaseLost i p) s = .next (settle (if forcedShed u then enterActions (level s) 3 u else u))) ∧
    (∀ t, sensorReady s i = true → (sensorAfter s i t).overWarn = (tgetD s.supply.sensors i {}).overWarn → (sensorAfter s i t).action = (tgetD s.supply.sensors i {}).action →
      exec (.thermalSample [(i, t)]) s = .next (settle { s with supply := { s.supply with sensors := tset s.supply.sensors i (sensorAfter s i t) } })) ∧
    (∀ t, (tgetD s.supply.sensors i {}).coolSince = some t → (tgetD s.supply.sensors i {}).action = true → due s t (ms 100) = true → 8 ≤ i →
      exec (.thermalActionRelease i) s = .next (settle { s with supply := { s.supply with sensors := tset s.supply.sensors i { tgetD s.supply.sensors i {} with action := false } } })) ∧
    (i ≤ 12 → (tgetD s.supply.sensors i {}).valid = true → s.supply.tripped = false → 1200 ≤ (tgetD s.supply.sensors i {}).temp →
      exec (.thermalTrip i) s = .next (settle (enterToL3 (thermalRecord { s with supply := { s.supply with tripped := true } } i sevFAILED (tgetD s.supply.sensors i {}).temp)))) ∧
    ((tgetD s.supply.sensors i {}).valid = true → due s (tgetD s.supply.sensors i {}).at_ (ms 10) = true →
      exec (.sensorStale i) s = .next { s with supply := { s.supply with sensors := tset s.supply.sensors i { tgetD s.supply.sensors i {} with stale := true } } })

/-- Rows: BRINGUP_START, RAILS_DONE, PORT_PLAN_RESTORE, ROM_DONE, IMAGE_VERIFIED, MEMORY_DONE, LINKS_PHASE_START, LINKS_DONE, MAP_PHASE_START, MAP_PHASE_TIMEOUT, HOLDUP_CHARGED, MODULE_READY, PORT_PLAN_SAVE. The bus at or above 46.0 V for 200 us, with nothing holding the module off, starts bring-up (R527): phase RAILS; the last rail in regulation leads to ROM with PWR_GOOD (R516); the port plan is restored once (R528); phase ROM ends with BOOT_ID drawn (R416); a stored image that verifies leads to MEMORY (R527), one that does not to identity-and-fetch mode; phase MEMORY ends in LINKS or MAP (R527); phase LINKS starts 120 ms after time 0 once the plan is settled (R57, R527), and ends when every enabled port has its verdict; phase MAP pulls a snapshot, or with no SWITCH port UP ends unjoined (R529), as it does 500 ms later with no snapshot (R529). The charged hold-up store is noted (R517). The module is READY after phase MAP with the store charged, Dvorro running and no switch-in under way, and BOOT is raised (R530). A port plan changed 10 s ago is saved (R528). -/
def Obligations.BringUpPhasesAct : Prop :=
  ∀ (s : State),
    (∀ t, s.supply.highSince = some t → mayStart s = true → due s t (us 200) = true →
      exec .bringupStart s = .next (startBringup s) ∧ ∃ u, startBringup s = u ∧ u.supply.phase = 1 ∧ u.supply.time0 = s.now ∧ u.supply.highSince = none) ∧
    (s.supply.phase = 1 → ∃ t, exec .railsDone s = .next t ∧ t.supply.phase = 2 ∧ t.supply.pwrGood = true ∧ t.pool = s.pool ∧ t.regs = s.regs) ∧
    (s.supply.phase = 2 → s.supply.planSettled = false → ∃ t, exec .portPlanRestore s = .next t ∧ t.supply.planSettled = true ∧
      t = { (s.supply.plan.getD []).foldl (fun st (e : Nat × Word) => setRegWord st e.1 e.2) s with supply := t.supply }) ∧
    (s.supply.phase = 2 → s.supply.planSettled = true → ∃ t, exec .romDone s = .next t ∧ t.supply.phase = 3 ∧ t.ten.bootId = le 16 (drawFree s).1 ∧ t.pool = s.pool) ∧
    (s.supply.phase = 3 → s.rkn.dvorro = .rom →
      (imageError s.rkn.flash.bytes = 0 → exec .imageVerified s = .next (tellFlush (drainEvents
        { s with rkn := { s.rkn with dvorro := .running, running := imageOf s.rkn.flash.bytes }, supply := { s.supply with imageDone := true, phase := 4 } }))) ∧
      (imageError s.rkn.flash.bytes ≠ 0 → exec .imageVerified s = .next { s with rkn := { s.rkn with dvorro := .fetch } })) ∧
    (∀ l, s.supply.phase = 4 → exec (.memoryDone l) s = .next (settle (l.foldl (fun st (e : UnitKind × Nat) => failUnit st e.1 e.2 4)
      { s with supply := { s.supply with memoryDone := true, phase := if s.supply.linksDone then 6 else 5 } }))) ∧
    (1 ≤ s.supply.phase → s.supply.planSettled = true → due s s.supply.time0 (ms 120) = true → s.links.open_ = false →
      exec .linksPhaseStart s = .next ((List.range 64).foldl enablePorts { s with links := { s.links with open_ := true } })) ∧
    (s.links.open_ = true → (lports s).all (portSettled s) = true → exec .linksDone s =
      .next { s with supply := { s.supply with linksDone := true, phase := if s.supply.phase = 5 then 6 else s.supply.phase } }) ∧
    (s.supply.phase = 6 → s.supply.mapSince = none → switchPorts { s with supply := { s.supply with mapSince := some s.now } } = [] →
      exec .mapPhaseStart s = .next { s with supply := { s.supply with mapSince := some s.now, unjoined := true, phase := 7 } }) ∧
    (s.supply.phase = 6 → s.supply.mapSince = none → switchPorts { s with supply := { s.supply with mapSince := some s.now } } ≠ [] →
      exec .mapPhaseStart s = .next (pullSnapshot { s with supply := { s.supply with mapSince := some s.now } })) ∧
    (∀ t, s.supply.mapSince = some t → s.supply.phase = 6 → due s t (ms 500) = true → s.map.comp.nodes = [] →
      exec .mapPhaseTimeout s = .next { s with supply := { s.supply with unjoined := true, phase := 7 } }) ∧
    (∀ c, 2 ≤ s.supply.phase → s.supply.holdupReady = false → 1000 ≤ c →
      exec (.holdupCharged c) s = .next { s with supply := { s.supply with holdupReady := true, capUf := min 65535 c } }) ∧
    (s.supply.phase = 7 → s.supply.ready = false → s.supply.holdupReady = true → s.rkn.dvorro = .running → s.spares.switching = [] →
      exec .moduleReady s = .next (startAttestKey (event
        { s with supply := { s.supply with ready := true, readyMs := (s.now - s.supply.time0) / ms 1 % 2 ^ 32 } }
        eBOOT sevINFO 0 0 ((s.now - s.supply.time0) / ms 1) s.rkn.running.version))) ∧
    (∀ t, s.supply.planDue = some t → due s t (ms 10000) = true → s.rkn.dvorro = .running → exec .portPlanSave s =
      .next { s with supply := { s.supply with plan := some (planRegs.map fun a => (a, regWord s a)), planDue := none } })

/-- For every command c and every state s whose queue has c at its front: step s is exec c on s with the rest of the queue, so that it answers a next state exactly when exec does and with the same fault or refusal otherwise. The queue is the model's own interface, first in, first out. -/
def Obligations.StepRunsTheFrontCommand : Prop :=
  ∀ (s : State) (c : Instr) (r : List Instr), s.pending = c :: r → step s = exec c (withPending s r)

/-- The model's choice (log entry 2): a step on an empty queue answers the state one ns later. The time counter of a powered module counts with it, by 1 while it is not slewed and by 0, 1 or 2 otherwise, never backwards; without supply it stands. Nothing but the two clocks moves. -/
def Obligations.EmptyQueueLetsTimePass : Prop :=
  ∀ s : State, s.pending = [] →
    step s = .next { s with now := s.now + 1, clock := (tick s).clock } ∧ (s.supply.phase = 0 → (tick s).clock = s.clock) ∧
      (s.supply.phase ≠ 0 → s.clock.slew = 0 → (tick s).clock = { s.clock with counter := s.clock.counter + 1 }) ∧
      s.clock.counter ≤ (tick s).clock.counter ∧ (tick s).clock.counter ≤ s.clock.counter + 2 ∧
      (tick s).clock.locked = s.clock.locked ∧ (tick s).clock.offset = s.clock.offset ∧
      ((tick s).clock.slew ≠ s.clock.slew → (tick s).clock.slew.natAbs + 1 = s.clock.slew.natAbs)

/-- Right after reset the module is in phase OFF and not READY, its rails are off, the time counter stands at 0 and is not locked, every counter is 0, every register word has its reset value, no logical port is in use, every window is free, no agent is attached, no bead channel has an owner, no job and no reduction group is open, and the baseboard mailbox and every other one expects CSEQ 1. Pool memory is in canonical form and lists nothing; that a byte nothing has written reads 0 is the model's choice (log entry 5). The queue of commands is empty. -/
def Obligations.ResetLeaves : Prop :=
  State.reset.supply.phase = 0 ∧ State.reset.supply.ready = false ∧ State.reset.supply.rails = [] ∧ State.reset.clock.counter = 0 ∧ State.reset.clock.locked = false ∧
  (∀ c, ctr State.reset c = 0) ∧ (∀ a, regWord State.reset a = resetWord a) ∧ (∀ q, (lport State.reset q).state = .disabled) ∧
  (∀ i, (windowAt State.reset i).state = .free) ∧ (∀ a, (agentOf State.reset a).state ≠ .attached) ∧ (∀ c, (beadCh State.reset c).owner = none) ∧
  State.reset.pool.jobs = [] ∧ State.reset.carry.groups = [] ∧ (∀ m, (mboxOf State.reset m).nextCseq = 1) ∧
  MemoryGood State.reset ∧ (∀ a, memRead State.reset.pool.mem a = 0) ∧ State.reset.pending = []

/-- For every packet whose fields fit Table 4-1, with the extension that FLAGS.EXT announces and at most 4,096 payload bytes: its bytes on the wire are 52 and those of its extension and payload; they are read back as exactly that packet, every field, reserved bit and byte of extension, payload and trailer; and the length that its first 48 bytes announce is its length on the wire. -/
def Obligations.PacketsDecodeAsEncoded : Prop :=
  ∀ p : Packet, packetOk p = true →
    parsePacket (packetBytes p) = p ∧ (packetBytes p).length = packetSize p ∧ announcedSize ((packetBytes p).take 48) = packetSize p

/-- For every 128 bytes of a line: the body in the mode and delta width that the module gives it (R227) has the length R226 gives for them, and decoding it gives the 128 bytes back. A line of zeros has no body; a line that is neither of zeros nor within a delta of its first word is held as it is. -/
def Obligations.LinesDecodeAsEncoded : Prop :=
  ∀ d : List Byte, d.length = 128 →
    (encodeLine d).length = lineBody (encodeMode d).1 (deltaBytes (encodeMode d).2) ∧
    decodeLine (encodeMode d).1 (deltaBytes (encodeMode d).2) (encodeLine d) = d

/-- For every block of 4,096 bytes: the image that the module encodes (header with LMODE, DWIDTH, CLEN and PCRC, then the 32 bodies, the tail of its last sector zero) is a valid image, and decoding it gives the block back, byte for byte. -/
def Obligations.ImagesDecodeAsEncoded : Prop :=
  ∀ d : List Byte, d.length = 4096 → decodeImage (encodeImage d) = some d

/-- The terms of an element of a class-L reduction give the same record in every order in which they arrive (R255). However they are split over child switches, and in whatever order, merging the children's records at the parent gives the record of all terms together (R262), so that the rounded result is the same (R257). A child that received nothing changes nothing. -/
def Obligations.ReductionTreesGiveOneResult : Prop :=
  (∀ ts us : List Term, ts.Perm us → ts.foldl accumulate {} = us.foldl accumulate {}) ∧
  (∀ (cop fmt : Nat) (parts : List (List Term)) (all : List Term), carryClass cop fmt = .l → parts.flatten.Perm all →
    (parts.map fun ts => ts.foldl accumulate {}).foldl (mergeElem cop fmt) {} = all.foldl accumulate {}) ∧
  (∀ (cop fmt rfmt : Nat) (rz sat : Bool) (parts : List (List Term)) (all : List Term), carryClass cop fmt = .l → parts.flatten.Perm all →
    resultElem cop fmt rfmt rz sat ((parts.map fun ts => ts.foldl accumulate {}).foldl (mergeElem cop fmt) {}) =
      resultElem cop fmt rfmt rz sat (all.foldl accumulate {}))

/-- For every element of a class-L slice whose accumulator fits its 640 bits, and for every element of a class-V or class-A slice whose value fits 64 and whose rank fits 16 bits: the canonical record that a child switch sends for it (Table 9-9) is read at the parent as that element, whatever bytes follow, and exactly those bytes remain to be read. -/
def Obligations.PartialRecordsReadBack : Prop :=
  (∀ (r : Elem) (tail : List Byte), r.val = 0 → r.rank = 0 → -(2 ^ 639 : Int) ≤ r.acc → r.acc < (2 ^ 639 : Int) →
    readRecord .l (elemRecord .l r ++ tail) = some (r, tail)) ∧
  (∀ (r : Elem) (tail : List Byte), r.val < 2 ^ 64 →
    readRecord .v (elemRecord .v r ++ tail) = some ({ val := r.val, nan := r.nan, psn := r.psn, empty := r.empty, allnz := false }, tail)) ∧
  (∀ (r : Elem) (tail : List Byte), r.val < 2 ^ 64 → r.rank < 2 ^ 16 →
    readRecord .a (elemRecord .a r ++ tail) = some ({ val := r.val, rank := r.rank, nan := r.nan, psn := r.psn, empty := r.empty, allnz := false }, tail))

/-- For every mailbox command but a gate commit behind another: before phase IMAGE, while its way to the Reckoner is cut off (R25, R541), or while the checks let it wait (five cores, a hot Reckoner, sixteen commands started), it changes nothing. Before READY any command but GET_IDENTITY and GET_STATUS is answered NOT_READY with the bring-up phase (R491), on a READY module one whose class Table 17-5 does not allow PRIVILEGE_DENIED (R482), one of a host that names a job outside its port's job set JOB_NOT_PERMITTED with the first such job (R484), and one on a clear mailbox other than GET_IDENTITY, GET_STATUS and OPEN_SESSION SESSION_INVALID (R496). A command so answered changes the answering block and the counters only: memory, ports, packets, windows, jobs, registers and keys stay as they are. -/
def Obligations.TurnedAwayCommandsOnlyAnswer : Prop :=
  ∀ (s : State) (i : Instr) (c : Caller) (op : Nat) (jobs : List Nat), mailboxCommand i = some (c, op, jobs) → s.queues.gateCommit = none →
    (s.supply.phase < 3 ∨ cutOff s c op = true → exec i s = .next s) ∧ (gate s c op jobs = .wait → exec i s = .next s) ∧
    (∀ k d, gate s c op jobs = .deny k d → ∃ t, exec i s = .next t ∧ t = answer (startCmd s c) c op k d [] ∧ t = { s with rkn := t.rkn, ctrs := t.ctrs }) ∧
    (3 ≤ s.supply.phase → cutOff s c op = false → s.rkn.dvorro ≠ .fetch →
      (isReady s = false → op ≠ mbGET_IDENTITY → op ≠ mbGET_STATUS → gate s c op jobs = .deny mNOT_READY s.supply.phase) ∧
      (isReady s = true → isClear c.mbox = true → op ≠ mbGET_IDENTITY → op ≠ mbGET_STATUS → op ≠ mbOPEN_SESSION → gate s c op jobs = .deny mSESSION_INVALID 0) ∧
      (isReady s = true → isClear c.mbox = false → 6 ≤ coresLeft s → reckonerHot s = false →
        (callerClass c ∉ classesOf op → gate s c op jobs = .deny mPRIVILEGE_DENIED 0) ∧
        (callerClass c ∈ classesOf op →
          (∀ j, jobs.find? (fun j => !ownJob s c j) = some j → gate s c op jobs = .deny mJOB_NOT_PERMITTED j) ∧
          ((∀ j ∈ jobs, ownJob s c j = true) → (mboxOf s c.mbox).started.length < 16 → gate s c op jobs = .go))))

/-- Rows: FLIT_TRANSMIT, FLIT_RECEIVE. The receiver counts the credits it returns of a class modulo 4,096. Every flit that an active lane of an UP port sends, an IDLE flit too, while no LIVE value of the port's registers waits for its packet boundary, reports two classes with their counts, and two flits that follow each other on a lane report all four. The sender takes a count that is newer by 1 to 2,047 (modulo 4,096), whose difference it adds to its credits of that class and of no other, and ignores every other count. Of two counts of a class the first may therefore be lost: with the second alone it comes to the same credits. -/
def Obligations.CreditsAreReturnedAsCounts : Prop :=
  (∀ (s : State) (l q : Nat), q = lportOfLane s l → isUp s q = true → (Machine.lane s l).active = true →
    (Machine.lport s q).oldCfg = none → (Machine.lport s q).oldRate = none → ∃ t f, exec (.flitTransmit l) s = .next t ∧ tget t.links.lastTx l = some f ∧
      f.ccumA = (Machine.lport s q).ccumOut.getD f.cselA 0 ∧ f.ccumB = (Machine.lport s q).ccumOut.getD f.cselB 0 ∧
      ∀ u, tget u.links.lastTx l = some f → isUp u (lportOfLane u l) = true → (Machine.lane u l).active = true →
        (Machine.lport u (lportOfLane u l)).oldCfg = none → (Machine.lport u (lportOfLane u l)).oldRate = none → ∃ v g, exec (.flitTransmit l) u = .next v ∧ tget v.links.lastTx l = some g ∧ ∀ k < 4, k ∈ [f.cselA, f.cselB, g.cselA, g.cselB]) ∧
  (∀ (s : State) (q tc n : Nat), creditClass tc < (Machine.lport s q).ccumOut.length →
    (Machine.lport (returnCredits s q tc n) q).ccumOut.getD (creditClass tc) 0 = ((Machine.lport s q).ccumOut.getD (creditClass tc) 0 + n) % 4096 ∧
    ∀ k, k ≠ creditClass tc → (Machine.lport (returnCredits s q tc n) q).ccumOut.getD k 0 = (Machine.lport s q).ccumOut.getD k 0) ∧
  (∀ (s : State) (l q : Nat) (f : Flit) (drained : Nat) (u : State), q = lportOfLane s l → u = passFlit s l false → isUp u q = true → (Machine.lane u l).active = true →
    rodPaused u q = false → f.damaged = false → flitBad f = false → f.fkind = 0 → f.lnak = false →
    exec (.flitReceive l f drained) s =
      .next (settle (modLport u q fun p => takeLack (takeCredit (takeCredit p f.cselA f.ccumA) f.cselB f.ccumB) u.now f.lack))) ∧
  (∀ (p : LPort) (k new d : Nat), k < p.credits.length → k < p.ccumIn.length → p.ccumIn.getD k 0 < 4096 → new < 4096 →
    d = (new + 4096 - p.ccumIn.getD k 0) % 4096 →
    (1 ≤ d → d ≤ 2047 → (takeCredit p k new).credits.getD k 0 = p.credits.getD k 0 + d ∧ (takeCredit p k new).ccumIn.getD k 0 = new ∧
      (∀ j, j ≠ k → (takeCredit p k new).credits.getD j 0 = p.credits.getD j 0) ∧
      (∀ lost e, lost < 4096 → e = (lost + 4096 - p.ccumIn.getD k 0) % 4096 → e ≤ d → takeCredit (takeCredit p k lost) k new = takeCredit p k new)) ∧
    (d = 0 ∨ 2048 ≤ d → takeCredit p k new = p))

/-- Rows: HOLDUP_TIMER_EXPIRY. A record that is raised less than EVENT_CFG.GAP after the last one of its type and unit was written is not written: it is counted, and nothing else changes. Any other record is logged under the next EV_SEQ with EV_REPEAT the count of those not written since (at most 255), and the interval starts again. Records of STACK_LOST, POOL_FATAL, RANKED_TIMEOUT, DRILL_START and DRILL_END are logged always. Where Dvorro runs and a UCIe module works, the record stands at the end of the log at once. On entering shed level L4 the newest 8,192 records of the log, and the drill log, are what is saved to flash. -/
def Obligations.EventRecordsKeepTheirGap : Prop :=
  (∀ (s : State) (r : EventRec) (t n : Nat), tget s.events.last (r.etype, r.uclass, r.unit) = some (t, n) →
    r.etype ∉ [eSTACK_LOST, ePOOL_FATAL, eRANKED_TIMEOUT, eDRILL_START, eDRILL_END] → s.now < t + gapNs s →
    raise s r = { s with events := { s.events with last := tset s.events.last (r.etype, r.uclass, r.unit) (t, n + 1) } }) ∧
  (∀ (s : State) (r : EventRec) (n : Nat),
    (tget s.events.last (r.etype, r.uclass, r.unit) = none ∧ n = r.rep ∨
      ∃ t m, tget s.events.last (r.etype, r.uclass, r.unit) = some (t, m) ∧ n = min 255 m ∧
        (r.etype ∈ [eSTACK_LOST, ePOOL_FATAL, eRANKED_TIMEOUT, eDRILL_START, eDRILL_END] ∨ t + gapNs s ≤ s.now)) →
    (raise s r).events.seq = (s.events.seq + 1) % 2 ^ 32 ∧ tget (raise s r).events.last (r.etype, r.uclass, r.unit) = some (s.now, 0) ∧
    (s.rkn.dvorro = .running → anyUcie s = true →
      (raise s r).events.ring.getLast? = some { r with rep := n, seq := (s.events.seq + 1) % 2 ^ 32, time := timeNow s, node := s.map.node })) ∧
  (∀ (s : State) (t : Nat), s.supply.holdupTimer = some t → due s t (us 1600) = true → s.supply.level = 3 →
    ∃ u w, exec .holdupTimerExpiry s = .next u ∧ u.supply.saved = some w ∧ w.events = u.events.ring.drop (u.events.ring.length - 8192) ∧ w.drills = u.spares.log)

/-- Rows: MAILBOX_SLOT. A slot that arrives, where the mailbox takes slots, in the baseboard mailbox or in an open session's, and the slot at CMD_HEAD of a bound host mailbox, meet NEXT_CSEQ. With d the distance of the slot's CSEQ from NEXT_CSEQ modulo 2^32, the mailbox takes the slot when d is 0, advances NEXT_CSEQ by one, and then takes in turn the held slots that follow; holds it for d from 1 to 63; answers SEQUENCE_STALE for d from 64 below 2^31; and for any other d sends the stored response again when the slot is among the last 64 taken (nothing while it has none yet), and otherwise answers SEQUENCE_STALE. NEXT_CSEQ is 1 at reset for the baseboard mailbox, when BIND_HOST_MAILBOX binds a host mailbox, and when a session opens. -/
def Obligations.CommandSlotsComeInSequence : Prop :=
  (∀ (s : State) (sl : MboxSlot),
    (takesSlots s .baseboard = true → exec (.mailboxSlot .baseboard sl) s = .next (sequenceSlot s .baseboard sl)) ∧
    (∀ i, takesSlots s (.fm i) = true → thas s.rkn.sessions i = true → exec (.mailboxSlot (.fm i) sl) s = .next (sequenceSlot s (.fm i) sl)) ∧
    (∀ i b, takesSlots s (.host i) = true → b = mboxOf s (.host i) → b.bound.isSome = true → b.cmdHead ≠ b.cmdTail → slotOf (tgetD b.slots (b.cmdHead % 64) []) = sl →
      exec (.mailboxSlot (.host i) sl) s = .next (sequenceSlot (setMbox s (.host i) { b with cmdHead := (b.cmdHead + 1) % 65536 }) (.host i) sl))) ∧
  (∀ (s : State) (m : MboxId) (sl : MboxSlot) (d : Nat), sl.cseq < 2 ^ 32 → (mboxOf s m).nextCseq < 2 ^ 32 →
    d = (sl.cseq + 2 ^ 32 - (mboxOf s m).nextCseq) % 2 ^ 32 →
    (d = 0 → sequenceSlot s m sl = takeHeld m ((mboxOf s m).held.length + 1) (runSlot (setMbox s m { mboxOf s m with
        nextCseq := ((mboxOf s m).nextCseq + 1) % 2 ^ 32, held := (mboxOf s m).held.filter (fun h => h.cseq ≠ sl.cseq),
        stored := ((sl.cseq, none) :: (mboxOf s m).stored).take 64 }) m sl)) ∧
    (1 ≤ d → d ≤ 63 → sl ∈ (mboxOf (sequenceSlot s m sl) m).held ∧
      sequenceSlot s m sl = setMbox s m { mboxOf s m with held := (mboxOf (sequenceSlot s m sl) m).held } ∧
      (∀ h ∈ (mboxOf s m).held, h.cseq ≠ sl.cseq → h ∈ (mboxOf (sequenceSlot s m sl) m).held)) ∧
    (64 ≤ d → d < 2 ^ 31 → sequenceSlot s m sl = slotAnswer s m sl mSEQUENCE_STALE 0) ∧
    (2 ^ 31 ≤ d →
      (∀ r, (mboxOf s m).stored.find? (fun e => e.1 = sl.cseq) = some (sl.cseq, some r) → sequenceSlot s m sl = sendResponse s (slotCaller s m sl) r) ∧
      ((mboxOf s m).stored.find? (fun e => e.1 = sl.cseq) = some (sl.cseq, none) → sequenceSlot s m sl = s) ∧
      ((∀ e ∈ (mboxOf s m).stored, e.1 ≠ sl.cseq) → sequenceSlot s m sl = slotAnswer s m sl mSEQUENCE_STALE 0))) ∧
  (∀ (m : MboxId) (fuel : Nat) (s : State),
    ((∀ h ∈ (mboxOf s m).held, h.cseq ≠ (mboxOf s m).nextCseq) → takeHeld m fuel s = s) ∧
    (∀ sl, (mboxOf s m).held.find? (fun h => h.cseq = (mboxOf s m).nextCseq) = some sl →
      takeHeld m (fuel + 1) s = takeHeld m fuel (runSlot (setMbox s m { mboxOf s m with
        nextCseq := ((mboxOf s m).nextCseq + 1) % 2 ^ 32, held := (mboxOf s m).held.filter (fun h => h.cseq ≠ sl.cseq),
        stored := ((sl.cseq, none) :: (mboxOf s m).stored).take 64 }) m sl))) ∧
  (mboxOf State.reset .baseboard).nextCseq = 1 ∧
  (∀ (s : State) (c : Caller) (h q : Nat), h < 16 → (q = 0xFFFF ∨ isLport s q = true) → c.mbox ≠ .host h → (mboxOf (bindMailbox s c h q) (.host h)).nextCseq = 1) ∧
  (∀ (s : State) (c : Caller) (a : OpenSessionArgs) (i : Nat), isClear c.mbox = true → (mboxOf (beginSession s c a i) (.fm i)).nextCseq = 1)

/-- In the context of a flow with next FSEQ NEXT, an arriving packet of FSEQ distance d from NEXT (modulo 65,536) is treated as R111 says. With d = 0 it is delivered, then the held packets that are now in sequence, each the next FSEQ in turn; NEXT moves past them, the other held packets stay, and none of those is the next one. For d from 1 to 255 it is held, a copy of a held packet is discarded, and where the cells of the resequencer are used up it is refused with RESEQ_WINDOW; for d from 256 to 32,767 it is refused so; beyond that it is a copy of a delivered packet and goes on at once with NEXT where it was. -/
def Obligations.ResequencerDeliversInOrder : Prop :=
  ∀ (s : State) (k : Nat × Nat × Nat × Nat) (x : Reseq) (r : Req) (d : Nat), r.pkt.fseq < 65536 → x.next < 65536 →
    d = (r.pkt.fseq + 65536 - x.next) % 65536 →
    (d = 0 → ∃ rest held, orderIn s k x r = (.deliver r rest, setReseq s k { x with next := (x.next + 1 + rest.length) % 65536, held := held, lastAt := s.now }) ∧
      (rest ++ held).Perm x.held ∧ rest.map (·.pkt.fseq) = (List.range rest.length).map (fun i => (x.next + 1 + i) % 65536) ∧
      ∀ h ∈ held, h.pkt.fseq ≠ (x.next + 1 + rest.length) % 65536) ∧
    (1 ≤ d → d ≤ 255 →
      ((∃ h ∈ x.held, h.pkt.fseq = r.pkt.fseq) → orderIn s k x r = (.hold, setReseq s k { x with lastAt := s.now })) ∧
      ((∀ h ∈ x.held, h.pkt.fseq ≠ r.pkt.fseq) → reseqUsed s k.1 + cellsOf r.pkt ≤ reseqCells s k.1 →
        orderIn s k x r = (.hold, setReseq s k { x with held := x.held ++ [r], lastAt := s.now })) ∧
      ((∀ h ∈ x.held, h.pkt.fseq ≠ r.pkt.fseq) → reseqCells s k.1 < reseqUsed s k.1 + cellsOf r.pkt → (orderIn s k x r).1 = .refuse kRESEQ_WINDOW)) ∧
    (256 ≤ d → d ≤ 32767 → orderIn s k x r = (.refuse kRESEQ_WINDOW, setReseq s k { x with lastAt := s.now })) ∧
    (32768 ≤ d → orderIn s k x r = (.deliver r [], setReseq s k { x with lastAt := s.now }))

/-- Rows: RESEQ_CONTEXT_IDLE. A packet that finds no context of its flow is refused with RESEQ_NO_CONTEXT, with no effect, when it has no FHEAD or when the quarter already has its 65,536 contexts; with FHEAD and a context free it creates one in the quarter with NEXT its own FSEQ, so that it is delivered and NEXT moves on. A packet that finds a context, with FHEAD or without, is ordered by it, and no context is made. So a quarter never has more than 65,536 contexts. A context that holds no packet is freed 100 us after its last traffic; one that holds a packet, or has had traffic since, stays. -/
def Obligations.ResequencerContextsComeAndGo : Prop :=
  (∀ (s : State) (n : Nat) (r : Req), reseqKey s r.pkt = none →
    (hasFlag r.pkt fFHEAD = false → resequence s n r = (.refuse kRESEQ_NO_CONTEXT, s)) ∧
    (65536 ≤ (reseqIn s n).length → resequence s n r = (.refuse kRESEQ_NO_CONTEXT, s)) ∧
    (hasFlag r.pkt fFHEAD = true → (reseqIn s n).length < 65536 → r.pkt.fseq < 65536 →
      resequence s n r = (.deliver r [], setReseq s (n, r.pkt.src, r.pkt.dst, r.pkt.flow) { next := (r.pkt.fseq + 1) % 65536, lastAt := s.now }))) ∧
  (∀ (s : State) (n : Nat) (r : Req) (k : Nat × Nat × Nat × Nat) (x : Reseq), reseqKey s r.pkt = some k → tget s.net.reseq k = some x →
    resequence s n r = orderIn s k x r ∧ (resequence s n r).2.net.reseq.length = s.net.reseq.length) ∧
  (∀ (s : State) (n m : Nat) (r : Req), (reseqIn s m).length ≤ 65536 → r.pkt.fseq < 65536 → (reseqIn (resequence s n r).2 m).length ≤ 65536) ∧
  (∀ (s : State) (q src dst flow : Nat) (x : Reseq), tget s.net.reseq (q, src, dst, flow) = some x →
    (x.held = [] → due s x.lastAt (us 100) = true →
      exec (.reseqContextIdle q src dst flow) s = .next { s with net := { s.net with reseq := tdel s.net.reseq (q, src, dst, flow) } }) ∧
    (x.held ≠ [] ∨ due s x.lastAt (us 100) = false → exec (.reseqContextIdle q src dst flow) s = .next s))

/-- At every time from the base time of a schedule on, the place in the cycle is the time since the start of a cycle, one of BASE_TIME + k cycles, and lies within the cycle; the entry in force is the one whose span of the cycle holds that place, and what is left of it is more than nothing and at most its length, with the entries after it following in order. A queue that the entry in force closes has no time left to send in; one that it opens has at least what is left of the entry; and a schedule without entries leaves every queue open without end. -/
def Obligations.GatesFollowTheSchedule : Prop :=
  (∀ (g : Gate) (t : Nat), g.base ≤ t → 0 < gateCycle g →
    ∃ k left pre e later, t = g.base + k * gateCycle g + gatePlace g t ∧ gatePlace g t < gateCycle g ∧ g.entries = pre ++ e :: later ∧
      gateFrom (gatePlace g t) g.entries = (left, e.2) :: later ∧ 0 < left ∧ left ≤ e.1 ∧
      gatePlace g t + left = (pre.map (·.1)).sum + e.1 ∧
      (∀ q, bit e.2 q = false → openLeft g t q = some 0) ∧
      (∀ q n, bit e.2 q = true → openLeft g t q = some n → left ≤ n)) ∧
  (∀ (g : Gate) (t q : Nat), g.entries = [] → openLeft g t q = none)

/-- The queue that a port chooses at a packet boundary is one of its sixteen, and its head packet is eligible. If it is strict, no strict queue of a higher index is eligible. If it is not, no strict queue is eligible at all, and no eligible queue has a smaller finish tag, nor one of lower index the same. The port chooses none exactly when no queue has an eligible head packet. -/
def Obligations.PortsSendTheChosenQueue : Prop :=
  ∀ (s : State) (q : Nat),
    (∀ k x o, chooseQueue s q = some (k, x, o) →
      (∃ i, i < 16 ∧ k = 16 * q + i) ∧ eligible s q k = some (x, o) ∧
      (regField s (aQUEUE_PARAM k) 8 1 = 1 → ∀ j < 16, (eligible s q (16 * q + j)).isSome = true → regField s (aQUEUE_PARAM (16 * q + j)) 8 1 = 1 → 16 * q + j ≤ k) ∧
      (regField s (aQUEUE_PARAM k) 8 1 ≠ 1 → ∀ j < 16, (eligible s q (16 * q + j)).isSome = true →
        regField s (aQUEUE_PARAM (16 * q + j)) 8 1 ≠ 1 ∧ (outQ s k).fin ≤ (outQ s (16 * q + j)).fin ∧
        ((outQ s (16 * q + j)).fin = (outQ s k).fin → k ≤ 16 * q + j))) ∧
    (chooseQueue s q = none ↔ ∀ j < 16, eligible s q (16 * q + j) = none)

/-- For every command and every state exec answers a next state: no command of the table ends in a fault or a refusal, whatever its operands and whatever the state. What the next state is, is said row by row in the other statements. Where the specification gives a command no effect in some state, the state is left as it is. -/
def Obligations.EveryCommandAnswersANextState : Prop :=
  ∀ (i : Instr) (s : State), ∃ t, exec i s = .next t

/-- A write of a payload to one physical piece of pool memory, over as many lines as it touches: each byte of the piece reads as the payload's byte of the same place, the parts of the piece read together are the payload, every byte outside the piece reads as before, and memory keeps its canonical form. For a write to several pieces, one whose pages carry a check that is rewritten among them: every byte that lies in no piece and in no rewritten check reads as before, and memory keeps its canonical form. The statements of STORE and REDUCE_WRITE give their effect by this same write. -/
def Obligations.WritesChangeTheirBytesAlone : Prop :=
  (∀ (s t : State) (p : Piece) (d : List Byte) (clr : Bool), MemoryGood s → d.length = p.len → t = writeParts s (partsOf [p] 0) d clr [] false →
    (∀ i, i < p.len → memRead t.pool.mem (p.pa + i) = d.getD i 0) ∧
    (∀ a, a < p.pa ∨ p.pa + p.len ≤ a → memRead t.pool.mem a = memRead s.pool.mem a) ∧
    (partsOf [p] 0).flatMap (partBytes t) = d ∧ MemoryGood t) ∧
  (∀ (s t : State) (ps : List Piece) (d : List Byte) (clr check : Bool) (bad : List Nat), t = writeParts s (partsOf ps 0) d clr bad check →
    (∀ a, (∀ p ∈ ps, a < p.pa ∨ p.pa + p.len ≤ a) →
      (check = true → ∀ p ∈ ps, leafE2e p.leaf = true → ∀ l ∈ linesOf p.pa p.len, a < l * 128 + 124 ∨ l * 128 + 128 ≤ a) →
      memRead t.pool.mem a = memRead s.pool.mem a) ∧
    (MemoryGood s → MemoryGood t))

/-- An atomic operation of 32 or 64 bits on an operand at its home, which on a page with LINE_CRC ends before the check (R126): it answers the value that stood there; the operand then holds what Table 5-3 gives for its AOP: the sum modulo 2^width, the operand, the swap value where the old one equals the compare value, the unsigned or the two's-complement minimum or maximum, the bitwise and, or, exclusive or, or the floating-point sum to nearest even; and every byte outside the operand, and outside the check that it rewrites, reads as before. Memory keeps its canonical form. The statement of ATOMIC gives its effect by this same operation. -/
def Obligations.AtomicsReplaceTheirOperand : Prop :=
  ∀ (s : State) (x : Part) (n a swap old o addr aop v : Nat) (r : Nat × State), (n = 4 ∨ n = 8) → x.len = n → MemoryGood s →
    (leafE2e x.leaf = true → x.off + n ≤ 124) → addr = x.line * 128 + x.off → old = unle (getBytes s addr n) → o = a % 2 ^ (8 * n) →
    r = applyAtomic s x aop n a swap → v = unle (getBytes r.2 addr n) →
    r.1 = old ∧ MemoryGood r.2 ∧
    (∀ b, b < addr ∨ addr + n ≤ b → (leafE2e x.leaf = true → b < x.line * 128 + 124 ∨ x.line * 128 + 128 ≤ b) → memRead r.2.pool.mem b = memRead s.pool.mem b) ∧
    (aop = 0 → v = (old + o) % 2 ^ (8 * n)) ∧ (aop = 1 → v = o) ∧ (aop = 2 → v = if old = o then swap % 2 ^ (8 * n) else old) ∧
    (aop = 3 → v = min old o) ∧ (aop = 4 → v = max old o) ∧
    (aop = 5 → toSigned (8 * n) v = min (toSigned (8 * n) old) (toSigned (8 * n) o)) ∧ (aop = 6 → toSigned (8 * n) v = max (toSigned (8 * n) old) (toSigned (8 * n) o)) ∧
    (aop = 7 → v = old &&& o) ∧ (aop = 8 → v = old ||| o) ∧ (aop = 9 → v = old ^^^ o) ∧
    (aop = 10 → v = addFloat (if n = 4 then fFP32 else fFP64) false old o % 2 ^ (8 * n))

/-- Two 640-bit accumulators are added limb by limb, each of the ten limbs with the carry out of the one below it, and the limbs of the sum modulo 2^640 are what the limbs give (R253, R256). The check of R268 passes every limb that is right; where a limb's sum differs by one power of two, as it does with one bit flipped, or its carry out by one, the check fails. The check of a multiplier passes the right product, and fails where the product differs by one power of two. -/
def Obligations.AdderLimbsCheckTheirResidue : Prop :=
  (∀ (x y : Int) (c : Nat → Nat), c 0 = 0 → (∀ i, c (i + 1) = (limbAdd (limb x i) (limb y i) (c i)).2) →
    ∀ i, i < 10 → limb (wrapAcc (x + y)) i = (limbAdd (limb x i) (limb y i) (c i)).1 ∧ c i ≤ 1) ∧
  (∀ a b c : Nat, adderCheck a b c (limbAdd a b c) = true ∧
    (∀ k r, r = (limbAdd a b c).1 + 2 ^ k ∨ r + 2 ^ k = (limbAdd a b c).1 → adderCheck a b c (r, (limbAdd a b c).2) = false) ∧
    (∀ e, e = (limbAdd a b c).2 + 1 ∨ e + 1 = (limbAdd a b c).2 → adderCheck a b c ((limbAdd a b c).1, e) = false)) ∧
  (∀ x y : Nat, multiplierCheck x y (x * y) = true ∧ ∀ k r, r = x * y + 2 ^ k ∨ r + 2 ^ k = x * y → multiplierCheck x y r = false)
end

