-- ==== Sys2Proof/Laws/Arrive.lean ====
section
/-! SUPPORT. A packet that comes to its service at this module, as one equation of `receive`. -/

namespace Sys2Proof.Machine

theorem acting_some {t t' : Ns} {p : Packet} {v v' : State} (h : acting t p v = some (t', v')) :
    t' = t ∧ v' = unpend v p ∧ oddPacket (unpend v p) p = false := by
  unfold acting at h
  split at h
  · cases h
  · rename_i ho
    cases h
    exact ⟨rfl, rfl, by simpa using ho⟩

/-- A packet that no message in progress turns away acts by its operation. -/
theorem serveHome_acting {t t' : Ns} {q : Nat} {p : Packet} {v v' : State} (h : acting t p v = some (t', v')) :
    serveHome v (arrived t q p) = serveOp v' (arrived t' q p) := by
  obtain ⟨h1, h2, h3⟩ := acting_some h
  unfold serveHome
  simp only [arrived, h3, Bool.false_eq_true, if_false, h1, h2]

theorem deliverHere_delivered {s u v : State} {t t' : Ns} {q : Nat} {p : Packet} (hd : delivered s q p = some (t, u)) (h : served s q p = some (t', v)) :
    deliverHere u q t p = serveOp v (arrived t' q p) := by
  simp only [served, hd] at h
  unfold deliverHere
  simp only
  change (if inFlow p = true then match resequence (if q = selfPort then u else crossPacket u (quarterOf q) (homeQuarter u q p) p) (homeQuarter u q p) (arrived t q p) with
      | (.deliver first rest, s) => (first :: rest).foldl serveHome s
      | (.hold, s) => s
      | (.refuse code, s) => refuse s q p code 0 0
    else serveHome (if q = selfPort then u else crossPacket u (quarterOf q) (homeQuarter u q p) p) (arrived t q p)) = _
  split at h
  · rename_i hc
    rw [if_pos hc]
    split at h
    · rename_i f w heq
      by_cases hf : f = arrived t q p
      · rw [if_pos hf] at h
        rw [heq, hf]
        exact serveHome_acting h
      · rw [if_neg hf] at h
        cases h
    · cases h
  · rename_i hc
    rw [if_neg hc]
    exact serveHome_acting h

theorem admitPacket_passes {u : State} {q : Nat} {c : Colour} {t : Ns} {p : Packet} (h : passesPort u q p = true) :
    admitPacket u q c t p = place u q c t p := by
  simp only [passesPort, Bool.and_eq_true, Bool.or_eq_true, decide_eq_true_eq, Option.isNone_iff_eq_none, Bool.not_eq_true'] at h
  obtain ⟨⟨⟨⟨⟨⟨⟨h1, h2⟩, h3⟩, h4⟩, h5⟩, h6⟩, h7⟩, h8⟩ := h
  unfold admitPacket
  have h0 : (!isReady u && !(isQuery p && decide (3 ≤ u.supply.phase)) && !(isMap p && decide (6 ≤ u.supply.phase) && decide (roleOf u q = roleSWITCH))) = false := by
    rcases h1 with h1 | ⟨⟨h1, h1'⟩, h1''⟩ <;> simp_all
  simp only [h0, h2, h3, h4, h5, h6, h7, h8, Bool.false_eq_true, if_false]

theorem withCredits_congr {s : State} {q : Nat} {t : Ns} {p : Packet} {f g : State → State} (h : f s = g s) : withCredits s q t p f = withCredits s q t p g := by
  unfold withCredits
  simp only [h]

/-- A packet that a port takes in meets its checks. -/
theorem receive_taken {s u : State} {q : Nat} {c : Colour} {p : Packet} (hq : q ≠ selfPort) (h : takenIn s q p = some (c, u)) :
    receive s q p = finish s q p (admitPacket u q c (arrivedAt s q p) p) := by
  unfold receive finish
  unfold takenIn at h
  rw [if_neg hq, if_neg hq]
  by_cases hup : (!isUp s q && !inDock s q p) = true
  · simp [hup] at h
  · rw [if_neg hup] at h ⊢
    by_cases hcrc : p.crc ≠ packetCrc p
    · simp [hcrc] at h
    · rw [if_neg hcrc] at h
      apply withCredits_congr
      rw [if_neg hcrc]
      revert h
      generalize police (takeFromDock s q p) q p = x
      obtain ⟨d, y⟩ := x
      intro h
      simp only at h ⊢
      by_cases hl : 2 ≤ level y ∧ (p.tc = 3 ∨ p.tc = 4 ∨ p.tc = 7)
      · simp [hl] at h
      · rw [if_neg hl] at h ⊢
        cases h
        rfl

/-- A packet that comes to its service at this module is served there. -/
theorem receive_served {s v : State} {t : Ns} {q : Nat} {p : Packet} (h : served s q p = some (t, v)) :
    receive s q p = finish s q p (serveOp v (arrived t q p)) := by
  cases hd : delivered s q p with
  | none => simp [served, hd] at h
  | some x =>
    obtain ⟨a, u⟩ := x
    have he := deliverHere_delivered hd h
    unfold delivered at hd
    split at hd
    · rename_i hq
      unfold receive finish
      rw [if_pos hq, if_pos hq]
      cases hi : takeInternal s p with
      | none => simp [hi] at hd
      | some y =>
        simp only [hi, Option.map_some, Option.some.injEq, Prod.mk.injEq] at hd
        obtain ⟨h1, h2⟩ := hd
        subst h2 h1
        simp only [he]
    · rename_i hq
      split at hd
      · cases hd
      · rename_i c y ht
        split at hd
        · rename_i hc
          simp only [Bool.and_eq_true, Bool.not_eq_true'] at hc
          cases hd
          rw [receive_taken hq ht, admitPacket_passes hc.1.1]
          unfold place
          rw [if_pos hc.1.2, hc.2, if_neg (by simp), he]
        · cases hd

/-- A memory request that enters its home is attempted there. -/
theorem serveMem_entered {s u : State} {t : Ns} {q : Nat} {p : Packet} {w : Waiter} (h : memEntered s t q p = some (w, u)) :
    serveMem s (arrived t q p) = attemptMem u w := by
  unfold memEntered at h
  by_cases hc : ((dedupOf s p).isSome || (memFieldCheck s q p).isSome) = true
  · rw [if_pos hc] at h
    cases h
  rw [if_neg hc] at h
  simp only [Bool.or_eq_true, not_or, Bool.not_eq_true, Option.isSome_eq_false_iff, Option.isNone_iff_eq_none] at hc
  obtain ⟨h1, h3⟩ := hc
  have enter : ∀ (v : State) (x : Waiter), x.req = arrived t q p → x.quarter = quarterOf q →
      (if waitingCopy v p || (epochCode v p).isSome || (x.win.isNone && decide (p.op ≠ opFENCE) && !thas v.pool.jobs p.job)
          || (nonIdempotent p && decide (1048576 < v.net.dedup.length + dedupNeed v p))
          || decide (placeOf v (quarterOf q) p ≠ .fresh) || waitsBehind (notePacket v (quarterOf q) p) x then none
      else some (x, notePacket v (quarterOf q) p)) = some (w, u) → enterOnce v x = attemptMem u w := by
    intro v x hr hq hk
    split at hk
    · cases hk
    · rename_i hn
      cases hk
      simp only [Bool.or_eq_true, not_or, Bool.not_eq_true, decide_eq_false_iff_not, not_not, Option.isSome_eq_false_iff, Option.isNone_iff_eq_none] at hn
      obtain ⟨⟨⟨⟨⟨e0, e1⟩, e2⟩, e3⟩, e4⟩, e5⟩ := hn
      unfold enterOnce
      simp only [hr, arrived, e0, Bool.false_eq_true, if_false]
      unfold enterMem
      simp only [hr, hq]
      change (match epochCode v p with
        | some c => _
        | none => _) = _
      rw [e1]
      simp only [arrived, e4]
      rw [if_neg (by rw [Bool.not_eq_true]; exact e2), if_neg (by rw [Bool.not_eq_true]; exact e3)]
  unfold serveMem
  simp only [arrived, h1, h3]
  by_cases ht : throughWindow p = true
  · simp only [ht, if_true] at h ⊢
    cases hcw : checkWindow s p p.cap p.addr (memSize p) (memRight p) with
    | mk c v =>
      cases c with
      | some c =>
        rw [hcw] at h
        cases h
      | none =>
        rw [hcw] at h
        exact enter v { entrant t q p with win := some (capIndex p.cap) } rfl rfl h
  · simp only [ht, Bool.false_eq_true, if_false] at h ⊢
    exact enter s (entrant t q p) rfl rfl h

end Sys2Proof.Machine
end

