-- ==== Sys2Proof/Laws/Bytes.lean ====
section
/-! SUPPORT. Little-endian bytes and fields (R3): lengths, values, and reading a field of a byte string that is put together from fields. -/

namespace Sys2Proof.Machine

@[simp] theorem le_length (n v : Nat) : (le n v).length = n := by
  induction n generalizing v with
  | zero => rfl
  | succ n ih => simp [le, ih]

/-- Little-endian bytes hold the value modulo their size. -/
theorem unle_le (n v : Nat) : unle (le n v) = v % 256 ^ n := by
  induction n generalizing v with
  | zero => simp [le, unle, Nat.mod_one]
  | succ n ih =>
    have e : 256 ^ (n + 1) = 256 * 256 ^ n := by rw [pow_succ, Nat.mul_comm]
    simp only [le, unle, ih, BitVec.toNat_ofNat, e, Nat.mod_mul]

theorem unle_lt (l : List Byte) : unle l < 256 ^ l.length := by
  induction l with
  | nil => simp [unle]
  | cons b r ih =>
    have := b.isLt
    simp only [unle, List.length_cons, pow_succ]
    omega

/-- The bytes of a string are those of its value. -/
theorem le_unle (l : List Byte) : le l.length (unle l) = l := by
  induction l with
  | nil => rfl
  | cons b r ih =>
    have h := b.isLt
    have e : (b.toNat + 256 * unle r) / 256 = unle r := by omega
    simp only [List.length_cons, unle, le, e, ih, List.cons.injEq, and_true]
    apply BitVec.eq_of_toNat_eq
    simp only [BitVec.toNat_ofNat]
    omega

/-- The field at the front. -/
theorem field_le (n v : Nat) (b : List Byte) : field (le n v ++ b) 0 n = v % 256 ^ n := by
  unfold field
  rw [List.drop_zero, List.take_append_of_le_length (by simp), List.take_of_length_le (by simp), unle_le]

/-- A field beyond a first one of `k` bytes. -/
theorem field_skip (k x off n : Nat) (b : List Byte) (h : k ≤ off) : field (le k x ++ b) off n = field b (off - k) n := by
  unfold field
  rw [List.drop_append, List.drop_eq_nil_of_le (by simp [h]), le_length, List.nil_append]

/-- Two bytes read as one field. -/
theorem field_two (v w : Nat) (b : List Byte) : field (le 1 v ++ (le 1 w ++ b)) 0 2 = v % 256 + 256 * (w % 256) := by
  simp [field, le, unle]

theorem field_drop (a b : List Byte) (n off : Nat) (h : a.length = off) : field (a ++ b) off n = field b 0 n := by
  unfold field
  subst h
  simp

theorem field_lt (l : List Byte) (off n : Nat) : field l off n < 256 ^ n := by
  unfold field
  have h := unle_lt ((l.drop off).take n)
  have : 256 ^ ((l.drop off).take n).length ≤ 256 ^ n := Nat.pow_le_pow_right (by decide) (by simp)
  omega

end Sys2Proof.Machine
end

