-- ==== Sys2Proof/Laws/Tables.lean ====
section
/-! SUPPORT. Tables: reading after writing, deleting and changing an entry. -/

namespace Sys2Proof.Machine

section TableLaws

variable {κ α : Type} [DecidableEq κ]

@[simp] theorem tget_tset_same (t : Table κ α) (k : κ) (a : α) : tget (tset t k a) k = some a := by
  induction t with
  | nil => simp [tset, tget]
  | cons e r ih =>
    obtain ⟨k', b⟩ := e
    by_cases h : k' = k <;> simp [tset, tget, h, ih]

theorem tget_tset_other (t : Table κ α) {k j : κ} (a : α) (h : k ≠ j) : tget (tset t k a) j = tget t j := by
  induction t with
  | nil => simp [tset, tget, h]
  | cons e r ih =>
    obtain ⟨k', b⟩ := e
    by_cases hk : k' = k
    · subst hk
      simp [tset, tget, h]
    · simp only [tset, hk, if_false, tget, ih]

theorem tget_tset (t : Table κ α) (k j : κ) (a : α) : tget (tset t k a) j = if k = j then some a else tget t j := by
  by_cases h : k = j
  · subst h
    simp
  · simp [h, tget_tset_other t a h]

@[simp] theorem tgetD_tset_same (t : Table κ α) (k : κ) (a d : α) : tgetD (tset t k a) k d = a := by simp [tgetD]

theorem tgetD_tset_other (t : Table κ α) {k j : κ} (a d : α) (h : k ≠ j) : tgetD (tset t k a) j d = tgetD t j d := by
  simp [tgetD, tget_tset_other t a h]

@[simp] theorem thas_tset_same (t : Table κ α) (k : κ) (a : α) : thas (tset t k a) k = true := by simp [thas]

@[simp] theorem tget_tdel_same (t : Table κ α) (k : κ) : tget (tdel t k) k = none := by
  unfold tdel
  induction t with
  | nil => rfl
  | cons e r ih =>
    obtain ⟨k', b⟩ := e
    by_cases h : k' = k <;> simp_all [tget]

theorem tget_tdel_other (t : Table κ α) {k j : κ} (h : k ≠ j) : tget (tdel t k) j = tget t j := by
  unfold tdel
  induction t with
  | nil => rfl
  | cons e r ih =>
    obtain ⟨k', b⟩ := e
    by_cases hk : k' = k
    · subst hk
      simp_all [tget]
    · by_cases hj : k' = j <;> simp_all [tget]

@[simp] theorem tgetD_tupd_same (t : Table κ α) (k : κ) (d : α) (f : α → α) : tgetD (tupd t k d f) k d = f (tgetD t k d) := by simp [tupd]

theorem tgetD_tupd_other (t : Table κ α) {k j : κ} (d : α) (f : α → α) (h : k ≠ j) : tgetD (tupd t k d f) j d = tgetD t j d := by
  simp [tupd, tgetD_tset_other t _ d h]

@[simp] theorem tget_nil (k : κ) : tget ([] : Table κ α) k = none := rfl

end TableLaws

end Sys2Proof.Machine
end

