-- ==== Sys2Proof/Laws/Links.lean ====
section
/-! SUPPORT. Reading a port or a lane back after it, or the other of the two, was replaced. -/

namespace Sys2Proof.Machine

/-- A port reads back as it was replaced. -/
@[simp] theorem lport_setLport_same (s : State) (q : Nat) (p : LPort) : lport (setLport s q p) q = p := tgetD_tset_same _ _ _ _

/-- Another port stays as it was. -/
theorem lport_setLport_other (s : State) {q r : Nat} (p : LPort) (h : q ≠ r) : lport (setLport s q p) r = lport s r := tgetD_tset_other _ _ _ h

/-- A port reads back as it was changed. -/
@[simp] theorem lport_modLport_same (s : State) (q : Nat) (f : LPort → LPort) : lport (modLport s q f) q = f (lport s q) := lport_setLport_same s q _

/-- Another port stays as it was. -/
theorem lport_modLport_other (s : State) {q r : Nat} (f : LPort → LPort) (h : q ≠ r) : lport (modLport s q f) r = lport s r := lport_setLport_other s _ h

/-- A lane reads back as it was replaced. -/
@[simp] theorem lane_setLane_same (s : State) (l : Nat) (x : Lane) : lane (setLane s l x) l = x := tgetD_tset_same _ _ _ _

/-- Another lane stays as it was. -/
theorem lane_setLane_other (s : State) {l m : Nat} (x : Lane) (h : l ≠ m) : lane (setLane s l x) m = lane s m := tgetD_tset_other _ _ _ h

/-- Replacing a lane leaves the ports. -/
@[simp] theorem lport_setLane (s : State) (l q : Nat) (x : Lane) : lport (setLane s l x) q = lport s q := rfl

/-- Replacing a port leaves the lanes. -/
@[simp] theorem lane_setLport (s : State) (q l : Nat) (p : LPort) : lane (setLport s q p) l = lane s l := rfl

/-- Changing a port leaves the lanes. -/
@[simp] theorem lane_modLport (s : State) (q l : Nat) (f : LPort → LPort) : lane (modLport s q f) l = lane s l := rfl

/-- A port for which no LIVE value waits has nothing to do at its packet boundary (R13). -/
theorem portBoundary_none (s : State) (q : Nat) (hc : (lport s q).oldCfg = none) (hr : (lport s q).oldRate = none) : portBoundary s q = s := by
  simp only [portBoundary, hc, hr]
  exact if_neg (by simp)

/-- What keeping a flit for replay leaves of its port: the sequence number, the replay buffer and its timer alone change (R68). -/
theorem lport_sendKept (s : State) (l : Nat) (f : Flit) : lport (sendKept s l f) (lportOfLane s l) =
    { lport s (lportOfLane s l) with
      txSeq := ((lport s (lportOfLane s l)).txSeq + 1) % 4096
      replay := (lport s (lportOfLane s l)).replay ++ [{ f with lseq := (lport s (lportOfLane s l)).txSeq }]
      lackAt := if (lport s (lportOfLane s l)).replay = [] then s.now else (lport s (lportOfLane s l)).lackAt } :=
  lport_setLport_same s _ _

/-- A DATA flit of a port for which no LIVE value waits: it is kept and counted. -/
theorem sendData_plain (s : State) (l : Nat) (f : Flit) (hc : (lport s (lportOfLane s l)).oldCfg = none) (hr : (lport s (lportOfLane s l)).oldRate = none) :
    sendData s l f = handshake (sendKept s l f) .rod (nativeOf (lportOfLane s l)) 1 true :=
  portBoundary_none _ _ ((congrArg LPort.oldCfg (lport_sendKept s l f)).trans hc) ((congrArg LPort.oldRate (lport_sendKept s l f)).trans hr)

/-- A newer credit count is taken: its difference is added, to the credits of its class alone (R66). -/
theorem takeCredit_new (p : LPort) (k c : Nat) (h : 1 ≤ gap 12 c (p.ccumIn.getD k 0) ∧ gap 12 c (p.ccumIn.getD k 0) ≤ 2047) :
    takeCredit p k c = { p with credits := p.credits.set k (p.credits.getD k 0 + gap 12 c (p.ccumIn.getD k 0)), ccumIn := p.ccumIn.set k c } := if_pos h

/-- An older credit count is ignored (R66). -/
theorem takeCredit_old (p : LPort) (k c : Nat) (h : ¬ (1 ≤ gap 12 c (p.ccumIn.getD k 0) ∧ gap 12 c (p.ccumIn.getD k 0) ≤ 2047)) : takeCredit p k c = p := if_neg h

end Sys2Proof.Machine
end

