-- ==== Sys2Proof/Laws/Memory.lean ====
section
/-! SUPPORT. Pool memory: reading after writing, and its canonical form kept by every operation. -/

namespace Sys2Proof.Machine

/-- Every address of a memory is above a bound. -/
def Above (n : Nat) (m : Memory) : Prop := ∀ e ∈ m, n < e.1

/-- The canonical form, as a recursion on the list: nothing is zero and each address is below those after it. -/
def Canonical : Memory → Prop
  | [] => True
  | e :: r => e.2 ≠ 0 ∧ Above e.1 r ∧ Canonical r

theorem canonical_of_wf (m : Memory) (h : Memory.wf m = true) : Canonical m := by
  induction m with
  | nil => trivial
  | cons e r ih =>
    obtain ⟨k, b⟩ := e
    cases r with
    | nil =>
      simp only [Memory.wf, decide_eq_true_eq] at h
      exact ⟨h, fun e he => absurd he (by simp), trivial⟩
    | cons f r =>
      obtain ⟨k', c⟩ := f
      simp only [Memory.wf, Bool.and_eq_true, decide_eq_true_eq] at h
      obtain ⟨⟨h1, h2⟩, h3⟩ := h
      have ih := ih h3
      refine ⟨h1, ?_, ih⟩
      intro e he
      rcases List.mem_cons.mp he with rfl | he
      · exact h2
      · exact Nat.lt_trans h2 (ih.2.1 e he)

theorem wf_of_canonical (m : Memory) (h : Canonical m) : Memory.wf m = true := by
  induction m with
  | nil => rfl
  | cons e r ih =>
    obtain ⟨k, b⟩ := e
    obtain ⟨h1, h2, h3⟩ := h
    cases r with
    | nil => simpa [Memory.wf] using h1
    | cons f r =>
      obtain ⟨k', c⟩ := f
      have hk : k < k' := h2 (k', c) (by simp)
      simp only [Memory.wf, Bool.and_eq_true, decide_eq_true_eq]
      exact ⟨⟨h1, hk⟩, ih h3⟩

theorem wf_iff_canonical (m : Memory) : Memory.wf m = true ↔ Canonical m := ⟨canonical_of_wf m, wf_of_canonical m⟩

theorem above_memWrite (m : Memory) {n a : Nat} (b : Byte) (hm : Above n m) (ha : n < a) : Above n (memWrite m a b) := by
  induction m with
  | nil =>
    intro e he
    unfold memWrite at he
    split at he
    · simp at he
    · rw [List.mem_singleton.mp he]
      exact ha
  | cons f r ih =>
    obtain ⟨k, c⟩ := f
    have hk : n < k := hm (k, c) (by simp)
    have hr : Above n r := fun e he => hm e (by simp [he])
    intro e he
    unfold memWrite at he
    split at he
    · split at he
      · exact hm e he
      · rcases List.mem_cons.mp he with rfl | he
        · exact ha
        · exact hm e he
    · split at he
      · split at he
        · exact hr e he
        · rcases List.mem_cons.mp he with rfl | he
          · exact ha
          · exact hr e he
      · rcases List.mem_cons.mp he with rfl | he
        · exact hk
        · exact ih hr e he

theorem canonical_memWrite (m : Memory) (a : Nat) (b : Byte) (h : Canonical m) : Canonical (memWrite m a b) := by
  induction m with
  | nil =>
    unfold memWrite
    split
    · trivial
    · rename_i hb
      exact ⟨hb, fun e he => absurd he (by simp), trivial⟩
  | cons f r ih =>
    obtain ⟨k, c⟩ := f
    obtain ⟨h1, h2, h3⟩ := h
    unfold memWrite
    split
    · rename_i hak
      split
      · exact ⟨h1, h2, h3⟩
      · rename_i hb
        refine ⟨hb, ?_, h1, h2, h3⟩
        intro e he
        rcases List.mem_cons.mp he with rfl | he
        · exact hak
        · exact Nat.lt_trans hak (h2 e he)
    · split
      · rename_i hak
        subst hak
        split
        · exact h3
        · rename_i hb
          exact ⟨hb, h2, h3⟩
      · rename_i h4 h5
        exact ⟨h1, above_memWrite r b h2 (by simp only; omega), ih h3⟩

/-- A write keeps the canonical form. -/
theorem memWrite_wf (m : Memory) (a : Nat) (b : Byte) (h : Memory.wf m = true) : Memory.wf (memWrite m a b) = true :=
  wf_of_canonical _ (canonical_memWrite m a b (canonical_of_wf m h))

/-- Writing bytes keeps the canonical form. -/
theorem memStore_wf (bs : List Byte) (m : Memory) (a : Nat) (h : Memory.wf m = true) : Memory.wf (memStore m a bs) = true := by
  induction bs generalizing m a with
  | nil => exact h
  | cons b r ih => exact ih _ _ (memWrite_wf m a b h)

/-- Dropping entries keeps the canonical form. -/
theorem filter_wf (m : Memory) (p : Host.Cell → Bool) (h : Memory.wf m = true) : Memory.wf (m.filter p) = true := by
  apply wf_of_canonical
  have h := canonical_of_wf m h
  induction m with
  | nil => trivial
  | cons e r ih =>
    obtain ⟨h1, h2, h3⟩ := h
    by_cases hp : p e = true
    · simp only [List.filter_cons, hp, if_true]
      exact ⟨h1, fun x hx => h2 x (List.mem_of_mem_filter hx), ih (wf_of_canonical _ h3) h3⟩
    · simp only [List.filter_cons, hp]
      exact ih (wf_of_canonical _ h3) h3

theorem memRead_above (m : Memory) {n : Nat} (h : Above n m) : memRead m n = 0 := by
  induction m with
  | nil => rfl
  | cons e r ih =>
    obtain ⟨k, b⟩ := e
    have hk : n < k := h (k, b) (by simp)
    have hne : k ≠ n := by omega
    simp only [memRead, hne, if_false]
    exact ih fun x hx => h x (by simp [hx])

/-- A read after a write to the same address gives the byte written. -/
theorem memRead_memWrite_same (m : Memory) (a : Nat) (b : Byte) (h : Memory.wf m = true) : memRead (memWrite m a b) a = b := by
  have hc := canonical_of_wf m h
  clear h
  induction m with
  | nil =>
    unfold memWrite
    split
    · rename_i hb
      exact hb.symm
    · simp [memRead]
  | cons e r ih =>
    obtain ⟨k, c⟩ := e
    obtain ⟨h1, h2, h3⟩ := hc
    unfold memWrite
    split
    · rename_i hak
      split
      · rename_i hb
        have hne : k ≠ a := by omega
        simp only [memRead, hne, if_false, hb]
        exact memRead_above r fun x hx => Nat.lt_trans hak (h2 x hx)
      · simp [memRead]
    · split
      · rename_i hak
        subst hak
        split
        · rename_i hb
          rw [hb]
          exact memRead_above r h2
        · simp [memRead]
      · rename_i h4 h5
        have hne : k ≠ a := fun hk => h5 hk.symm
        simp only [memRead, hne, if_false]
        exact ih h3

/-- A write leaves every other address as it was. -/
theorem memRead_memWrite_other (m : Memory) {a c : Nat} (b : Byte) (h : a ≠ c) : memRead (memWrite m a b) c = memRead m c := by
  induction m with
  | nil =>
    unfold memWrite
    split
    · rfl
    · simp [memRead, h]
  | cons e r ih =>
    obtain ⟨k, x⟩ := e
    unfold memWrite
    split
    · split
      · rfl
      · simp [memRead, h]
    · split
      · rename_i hak
        subst hak
        split <;> simp [memRead, h]
      · by_cases hk : k = c <;> simp [memRead, hk, ih]

/-- Writing bytes leaves every address outside them as it was. -/
theorem memRead_memStore_outside (bs : List Byte) (m : Memory) (a c : Nat) (h : c < a ∨ a + bs.length ≤ c) :
    memRead (memStore m a bs) c = memRead m c := by
  induction bs generalizing m a with
  | nil => rfl
  | cons b r ih =>
    simp only [List.length_cons] at h
    simp only [memStore]
    rw [ih _ _ (by omega), memRead_memWrite_other m b (by omega)]

/-- Bytes written are read back. -/
theorem memRead_memStore_inside (bs : List Byte) (m : Memory) (a i : Nat) (hm : Memory.wf m = true) (hi : i < bs.length) :
    memRead (memStore m a bs) (a + i) = bs.getD i 0 := by
  induction bs generalizing m a i with
  | nil => simp at hi
  | cons b r ih =>
    simp only [memStore]
    cases i with
    | zero =>
      rw [memRead_memStore_outside _ _ _ _ (by omega)]
      simpa using memRead_memWrite_same m a b hm
    | succ i =>
      have := ih (memWrite m a b) (a + 1) i (memWrite_wf m a b hm) (by simpa using hi)
      rw [show a + (i + 1) = a + 1 + i by omega, this]
      simp

end Sys2Proof.Machine
end

