-- ==== Sys2Proof/Laws/State.lean ====
section
/-! SUPPORT. Every field of State under every shared update: unchanged, or as the update gives it. -/

namespace Sys2Proof.Machine

@[simp] theorem bumpBy_pending (s : State) (c : Ctr) (n : Nat) : (bumpBy s c n).pending = s.pending := rfl
@[simp] theorem bumpBy_now (s : State) (c : Ctr) (n : Nat) : (bumpBy s c n).now = s.now := rfl
@[simp] theorem bumpBy_free (s : State) (c : Ctr) (n : Nat) : (bumpBy s c n).free = s.free := rfl
@[simp] theorem bumpBy_regs (s : State) (c : Ctr) (n : Nat) : (bumpBy s c n).regs = s.regs := rfl
@[simp] theorem bumpBy_regsPending (s : State) (c : Ctr) (n : Nat) : (bumpBy s c n).regsPending = s.regsPending := rfl
@[simp] theorem bumpBy_regsLive (s : State) (c : Ctr) (n : Nat) : (bumpBy s c n).regsLive = s.regsLive := rfl
@[simp] theorem bumpBy_events (s : State) (c : Ctr) (n : Nat) : (bumpBy s c n).events = s.events := rfl
@[simp] theorem bumpBy_dies (s : State) (c : Ctr) (n : Nat) : (bumpBy s c n).dies = s.dies := rfl
@[simp] theorem bumpBy_admitted (s : State) (c : Ctr) (n : Nat) : (bumpBy s c n).admitted = s.admitted := rfl
@[simp] theorem bumpBy_deck (s : State) (c : Ctr) (n : Nat) : (bumpBy s c n).deck = s.deck := rfl
@[simp] theorem bumpBy_links (s : State) (c : Ctr) (n : Nat) : (bumpBy s c n).links = s.links := rfl
@[simp] theorem bumpBy_net (s : State) (c : Ctr) (n : Nat) : (bumpBy s c n).net = s.net := rfl
@[simp] theorem bumpBy_pool (s : State) (c : Ctr) (n : Nat) : (bumpBy s c n).pool = s.pool := rfl
@[simp] theorem bumpBy_win (s : State) (c : Ctr) (n : Nat) : (bumpBy s c n).win = s.win := rfl
@[simp] theorem bumpBy_coh (s : State) (c : Ctr) (n : Nat) : (bumpBy s c n).coh = s.coh := rfl
@[simp] theorem bumpBy_carry (s : State) (c : Ctr) (n : Nat) : (bumpBy s c n).carry = s.carry := rfl
@[simp] theorem bumpBy_sieve (s : State) (c : Ctr) (n : Nat) : (bumpBy s c n).sieve = s.sieve := rfl
@[simp] theorem bumpBy_mover (s : State) (c : Ctr) (n : Nat) : (bumpBy s c n).mover = s.mover := rfl
@[simp] theorem bumpBy_bead (s : State) (c : Ctr) (n : Nat) : (bumpBy s c n).bead = s.bead := rfl
@[simp] theorem bumpBy_queues (s : State) (c : Ctr) (n : Nat) : (bumpBy s c n).queues = s.queues := rfl
@[simp] theorem bumpBy_ten (s : State) (c : Ctr) (n : Nat) : (bumpBy s c n).ten = s.ten := rfl
@[simp] theorem bumpBy_map (s : State) (c : Ctr) (n : Nat) : (bumpBy s c n).map = s.map := rfl
@[simp] theorem bumpBy_spares (s : State) (c : Ctr) (n : Nat) : (bumpBy s c n).spares = s.spares := rfl
@[simp] theorem bumpBy_rkn (s : State) (c : Ctr) (n : Nat) : (bumpBy s c n).rkn = s.rkn := rfl
@[simp] theorem bumpBy_clock (s : State) (c : Ctr) (n : Nat) : (bumpBy s c n).clock = s.clock := rfl
@[simp] theorem bumpBy_supply (s : State) (c : Ctr) (n : Nat) : (bumpBy s c n).supply = s.supply := rfl

@[simp] theorem bump_pending (s : State) (c : Ctr) : (bump s c).pending = s.pending := rfl
@[simp] theorem bump_now (s : State) (c : Ctr) : (bump s c).now = s.now := rfl
@[simp] theorem bump_free (s : State) (c : Ctr) : (bump s c).free = s.free := rfl
@[simp] theorem bump_regs (s : State) (c : Ctr) : (bump s c).regs = s.regs := rfl
@[simp] theorem bump_regsPending (s : State) (c : Ctr) : (bump s c).regsPending = s.regsPending := rfl
@[simp] theorem bump_regsLive (s : State) (c : Ctr) : (bump s c).regsLive = s.regsLive := rfl
@[simp] theorem bump_events (s : State) (c : Ctr) : (bump s c).events = s.events := rfl
@[simp] theorem bump_dies (s : State) (c : Ctr) : (bump s c).dies = s.dies := rfl
@[simp] theorem bump_admitted (s : State) (c : Ctr) : (bump s c).admitted = s.admitted := rfl
@[simp] theorem bump_deck (s : State) (c : Ctr) : (bump s c).deck = s.deck := rfl
@[simp] theorem bump_links (s : State) (c : Ctr) : (bump s c).links = s.links := rfl
@[simp] theorem bump_net (s : State) (c : Ctr) : (bump s c).net = s.net := rfl
@[simp] theorem bump_pool (s : State) (c : Ctr) : (bump s c).pool = s.pool := rfl
@[simp] theorem bump_win (s : State) (c : Ctr) : (bump s c).win = s.win := rfl
@[simp] theorem bump_coh (s : State) (c : Ctr) : (bump s c).coh = s.coh := rfl
@[simp] theorem bump_carry (s : State) (c : Ctr) : (bump s c).carry = s.carry := rfl
@[simp] theorem bump_sieve (s : State) (c : Ctr) : (bump s c).sieve = s.sieve := rfl
@[simp] theorem bump_mover (s : State) (c : Ctr) : (bump s c).mover = s.mover := rfl
@[simp] theorem bump_bead (s : State) (c : Ctr) : (bump s c).bead = s.bead := rfl
@[simp] theorem bump_queues (s : State) (c : Ctr) : (bump s c).queues = s.queues := rfl
@[simp] theorem bump_ten (s : State) (c : Ctr) : (bump s c).ten = s.ten := rfl
@[simp] theorem bump_map (s : State) (c : Ctr) : (bump s c).map = s.map := rfl
@[simp] theorem bump_spares (s : State) (c : Ctr) : (bump s c).spares = s.spares := rfl
@[simp] theorem bump_rkn (s : State) (c : Ctr) : (bump s c).rkn = s.rkn := rfl
@[simp] theorem bump_clock (s : State) (c : Ctr) : (bump s c).clock = s.clock := rfl
@[simp] theorem bump_supply (s : State) (c : Ctr) : (bump s c).supply = s.supply := rfl

@[simp] theorem setRegWord_pending (s : State) (a : Nat) (w : Word) : (setRegWord s a w).pending = s.pending := rfl
@[simp] theorem setRegWord_now (s : State) (a : Nat) (w : Word) : (setRegWord s a w).now = s.now := rfl
@[simp] theorem setRegWord_free (s : State) (a : Nat) (w : Word) : (setRegWord s a w).free = s.free := rfl
@[simp] theorem setRegWord_regsPending (s : State) (a : Nat) (w : Word) : (setRegWord s a w).regsPending = s.regsPending := rfl
@[simp] theorem setRegWord_regsLive (s : State) (a : Nat) (w : Word) : (setRegWord s a w).regsLive = s.regsLive := rfl
@[simp] theorem setRegWord_ctrs (s : State) (a : Nat) (w : Word) : (setRegWord s a w).ctrs = s.ctrs := rfl
@[simp] theorem setRegWord_events (s : State) (a : Nat) (w : Word) : (setRegWord s a w).events = s.events := rfl
@[simp] theorem setRegWord_dies (s : State) (a : Nat) (w : Word) : (setRegWord s a w).dies = s.dies := rfl
@[simp] theorem setRegWord_admitted (s : State) (a : Nat) (w : Word) : (setRegWord s a w).admitted = s.admitted := rfl
@[simp] theorem setRegWord_deck (s : State) (a : Nat) (w : Word) : (setRegWord s a w).deck = s.deck := rfl
@[simp] theorem setRegWord_links (s : State) (a : Nat) (w : Word) : (setRegWord s a w).links = s.links := rfl
@[simp] theorem setRegWord_net (s : State) (a : Nat) (w : Word) : (setRegWord s a w).net = s.net := rfl
@[simp] theorem setRegWord_pool (s : State) (a : Nat) (w : Word) : (setRegWord s a w).pool = s.pool := rfl
@[simp] theorem setRegWord_win (s : State) (a : Nat) (w : Word) : (setRegWord s a w).win = s.win := rfl
@[simp] theorem setRegWord_coh (s : State) (a : Nat) (w : Word) : (setRegWord s a w).coh = s.coh := rfl
@[simp] theorem setRegWord_carry (s : State) (a : Nat) (w : Word) : (setRegWord s a w).carry = s.carry := rfl
@[simp] theorem setRegWord_sieve (s : State) (a : Nat) (w : Word) : (setRegWord s a w).sieve = s.sieve := rfl
@[simp] theorem setRegWord_mover (s : State) (a : Nat) (w : Word) : (setRegWord s a w).mover = s.mover := rfl
@[simp] theorem setRegWord_bead (s : State) (a : Nat) (w : Word) : (setRegWord s a w).bead = s.bead := rfl
@[simp] theorem setRegWord_queues (s : State) (a : Nat) (w : Word) : (setRegWord s a w).queues = s.queues := rfl
@[simp] theorem setRegWord_ten (s : State) (a : Nat) (w : Word) : (setRegWord s a w).ten = s.ten := rfl
@[simp] theorem setRegWord_map (s : State) (a : Nat) (w : Word) : (setRegWord s a w).map = s.map := rfl
@[simp] theorem setRegWord_spares (s : State) (a : Nat) (w : Word) : (setRegWord s a w).spares = s.spares := rfl
@[simp] theorem setRegWord_rkn (s : State) (a : Nat) (w : Word) : (setRegWord s a w).rkn = s.rkn := rfl
@[simp] theorem setRegWord_clock (s : State) (a : Nat) (w : Word) : (setRegWord s a w).clock = s.clock := rfl
@[simp] theorem setRegWord_supply (s : State) (a : Nat) (w : Word) : (setRegWord s a w).supply = s.supply := rfl

@[simp] theorem setEvt_pending (s : State) (a b : Nat) : (setEvt s a b).pending = s.pending := rfl
@[simp] theorem setEvt_now (s : State) (a b : Nat) : (setEvt s a b).now = s.now := rfl
@[simp] theorem setEvt_free (s : State) (a b : Nat) : (setEvt s a b).free = s.free := rfl
@[simp] theorem setEvt_regsPending (s : State) (a b : Nat) : (setEvt s a b).regsPending = s.regsPending := rfl
@[simp] theorem setEvt_regsLive (s : State) (a b : Nat) : (setEvt s a b).regsLive = s.regsLive := rfl
@[simp] theorem setEvt_ctrs (s : State) (a b : Nat) : (setEvt s a b).ctrs = s.ctrs := rfl
@[simp] theorem setEvt_events (s : State) (a b : Nat) : (setEvt s a b).events = s.events := rfl
@[simp] theorem setEvt_dies (s : State) (a b : Nat) : (setEvt s a b).dies = s.dies := rfl
@[simp] theorem setEvt_admitted (s : State) (a b : Nat) : (setEvt s a b).admitted = s.admitted := rfl
@[simp] theorem setEvt_deck (s : State) (a b : Nat) : (setEvt s a b).deck = s.deck := rfl
@[simp] theorem setEvt_links (s : State) (a b : Nat) : (setEvt s a b).links = s.links := rfl
@[simp] theorem setEvt_net (s : State) (a b : Nat) : (setEvt s a b).net = s.net := rfl
@[simp] theorem setEvt_pool (s : State) (a b : Nat) : (setEvt s a b).pool = s.pool := rfl
@[simp] theorem setEvt_win (s : State) (a b : Nat) : (setEvt s a b).win = s.win := rfl
@[simp] theorem setEvt_coh (s : State) (a b : Nat) : (setEvt s a b).coh = s.coh := rfl
@[simp] theorem setEvt_carry (s : State) (a b : Nat) : (setEvt s a b).carry = s.carry := rfl
@[simp] theorem setEvt_sieve (s : State) (a b : Nat) : (setEvt s a b).sieve = s.sieve := rfl
@[simp] theorem setEvt_mover (s : State) (a b : Nat) : (setEvt s a b).mover = s.mover := rfl
@[simp] theorem setEvt_bead (s : State) (a b : Nat) : (setEvt s a b).bead = s.bead := rfl
@[simp] theorem setEvt_queues (s : State) (a b : Nat) : (setEvt s a b).queues = s.queues := rfl
@[simp] theorem setEvt_ten (s : State) (a b : Nat) : (setEvt s a b).ten = s.ten := rfl
@[simp] theorem setEvt_map (s : State) (a b : Nat) : (setEvt s a b).map = s.map := rfl
@[simp] theorem setEvt_spares (s : State) (a b : Nat) : (setEvt s a b).spares = s.spares := rfl
@[simp] theorem setEvt_rkn (s : State) (a b : Nat) : (setEvt s a b).rkn = s.rkn := rfl
@[simp] theorem setEvt_clock (s : State) (a b : Nat) : (setEvt s a b).clock = s.clock := rfl
@[simp] theorem setEvt_supply (s : State) (a b : Nat) : (setEvt s a b).supply = s.supply := rfl

@[simp] theorem drawFree_pending (s : State) : ((drawFree s).2).pending = s.pending := rfl
@[simp] theorem drawFree_now (s : State) : ((drawFree s).2).now = s.now := rfl
@[simp] theorem drawFree_regs (s : State) : ((drawFree s).2).regs = s.regs := rfl
@[simp] theorem drawFree_regsPending (s : State) : ((drawFree s).2).regsPending = s.regsPending := rfl
@[simp] theorem drawFree_regsLive (s : State) : ((drawFree s).2).regsLive = s.regsLive := rfl
@[simp] theorem drawFree_ctrs (s : State) : ((drawFree s).2).ctrs = s.ctrs := rfl
@[simp] theorem drawFree_events (s : State) : ((drawFree s).2).events = s.events := rfl
@[simp] theorem drawFree_dies (s : State) : ((drawFree s).2).dies = s.dies := rfl
@[simp] theorem drawFree_admitted (s : State) : ((drawFree s).2).admitted = s.admitted := rfl
@[simp] theorem drawFree_deck (s : State) : ((drawFree s).2).deck = s.deck := rfl
@[simp] theorem drawFree_links (s : State) : ((drawFree s).2).links = s.links := rfl
@[simp] theorem drawFree_net (s : State) : ((drawFree s).2).net = s.net := rfl
@[simp] theorem drawFree_pool (s : State) : ((drawFree s).2).pool = s.pool := rfl
@[simp] theorem drawFree_win (s : State) : ((drawFree s).2).win = s.win := rfl
@[simp] theorem drawFree_coh (s : State) : ((drawFree s).2).coh = s.coh := rfl
@[simp] theorem drawFree_carry (s : State) : ((drawFree s).2).carry = s.carry := rfl
@[simp] theorem drawFree_sieve (s : State) : ((drawFree s).2).sieve = s.sieve := rfl
@[simp] theorem drawFree_mover (s : State) : ((drawFree s).2).mover = s.mover := rfl
@[simp] theorem drawFree_bead (s : State) : ((drawFree s).2).bead = s.bead := rfl
@[simp] theorem drawFree_queues (s : State) : ((drawFree s).2).queues = s.queues := rfl
@[simp] theorem drawFree_ten (s : State) : ((drawFree s).2).ten = s.ten := rfl
@[simp] theorem drawFree_map (s : State) : ((drawFree s).2).map = s.map := rfl
@[simp] theorem drawFree_spares (s : State) : ((drawFree s).2).spares = s.spares := rfl
@[simp] theorem drawFree_rkn (s : State) : ((drawFree s).2).rkn = s.rkn := rfl
@[simp] theorem drawFree_clock (s : State) : ((drawFree s).2).clock = s.clock := rfl
@[simp] theorem drawFree_supply (s : State) : ((drawFree s).2).supply = s.supply := rfl

@[simp] theorem tick_pending (s : State) : (tick s).pending = s.pending := rfl
@[simp] theorem tick_free (s : State) : (tick s).free = s.free := rfl
@[simp] theorem tick_regs (s : State) : (tick s).regs = s.regs := rfl
@[simp] theorem tick_regsPending (s : State) : (tick s).regsPending = s.regsPending := rfl
@[simp] theorem tick_regsLive (s : State) : (tick s).regsLive = s.regsLive := rfl
@[simp] theorem tick_ctrs (s : State) : (tick s).ctrs = s.ctrs := rfl
@[simp] theorem tick_events (s : State) : (tick s).events = s.events := rfl
@[simp] theorem tick_dies (s : State) : (tick s).dies = s.dies := rfl
@[simp] theorem tick_admitted (s : State) : (tick s).admitted = s.admitted := rfl
@[simp] theorem tick_deck (s : State) : (tick s).deck = s.deck := rfl
@[simp] theorem tick_links (s : State) : (tick s).links = s.links := rfl
@[simp] theorem tick_net (s : State) : (tick s).net = s.net := rfl
@[simp] theorem tick_pool (s : State) : (tick s).pool = s.pool := rfl
@[simp] theorem tick_win (s : State) : (tick s).win = s.win := rfl
@[simp] theorem tick_coh (s : State) : (tick s).coh = s.coh := rfl
@[simp] theorem tick_carry (s : State) : (tick s).carry = s.carry := rfl
@[simp] theorem tick_sieve (s : State) : (tick s).sieve = s.sieve := rfl
@[simp] theorem tick_mover (s : State) : (tick s).mover = s.mover := rfl
@[simp] theorem tick_bead (s : State) : (tick s).bead = s.bead := rfl
@[simp] theorem tick_queues (s : State) : (tick s).queues = s.queues := rfl
@[simp] theorem tick_ten (s : State) : (tick s).ten = s.ten := rfl
@[simp] theorem tick_map (s : State) : (tick s).map = s.map := rfl
@[simp] theorem tick_spares (s : State) : (tick s).spares = s.spares := rfl
@[simp] theorem tick_rkn (s : State) : (tick s).rkn = s.rkn := rfl
@[simp] theorem tick_supply (s : State) : (tick s).supply = s.supply := rfl

@[simp] theorem putBytes_pending (s : State) (a : Nat) (bs : List Byte) : (putBytes s a bs).pending = s.pending := rfl
@[simp] theorem putBytes_now (s : State) (a : Nat) (bs : List Byte) : (putBytes s a bs).now = s.now := rfl
@[simp] theorem putBytes_free (s : State) (a : Nat) (bs : List Byte) : (putBytes s a bs).free = s.free := rfl
@[simp] theorem putBytes_regs (s : State) (a : Nat) (bs : List Byte) : (putBytes s a bs).regs = s.regs := rfl
@[simp] theorem putBytes_regsPending (s : State) (a : Nat) (bs : List Byte) : (putBytes s a bs).regsPending = s.regsPending := rfl
@[simp] theorem putBytes_regsLive (s : State) (a : Nat) (bs : List Byte) : (putBytes s a bs).regsLive = s.regsLive := rfl
@[simp] theorem putBytes_ctrs (s : State) (a : Nat) (bs : List Byte) : (putBytes s a bs).ctrs = s.ctrs := rfl
@[simp] theorem putBytes_events (s : State) (a : Nat) (bs : List Byte) : (putBytes s a bs).events = s.events := rfl
@[simp] theorem putBytes_dies (s : State) (a : Nat) (bs : List Byte) : (putBytes s a bs).dies = s.dies := rfl
@[simp] theorem putBytes_admitted (s : State) (a : Nat) (bs : List Byte) : (putBytes s a bs).admitted = s.admitted := rfl
@[simp] theorem putBytes_deck (s : State) (a : Nat) (bs : List Byte) : (putBytes s a bs).deck = s.deck := rfl
@[simp] theorem putBytes_links (s : State) (a : Nat) (bs : List Byte) : (putBytes s a bs).links = s.links := rfl
@[simp] theorem putBytes_net (s : State) (a : Nat) (bs : List Byte) : (putBytes s a bs).net = s.net := rfl
@[simp] theorem putBytes_win (s : State) (a : Nat) (bs : List Byte) : (putBytes s a bs).win = s.win := rfl
@[simp] theorem putBytes_coh (s : State) (a : Nat) (bs : List Byte) : (putBytes s a bs).coh = s.coh := rfl
@[simp] theorem putBytes_carry (s : State) (a : Nat) (bs : List Byte) : (putBytes s a bs).carry = s.carry := rfl
@[simp] theorem putBytes_sieve (s : State) (a : Nat) (bs : List Byte) : (putBytes s a bs).sieve = s.sieve := rfl
@[simp] theorem putBytes_mover (s : State) (a : Nat) (bs : List Byte) : (putBytes s a bs).mover = s.mover := rfl
@[simp] theorem putBytes_bead (s : State) (a : Nat) (bs : List Byte) : (putBytes s a bs).bead = s.bead := rfl
@[simp] theorem putBytes_queues (s : State) (a : Nat) (bs : List Byte) : (putBytes s a bs).queues = s.queues := rfl
@[simp] theorem putBytes_ten (s : State) (a : Nat) (bs : List Byte) : (putBytes s a bs).ten = s.ten := rfl
@[simp] theorem putBytes_map (s : State) (a : Nat) (bs : List Byte) : (putBytes s a bs).map = s.map := rfl
@[simp] theorem putBytes_spares (s : State) (a : Nat) (bs : List Byte) : (putBytes s a bs).spares = s.spares := rfl
@[simp] theorem putBytes_rkn (s : State) (a : Nat) (bs : List Byte) : (putBytes s a bs).rkn = s.rkn := rfl
@[simp] theorem putBytes_clock (s : State) (a : Nat) (bs : List Byte) : (putBytes s a bs).clock = s.clock := rfl
@[simp] theorem putBytes_supply (s : State) (a : Nat) (bs : List Byte) : (putBytes s a bs).supply = s.supply := rfl

@[simp] theorem setLine_pending (s : State) (l : Nat) (i : LineInfo) : (setLine s l i).pending = s.pending := rfl
@[simp] theorem setLine_now (s : State) (l : Nat) (i : LineInfo) : (setLine s l i).now = s.now := rfl
@[simp] theorem setLine_free (s : State) (l : Nat) (i : LineInfo) : (setLine s l i).free = s.free := rfl
@[simp] theorem setLine_regs (s : State) (l : Nat) (i : LineInfo) : (setLine s l i).regs = s.regs := rfl
@[simp] theorem setLine_regsPending (s : State) (l : Nat) (i : LineInfo) : (setLine s l i).regsPending = s.regsPending := rfl
@[simp] theorem setLine_regsLive (s : State) (l : Nat) (i : LineInfo) : (setLine s l i).regsLive = s.regsLive := rfl
@[simp] theorem setLine_ctrs (s : State) (l : Nat) (i : LineInfo) : (setLine s l i).ctrs = s.ctrs := rfl
@[simp] theorem setLine_events (s : State) (l : Nat) (i : LineInfo) : (setLine s l i).events = s.events := rfl
@[simp] theorem setLine_dies (s : State) (l : Nat) (i : LineInfo) : (setLine s l i).dies = s.dies := rfl
@[simp] theorem setLine_admitted (s : State) (l : Nat) (i : LineInfo) : (setLine s l i).admitted = s.admitted := rfl
@[simp] theorem setLine_deck (s : State) (l : Nat) (i : LineInfo) : (setLine s l i).deck = s.deck := rfl
@[simp] theorem setLine_links (s : State) (l : Nat) (i : LineInfo) : (setLine s l i).links = s.links := rfl
@[simp] theorem setLine_net (s : State) (l : Nat) (i : LineInfo) : (setLine s l i).net = s.net := rfl
@[simp] theorem setLine_win (s : State) (l : Nat) (i : LineInfo) : (setLine s l i).win = s.win := rfl
@[simp] theorem setLine_coh (s : State) (l : Nat) (i : LineInfo) : (setLine s l i).coh = s.coh := rfl
@[simp] theorem setLine_carry (s : State) (l : Nat) (i : LineInfo) : (setLine s l i).carry = s.carry := rfl
@[simp] theorem setLine_sieve (s : State) (l : Nat) (i : LineInfo) : (setLine s l i).sieve = s.sieve := rfl
@[simp] theorem setLine_mover (s : State) (l : Nat) (i : LineInfo) : (setLine s l i).mover = s.mover := rfl
@[simp] theorem setLine_bead (s : State) (l : Nat) (i : LineInfo) : (setLine s l i).bead = s.bead := rfl
@[simp] theorem setLine_queues (s : State) (l : Nat) (i : LineInfo) : (setLine s l i).queues = s.queues := rfl
@[simp] theorem setLine_ten (s : State) (l : Nat) (i : LineInfo) : (setLine s l i).ten = s.ten := rfl
@[simp] theorem setLine_map (s : State) (l : Nat) (i : LineInfo) : (setLine s l i).map = s.map := rfl
@[simp] theorem setLine_spares (s : State) (l : Nat) (i : LineInfo) : (setLine s l i).spares = s.spares := rfl
@[simp] theorem setLine_rkn (s : State) (l : Nat) (i : LineInfo) : (setLine s l i).rkn = s.rkn := rfl
@[simp] theorem setLine_clock (s : State) (l : Nat) (i : LineInfo) : (setLine s l i).clock = s.clock := rfl
@[simp] theorem setLine_supply (s : State) (l : Nat) (i : LineInfo) : (setLine s l i).supply = s.supply := rfl

@[simp] theorem setMbox_pending (s : State) (m : MboxId) (b : Mbox) : (setMbox s m b).pending = s.pending := rfl
@[simp] theorem setMbox_now (s : State) (m : MboxId) (b : Mbox) : (setMbox s m b).now = s.now := rfl
@[simp] theorem setMbox_free (s : State) (m : MboxId) (b : Mbox) : (setMbox s m b).free = s.free := rfl
@[simp] theorem setMbox_regs (s : State) (m : MboxId) (b : Mbox) : (setMbox s m b).regs = s.regs := rfl
@[simp] theorem setMbox_regsPending (s : State) (m : MboxId) (b : Mbox) : (setMbox s m b).regsPending = s.regsPending := rfl
@[simp] theorem setMbox_regsLive (s : State) (m : MboxId) (b : Mbox) : (setMbox s m b).regsLive = s.regsLive := rfl
@[simp] theorem setMbox_ctrs (s : State) (m : MboxId) (b : Mbox) : (setMbox s m b).ctrs = s.ctrs := rfl
@[simp] theorem setMbox_events (s : State) (m : MboxId) (b : Mbox) : (setMbox s m b).events = s.events := rfl
@[simp] theorem setMbox_dies (s : State) (m : MboxId) (b : Mbox) : (setMbox s m b).dies = s.dies := rfl
@[simp] theorem setMbox_admitted (s : State) (m : MboxId) (b : Mbox) : (setMbox s m b).admitted = s.admitted := rfl
@[simp] theorem setMbox_deck (s : State) (m : MboxId) (b : Mbox) : (setMbox s m b).deck = s.deck := rfl
@[simp] theorem setMbox_links (s : State) (m : MboxId) (b : Mbox) : (setMbox s m b).links = s.links := rfl
@[simp] theorem setMbox_net (s : State) (m : MboxId) (b : Mbox) : (setMbox s m b).net = s.net := rfl
@[simp] theorem setMbox_pool (s : State) (m : MboxId) (b : Mbox) : (setMbox s m b).pool = s.pool := rfl
@[simp] theorem setMbox_win (s : State) (m : MboxId) (b : Mbox) : (setMbox s m b).win = s.win := rfl
@[simp] theorem setMbox_coh (s : State) (m : MboxId) (b : Mbox) : (setMbox s m b).coh = s.coh := rfl
@[simp] theorem setMbox_carry (s : State) (m : MboxId) (b : Mbox) : (setMbox s m b).carry = s.carry := rfl
@[simp] theorem setMbox_sieve (s : State) (m : MboxId) (b : Mbox) : (setMbox s m b).sieve = s.sieve := rfl
@[simp] theorem setMbox_mover (s : State) (m : MboxId) (b : Mbox) : (setMbox s m b).mover = s.mover := rfl
@[simp] theorem setMbox_bead (s : State) (m : MboxId) (b : Mbox) : (setMbox s m b).bead = s.bead := rfl
@[simp] theorem setMbox_queues (s : State) (m : MboxId) (b : Mbox) : (setMbox s m b).queues = s.queues := rfl
@[simp] theorem setMbox_ten (s : State) (m : MboxId) (b : Mbox) : (setMbox s m b).ten = s.ten := rfl
@[simp] theorem setMbox_map (s : State) (m : MboxId) (b : Mbox) : (setMbox s m b).map = s.map := rfl
@[simp] theorem setMbox_spares (s : State) (m : MboxId) (b : Mbox) : (setMbox s m b).spares = s.spares := rfl
@[simp] theorem setMbox_clock (s : State) (m : MboxId) (b : Mbox) : (setMbox s m b).clock = s.clock := rfl
@[simp] theorem setMbox_supply (s : State) (m : MboxId) (b : Mbox) : (setMbox s m b).supply = s.supply := rfl

@[simp] theorem withPending_now (s : State) (l : List Instr) : (withPending s l).now = s.now := rfl
@[simp] theorem withPending_free (s : State) (l : List Instr) : (withPending s l).free = s.free := rfl
@[simp] theorem withPending_regs (s : State) (l : List Instr) : (withPending s l).regs = s.regs := rfl
@[simp] theorem withPending_regsPending (s : State) (l : List Instr) : (withPending s l).regsPending = s.regsPending := rfl
@[simp] theorem withPending_regsLive (s : State) (l : List Instr) : (withPending s l).regsLive = s.regsLive := rfl
@[simp] theorem withPending_ctrs (s : State) (l : List Instr) : (withPending s l).ctrs = s.ctrs := rfl
@[simp] theorem withPending_events (s : State) (l : List Instr) : (withPending s l).events = s.events := rfl
@[simp] theorem withPending_dies (s : State) (l : List Instr) : (withPending s l).dies = s.dies := rfl
@[simp] theorem withPending_admitted (s : State) (l : List Instr) : (withPending s l).admitted = s.admitted := rfl
@[simp] theorem withPending_deck (s : State) (l : List Instr) : (withPending s l).deck = s.deck := rfl
@[simp] theorem withPending_links (s : State) (l : List Instr) : (withPending s l).links = s.links := rfl
@[simp] theorem withPending_net (s : State) (l : List Instr) : (withPending s l).net = s.net := rfl
@[simp] theorem withPending_pool (s : State) (l : List Instr) : (withPending s l).pool = s.pool := rfl
@[simp] theorem withPending_win (s : State) (l : List Instr) : (withPending s l).win = s.win := rfl
@[simp] theorem withPending_coh (s : State) (l : List Instr) : (withPending s l).coh = s.coh := rfl
@[simp] theorem withPending_carry (s : State) (l : List Instr) : (withPending s l).carry = s.carry := rfl
@[simp] theorem withPending_sieve (s : State) (l : List Instr) : (withPending s l).sieve = s.sieve := rfl
@[simp] theorem withPending_mover (s : State) (l : List Instr) : (withPending s l).mover = s.mover := rfl
@[simp] theorem withPending_bead (s : State) (l : List Instr) : (withPending s l).bead = s.bead := rfl
@[simp] theorem withPending_queues (s : State) (l : List Instr) : (withPending s l).queues = s.queues := rfl
@[simp] theorem withPending_ten (s : State) (l : List Instr) : (withPending s l).ten = s.ten := rfl
@[simp] theorem withPending_map (s : State) (l : List Instr) : (withPending s l).map = s.map := rfl
@[simp] theorem withPending_spares (s : State) (l : List Instr) : (withPending s l).spares = s.spares := rfl
@[simp] theorem withPending_rkn (s : State) (l : List Instr) : (withPending s l).rkn = s.rkn := rfl
@[simp] theorem withPending_clock (s : State) (l : List Instr) : (withPending s l).clock = s.clock := rfl
@[simp] theorem withPending_supply (s : State) (l : List Instr) : (withPending s l).supply = s.supply := rfl

@[simp] theorem withPending_pending (s : State) (l : List Instr) : (withPending s l).pending = l := rfl
@[simp] theorem tick_now (s : State) : (tick s).now = s.now + 1 := rfl
@[simp] theorem tick_clock (s : State) : (tick s).clock = if s.supply.phase = 0 then s.clock else tickClock s.clock := rfl
@[simp] theorem drawFree_free (s : State) : (drawFree s).2.free = s.free + 1 := rfl
@[simp] theorem drawFree_value (s : State) : (drawFree s).1 = Config.freeValue s.free := rfl
@[simp] theorem putBytes_mem (s : State) (a : Nat) (bs : List Byte) : (putBytes s a bs).pool.mem = memStore s.pool.mem a bs := rfl
@[simp] theorem setLine_mem (s : State) (l : Nat) (i : LineInfo) : (setLine s l i).pool.mem = s.pool.mem := rfl

end Sys2Proof.Machine
end

