-- ==== Sys2Proof/Laws/Ops.lean ====
section
/-! SUPPORT. What answering a command and raising an event record can change: the Reckoner, counters, the event log and the event bits, and nothing else. -/

namespace Sys2Proof.Machine

/-- Only the Reckoner differs. -/
def RknOnly (s t : State) : Prop := t = { s with rkn := t.rkn }

/-- Only the Reckoner and counters differ. -/
def AnswerOnly (s t : State) : Prop := t = { s with rkn := t.rkn, ctrs := t.ctrs }

/-- Only the Reckoner, counters, the event log and register words differ. -/
def EventOnly (s t : State) : Prop := t = { s with rkn := t.rkn, ctrs := t.ctrs, events := t.events, regs := t.regs }

theorem RknOnly.trans {a b c : State} (h : RknOnly a b) (k : RknOnly b c) : RknOnly a c := by
  unfold RknOnly at *
  rw [k, h]

theorem AnswerOnly.trans {a b c : State} (h : AnswerOnly a b) (k : AnswerOnly b c) : AnswerOnly a c := by
  unfold AnswerOnly at *
  rw [k, h]

theorem EventOnly.trans {a b c : State} (h : EventOnly a b) (k : EventOnly b c) : EventOnly a c := by
  unfold EventOnly at *
  rw [k, h]

theorem RknOnly.answer {a b : State} (h : RknOnly a b) : AnswerOnly a b := by
  unfold RknOnly AnswerOnly at *
  rw [h]

theorem AnswerOnly.event {a b : State} (h : AnswerOnly a b) : EventOnly a b := by
  unfold AnswerOnly EventOnly at *
  rw [h]

/-- A fold of steps that only differ in the Reckoner. -/
theorem rknOnly_foldl {β : Type} (f : State → β → State) (hf : ∀ s x, RknOnly s (f s x)) (l : List β) (s : State) : RknOnly s (l.foldl f s) := by
  induction l generalizing s with
  | nil => rfl
  | cons x r ih => exact (hf s x).trans (ih (f s x))

theorem rknOnly_setMbox (s : State) (m : MboxId) (b : Mbox) : RknOnly s (setMbox s m b) := rfl

theorem rknOnly_sendSealed (s : State) (i : Nat) (e : Session) (n : Nat) (l : List (List Byte)) : RknOnly s (sendSealed s i e n l) := rfl

/-- The same of a fold that also counts. -/
theorem rknOnly_foldPair {β : Type} (f : State × Nat → β → State × Nat) (hf : ∀ st x, RknOnly st.1 (f st x).1) (l : List β) (st : State × Nat) :
    RknOnly st.1 (l.foldl f st).1 := by
  induction l generalizing st with
  | nil => rfl
  | cons x r ih => exact (hf st x).trans (ih (f st x))

theorem rknOnly_pushSession (s : State) (i : Nat) (l : List (List Byte)) : RknOnly s (pushSession s i l) := by
  unfold pushSession
  split
  · rfl
  · exact RknOnly.trans (b := { s with rkn := _ }) rfl (rknOnly_foldPair _ (fun _ _ => rknOnly_sendSealed _ _ _ _ _) _ _)

theorem rknOnly_pushEvent (s : State) (r : EventRec) : RknOnly s (pushEvent s r) :=
  rknOnly_foldl _ (fun _ _ => rknOnly_pushSession _ _ _) _ _

theorem rknOnly_sendResponse (s : State) (c : Caller) (r : Response) : RknOnly s (sendResponse s c r) := by
  unfold sendResponse
  split
  · exact rknOnly_pushSession _ _ _
  · exact rknOnly_setMbox _ _ _
  · rfl
  · rfl

theorem answerOnly_bumpBy (s : State) (c : Ctr) (n : Nat) : AnswerOnly s (bumpBy s c n) := rfl

theorem answerOnly_bump (s : State) (c : Ctr) : AnswerOnly s (bump s c) := rfl

theorem answerOnly_ite {p : Prop} [Decidable p] {s a b : State} (ha : AnswerOnly s a) (hb : AnswerOnly s b) : AnswerOnly s (if p then a else b) := by
  split <;> assumption

theorem answerOnly_deliver (s : State) (c : Caller) (r : Response) : AnswerOnly s (deliver s c r) := by
  unfold deliver
  refine answerOnly_ite (AnswerOnly.trans ?_ (rknOnly_sendResponse _ _ _).answer) ?_
  all_goals
    refine answerOnly_ite (AnswerOnly.trans ?_ (answerOnly_bump _ _)) ?_
    all_goals
      refine answerOnly_ite ?_ (AnswerOnly.trans ?_ (answerOnly_bump _ _))
      all_goals exact AnswerOnly.trans (b := setMbox s _ _) rfl rfl

theorem answerOnly_answer (s : State) (c : Caller) (op k d : Nat) (b : List Byte) : AnswerOnly s (answer s c op k d b) := by
  unfold answer
  split
  · rfl
  · exact answerOnly_deliver _ _ _

theorem answerOnly_answerOk (s : State) (c : Caller) (op : Nat) (b : List Byte) : AnswerOnly s (answerOk s c op b) := answerOnly_answer _ _ _ _ _ _

theorem answerOnly_startCmd (s : State) (c : Caller) : AnswerOnly s (startCmd s c) := by
  unfold startCmd
  exact AnswerOnly.trans (b := { s with rkn := _ }) rfl (answerOnly_bump _ _)

theorem eventOnly_writeRing (s : State) (r : EventRec) : EventOnly s (writeRing s r) := by
  unfold writeRing
  dsimp only
  generalize hev : EventLog.mk _ _ _ _ _ _ _ _ = ev
  exact EventOnly.trans (EventOnly.trans (b := { s with events := ev }) rfl (answerOnly_bump _ _).event) (rknOnly_pushEvent _ _).answer.event

theorem eventOnly_logEvent (s : State) (r : EventRec) : EventOnly s (logEvent s r) := by
  unfold logEvent
  dsimp only
  split
  · exact EventOnly.trans (b := { s with events := _ }) rfl (eventOnly_writeRing _ _)
  · split <;> rfl

theorem eventOnly_raise (s : State) (r : EventRec) : EventOnly s (raise s r) := by
  unfold raise
  dsimp only
  split
  · split
    · rfl
    · exact EventOnly.trans (b := { s with events := _ }) rfl (eventOnly_logEvent _ _)
  · exact EventOnly.trans (b := { s with events := _ }) rfl (eventOnly_logEvent _ _)

theorem eventOnly_event (s : State) (a b c d e f : Nat) : EventOnly s (event s a b c d e f) := eventOnly_raise _ _

@[simp] theorem answer_pending (s : State) (c : Caller) (op k d : Nat) (b : List Byte) : (answer s c op k d b).pending = s.pending := by rw [answerOnly_answer s c op k d b]
@[simp] theorem answer_now (s : State) (c : Caller) (op k d : Nat) (b : List Byte) : (answer s c op k d b).now = s.now := by rw [answerOnly_answer s c op k d b]
@[simp] theorem answer_free (s : State) (c : Caller) (op k d : Nat) (b : List Byte) : (answer s c op k d b).free = s.free := by rw [answerOnly_answer s c op k d b]
@[simp] theorem answer_regs (s : State) (c : Caller) (op k d : Nat) (b : List Byte) : (answer s c op k d b).regs = s.regs := by rw [answerOnly_answer s c op k d b]
@[simp] theorem answer_regsPending (s : State) (c : Caller) (op k d : Nat) (b : List Byte) : (answer s c op k d b).regsPending = s.regsPending := by rw [answerOnly_answer s c op k d b]
@[simp] theorem answer_regsLive (s : State) (c : Caller) (op k d : Nat) (b : List Byte) : (answer s c op k d b).regsLive = s.regsLive := by rw [answerOnly_answer s c op k d b]
@[simp] theorem answer_events (s : State) (c : Caller) (op k d : Nat) (b : List Byte) : (answer s c op k d b).events = s.events := by rw [answerOnly_answer s c op k d b]
@[simp] theorem answer_dies (s : State) (c : Caller) (op k d : Nat) (b : List Byte) : (answer s c op k d b).dies = s.dies := by rw [answerOnly_answer s c op k d b]
@[simp] theorem answer_admitted (s : State) (c : Caller) (op k d : Nat) (b : List Byte) : (answer s c op k d b).admitted = s.admitted := by rw [answerOnly_answer s c op k d b]
@[simp] theorem answer_deck (s : State) (c : Caller) (op k d : Nat) (b : List Byte) : (answer s c op k d b).deck = s.deck := by rw [answerOnly_answer s c op k d b]
@[simp] theorem answer_links (s : State) (c : Caller) (op k d : Nat) (b : List Byte) : (answer s c op k d b).links = s.links := by rw [answerOnly_answer s c op k d b]
@[simp] theorem answer_net (s : State) (c : Caller) (op k d : Nat) (b : List Byte) : (answer s c op k d b).net = s.net := by rw [answerOnly_answer s c op k d b]
@[simp] theorem answer_pool (s : State) (c : Caller) (op k d : Nat) (b : List Byte) : (answer s c op k d b).pool = s.pool := by rw [answerOnly_answer s c op k d b]
@[simp] theorem answer_win (s : State) (c : Caller) (op k d : Nat) (b : List Byte) : (answer s c op k d b).win = s.win := by rw [answerOnly_answer s c op k d b]
@[simp] theorem answer_coh (s : State) (c : Caller) (op k d : Nat) (b : List Byte) : (answer s c op k d b).coh = s.coh := by rw [answerOnly_answer s c op k d b]
@[simp] theorem answer_carry (s : State) (c : Caller) (op k d : Nat) (b : List Byte) : (answer s c op k d b).carry = s.carry := by rw [answerOnly_answer s c op k d b]
@[simp] theorem answer_sieve (s : State) (c : Caller) (op k d : Nat) (b : List Byte) : (answer s c op k d b).sieve = s.sieve := by rw [answerOnly_answer s c op k d b]
@[simp] theorem answer_mover (s : State) (c : Caller) (op k d : Nat) (b : List Byte) : (answer s c op k d b).mover = s.mover := by rw [answerOnly_answer s c op k d b]
@[simp] theorem answer_bead (s : State) (c : Caller) (op k d : Nat) (b : List Byte) : (answer s c op k d b).bead = s.bead := by rw [answerOnly_answer s c op k d b]
@[simp] theorem answer_queues (s : State) (c : Caller) (op k d : Nat) (b : List Byte) : (answer s c op k d b).queues = s.queues := by rw [answerOnly_answer s c op k d b]
@[simp] theorem answer_ten (s : State) (c : Caller) (op k d : Nat) (b : List Byte) : (answer s c op k d b).ten = s.ten := by rw [answerOnly_answer s c op k d b]
@[simp] theorem answer_map (s : State) (c : Caller) (op k d : Nat) (b : List Byte) : (answer s c op k d b).map = s.map := by rw [answerOnly_answer s c op k d b]
@[simp] theorem answer_spares (s : State) (c : Caller) (op k d : Nat) (b : List Byte) : (answer s c op k d b).spares = s.spares := by rw [answerOnly_answer s c op k d b]
@[simp] theorem answer_clock (s : State) (c : Caller) (op k d : Nat) (b : List Byte) : (answer s c op k d b).clock = s.clock := by rw [answerOnly_answer s c op k d b]
@[simp] theorem answer_supply (s : State) (c : Caller) (op k d : Nat) (b : List Byte) : (answer s c op k d b).supply = s.supply := by rw [answerOnly_answer s c op k d b]

@[simp] theorem answerOk_pending (s : State) (c : Caller) (op : Nat) (b : List Byte) : (answerOk s c op b).pending = s.pending := by rw [answerOnly_answerOk s c op b]
@[simp] theorem answerOk_now (s : State) (c : Caller) (op : Nat) (b : List Byte) : (answerOk s c op b).now = s.now := by rw [answerOnly_answerOk s c op b]
@[simp] theorem answerOk_free (s : State) (c : Caller) (op : Nat) (b : List Byte) : (answerOk s c op b).free = s.free := by rw [answerOnly_answerOk s c op b]
@[simp] theorem answerOk_regs (s : State) (c : Caller) (op : Nat) (b : List Byte) : (answerOk s c op b).regs = s.regs := by rw [answerOnly_answerOk s c op b]
@[simp] theorem answerOk_regsPending (s : State) (c : Caller) (op : Nat) (b : List Byte) : (answerOk s c op b).regsPending = s.regsPending := by rw [answerOnly_answerOk s c op b]
@[simp] theorem answerOk_regsLive (s : State) (c : Caller) (op : Nat) (b : List Byte) : (answerOk s c op b).regsLive = s.regsLive := by rw [answerOnly_answerOk s c op b]
@[simp] theorem answerOk_events (s : State) (c : Caller) (op : Nat) (b : List Byte) : (answerOk s c op b).events = s.events := by rw [answerOnly_answerOk s c op b]
@[simp] theorem answerOk_dies (s : State) (c : Caller) (op : Nat) (b : List Byte) : (answerOk s c op b).dies = s.dies := by rw [answerOnly_answerOk s c op b]
@[simp] theorem answerOk_admitted (s : State) (c : Caller) (op : Nat) (b : List Byte) : (answerOk s c op b).admitted = s.admitted := by rw [answerOnly_answerOk s c op b]
@[simp] theorem answerOk_deck (s : State) (c : Caller) (op : Nat) (b : List Byte) : (answerOk s c op b).deck = s.deck := by rw [answerOnly_answerOk s c op b]
@[simp] theorem answerOk_links (s : State) (c : Caller) (op : Nat) (b : List Byte) : (answerOk s c op b).links = s.links := by rw [answerOnly_answerOk s c op b]
@[simp] theorem answerOk_net (s : State) (c : Caller) (op : Nat) (b : List Byte) : (answerOk s c op b).net = s.net := by rw [answerOnly_answerOk s c op b]
@[simp] theorem answerOk_pool (s : State) (c : Caller) (op : Nat) (b : List Byte) : (answerOk s c op b).pool = s.pool := by rw [answerOnly_answerOk s c op b]
@[simp] theorem answerOk_win (s : State) (c : Caller) (op : Nat) (b : List Byte) : (answerOk s c op b).win = s.win := by rw [answerOnly_answerOk s c op b]
@[simp] theorem answerOk_coh (s : State) (c : Caller) (op : Nat) (b : List Byte) : (answerOk s c op b).coh = s.coh := by rw [answerOnly_answerOk s c op b]
@[simp] theorem answerOk_carry (s : State) (c : Caller) (op : Nat) (b : List Byte) : (answerOk s c op b).carry = s.carry := by rw [answerOnly_answerOk s c op b]
@[simp] theorem answerOk_sieve (s : State) (c : Caller) (op : Nat) (b : List Byte) : (answerOk s c op b).sieve = s.sieve := by rw [answerOnly_answerOk s c op b]
@[simp] theorem answerOk_mover (s : State) (c : Caller) (op : Nat) (b : List Byte) : (answerOk s c op b).mover = s.mover := by rw [answerOnly_answerOk s c op b]
@[simp] theorem answerOk_bead (s : State) (c : Caller) (op : Nat) (b : List Byte) : (answerOk s c op b).bead = s.bead := by rw [answerOnly_answerOk s c op b]
@[simp] theorem answerOk_queues (s : State) (c : Caller) (op : Nat) (b : List Byte) : (answerOk s c op b).queues = s.queues := by rw [answerOnly_answerOk s c op b]
@[simp] theorem answerOk_ten (s : State) (c : Caller) (op : Nat) (b : List Byte) : (answerOk s c op b).ten = s.ten := by rw [answerOnly_answerOk s c op b]
@[simp] theorem answerOk_map (s : State) (c : Caller) (op : Nat) (b : List Byte) : (answerOk s c op b).map = s.map := by rw [answerOnly_answerOk s c op b]
@[simp] theorem answerOk_spares (s : State) (c : Caller) (op : Nat) (b : List Byte) : (answerOk s c op b).spares = s.spares := by rw [answerOnly_answerOk s c op b]
@[simp] theorem answerOk_clock (s : State) (c : Caller) (op : Nat) (b : List Byte) : (answerOk s c op b).clock = s.clock := by rw [answerOnly_answerOk s c op b]
@[simp] theorem answerOk_supply (s : State) (c : Caller) (op : Nat) (b : List Byte) : (answerOk s c op b).supply = s.supply := by rw [answerOnly_answerOk s c op b]

@[simp] theorem startCmd_pending (s : State) (c : Caller) : (startCmd s c).pending = s.pending := by rw [answerOnly_startCmd s c]
@[simp] theorem startCmd_now (s : State) (c : Caller) : (startCmd s c).now = s.now := by rw [answerOnly_startCmd s c]
@[simp] theorem startCmd_free (s : State) (c : Caller) : (startCmd s c).free = s.free := by rw [answerOnly_startCmd s c]
@[simp] theorem startCmd_regs (s : State) (c : Caller) : (startCmd s c).regs = s.regs := by rw [answerOnly_startCmd s c]
@[simp] theorem startCmd_regsPending (s : State) (c : Caller) : (startCmd s c).regsPending = s.regsPending := by rw [answerOnly_startCmd s c]
@[simp] theorem startCmd_regsLive (s : State) (c : Caller) : (startCmd s c).regsLive = s.regsLive := by rw [answerOnly_startCmd s c]
@[simp] theorem startCmd_events (s : State) (c : Caller) : (startCmd s c).events = s.events := by rw [answerOnly_startCmd s c]
@[simp] theorem startCmd_dies (s : State) (c : Caller) : (startCmd s c).dies = s.dies := by rw [answerOnly_startCmd s c]
@[simp] theorem startCmd_admitted (s : State) (c : Caller) : (startCmd s c).admitted = s.admitted := by rw [answerOnly_startCmd s c]
@[simp] theorem startCmd_deck (s : State) (c : Caller) : (startCmd s c).deck = s.deck := by rw [answerOnly_startCmd s c]
@[simp] theorem startCmd_links (s : State) (c : Caller) : (startCmd s c).links = s.links := by rw [answerOnly_startCmd s c]
@[simp] theorem startCmd_net (s : State) (c : Caller) : (startCmd s c).net = s.net := by rw [answerOnly_startCmd s c]
@[simp] theorem startCmd_pool (s : State) (c : Caller) : (startCmd s c).pool = s.pool := by rw [answerOnly_startCmd s c]
@[simp] theorem startCmd_win (s : State) (c : Caller) : (startCmd s c).win = s.win := by rw [answerOnly_startCmd s c]
@[simp] theorem startCmd_coh (s : State) (c : Caller) : (startCmd s c).coh = s.coh := by rw [answerOnly_startCmd s c]
@[simp] theorem startCmd_carry (s : State) (c : Caller) : (startCmd s c).carry = s.carry := by rw [answerOnly_startCmd s c]
@[simp] theorem startCmd_sieve (s : State) (c : Caller) : (startCmd s c).sieve = s.sieve := by rw [answerOnly_startCmd s c]
@[simp] theorem startCmd_mover (s : State) (c : Caller) : (startCmd s c).mover = s.mover := by rw [answerOnly_startCmd s c]
@[simp] theorem startCmd_bead (s : State) (c : Caller) : (startCmd s c).bead = s.bead := by rw [answerOnly_startCmd s c]
@[simp] theorem startCmd_queues (s : State) (c : Caller) : (startCmd s c).queues = s.queues := by rw [answerOnly_startCmd s c]
@[simp] theorem startCmd_ten (s : State) (c : Caller) : (startCmd s c).ten = s.ten := by rw [answerOnly_startCmd s c]
@[simp] theorem startCmd_map (s : State) (c : Caller) : (startCmd s c).map = s.map := by rw [answerOnly_startCmd s c]
@[simp] theorem startCmd_spares (s : State) (c : Caller) : (startCmd s c).spares = s.spares := by rw [answerOnly_startCmd s c]
@[simp] theorem startCmd_clock (s : State) (c : Caller) : (startCmd s c).clock = s.clock := by rw [answerOnly_startCmd s c]
@[simp] theorem startCmd_supply (s : State) (c : Caller) : (startCmd s c).supply = s.supply := by rw [answerOnly_startCmd s c]

@[simp] theorem deliver_pending (s : State) (c : Caller) (r : Response) : (deliver s c r).pending = s.pending := by rw [answerOnly_deliver s c r]
@[simp] theorem deliver_now (s : State) (c : Caller) (r : Response) : (deliver s c r).now = s.now := by rw [answerOnly_deliver s c r]
@[simp] theorem deliver_free (s : State) (c : Caller) (r : Response) : (deliver s c r).free = s.free := by rw [answerOnly_deliver s c r]
@[simp] theorem deliver_regs (s : State) (c : Caller) (r : Response) : (deliver s c r).regs = s.regs := by rw [answerOnly_deliver s c r]
@[simp] theorem deliver_regsPending (s : State) (c : Caller) (r : Response) : (deliver s c r).regsPending = s.regsPending := by rw [answerOnly_deliver s c r]
@[simp] theorem deliver_regsLive (s : State) (c : Caller) (r : Response) : (deliver s c r).regsLive = s.regsLive := by rw [answerOnly_deliver s c r]
@[simp] theorem deliver_events (s : State) (c : Caller) (r : Response) : (deliver s c r).events = s.events := by rw [answerOnly_deliver s c r]
@[simp] theorem deliver_dies (s : State) (c : Caller) (r : Response) : (deliver s c r).dies = s.dies := by rw [answerOnly_deliver s c r]
@[simp] theorem deliver_admitted (s : State) (c : Caller) (r : Response) : (deliver s c r).admitted = s.admitted := by rw [answerOnly_deliver s c r]
@[simp] theorem deliver_deck (s : State) (c : Caller) (r : Response) : (deliver s c r).deck = s.deck := by rw [answerOnly_deliver s c r]
@[simp] theorem deliver_links (s : State) (c : Caller) (r : Response) : (deliver s c r).links = s.links := by rw [answerOnly_deliver s c r]
@[simp] theorem deliver_net (s : State) (c : Caller) (r : Response) : (deliver s c r).net = s.net := by rw [answerOnly_deliver s c r]
@[simp] theorem deliver_pool (s : State) (c : Caller) (r : Response) : (deliver s c r).pool = s.pool := by rw [answerOnly_deliver s c r]
@[simp] theorem deliver_win (s : State) (c : Caller) (r : Response) : (deliver s c r).win = s.win := by rw [answerOnly_deliver s c r]
@[simp] theorem deliver_coh (s : State) (c : Caller) (r : Response) : (deliver s c r).coh = s.coh := by rw [answerOnly_deliver s c r]
@[simp] theorem deliver_carry (s : State) (c : Caller) (r : Response) : (deliver s c r).carry = s.carry := by rw [answerOnly_deliver s c r]
@[simp] theorem deliver_sieve (s : State) (c : Caller) (r : Response) : (deliver s c r).sieve = s.sieve := by rw [answerOnly_deliver s c r]
@[simp] theorem deliver_mover (s : State) (c : Caller) (r : Response) : (deliver s c r).mover = s.mover := by rw [answerOnly_deliver s c r]
@[simp] theorem deliver_bead (s : State) (c : Caller) (r : Response) : (deliver s c r).bead = s.bead := by rw [answerOnly_deliver s c r]
@[simp] theorem deliver_queues (s : State) (c : Caller) (r : Response) : (deliver s c r).queues = s.queues := by rw [answerOnly_deliver s c r]
@[simp] theorem deliver_ten (s : State) (c : Caller) (r : Response) : (deliver s c r).ten = s.ten := by rw [answerOnly_deliver s c r]
@[simp] theorem deliver_map (s : State) (c : Caller) (r : Response) : (deliver s c r).map = s.map := by rw [answerOnly_deliver s c r]
@[simp] theorem deliver_spares (s : State) (c : Caller) (r : Response) : (deliver s c r).spares = s.spares := by rw [answerOnly_deliver s c r]
@[simp] theorem deliver_clock (s : State) (c : Caller) (r : Response) : (deliver s c r).clock = s.clock := by rw [answerOnly_deliver s c r]
@[simp] theorem deliver_supply (s : State) (c : Caller) (r : Response) : (deliver s c r).supply = s.supply := by rw [answerOnly_deliver s c r]

@[simp] theorem raise_pending (s : State) (r : EventRec) : (raise s r).pending = s.pending := by rw [eventOnly_raise s r]
@[simp] theorem raise_now (s : State) (r : EventRec) : (raise s r).now = s.now := by rw [eventOnly_raise s r]
@[simp] theorem raise_free (s : State) (r : EventRec) : (raise s r).free = s.free := by rw [eventOnly_raise s r]
@[simp] theorem raise_regsPending (s : State) (r : EventRec) : (raise s r).regsPending = s.regsPending := by rw [eventOnly_raise s r]
@[simp] theorem raise_regsLive (s : State) (r : EventRec) : (raise s r).regsLive = s.regsLive := by rw [eventOnly_raise s r]
@[simp] theorem raise_dies (s : State) (r : EventRec) : (raise s r).dies = s.dies := by rw [eventOnly_raise s r]
@[simp] theorem raise_admitted (s : State) (r : EventRec) : (raise s r).admitted = s.admitted := by rw [eventOnly_raise s r]
@[simp] theorem raise_deck (s : State) (r : EventRec) : (raise s r).deck = s.deck := by rw [eventOnly_raise s r]
@[simp] theorem raise_links (s : State) (r : EventRec) : (raise s r).links = s.links := by rw [eventOnly_raise s r]
@[simp] theorem raise_net (s : State) (r : EventRec) : (raise s r).net = s.net := by rw [eventOnly_raise s r]
@[simp] theorem raise_pool (s : State) (r : EventRec) : (raise s r).pool = s.pool := by rw [eventOnly_raise s r]
@[simp] theorem raise_win (s : State) (r : EventRec) : (raise s r).win = s.win := by rw [eventOnly_raise s r]
@[simp] theorem raise_coh (s : State) (r : EventRec) : (raise s r).coh = s.coh := by rw [eventOnly_raise s r]
@[simp] theorem raise_carry (s : State) (r : EventRec) : (raise s r).carry = s.carry := by rw [eventOnly_raise s r]
@[simp] theorem raise_sieve (s : State) (r : EventRec) : (raise s r).sieve = s.sieve := by rw [eventOnly_raise s r]
@[simp] theorem raise_mover (s : State) (r : EventRec) : (raise s r).mover = s.mover := by rw [eventOnly_raise s r]
@[simp] theorem raise_bead (s : State) (r : EventRec) : (raise s r).bead = s.bead := by rw [eventOnly_raise s r]
@[simp] theorem raise_queues (s : State) (r : EventRec) : (raise s r).queues = s.queues := by rw [eventOnly_raise s r]
@[simp] theorem raise_ten (s : State) (r : EventRec) : (raise s r).ten = s.ten := by rw [eventOnly_raise s r]
@[simp] theorem raise_map (s : State) (r : EventRec) : (raise s r).map = s.map := by rw [eventOnly_raise s r]
@[simp] theorem raise_spares (s : State) (r : EventRec) : (raise s r).spares = s.spares := by rw [eventOnly_raise s r]
@[simp] theorem raise_clock (s : State) (r : EventRec) : (raise s r).clock = s.clock := by rw [eventOnly_raise s r]
@[simp] theorem raise_supply (s : State) (r : EventRec) : (raise s r).supply = s.supply := by rw [eventOnly_raise s r]

@[simp] theorem event_pending (s : State) (a b c d e f : Nat) : (event s a b c d e f).pending = s.pending := by rw [eventOnly_event s a b c d e f]
@[simp] theorem event_now (s : State) (a b c d e f : Nat) : (event s a b c d e f).now = s.now := by rw [eventOnly_event s a b c d e f]
@[simp] theorem event_free (s : State) (a b c d e f : Nat) : (event s a b c d e f).free = s.free := by rw [eventOnly_event s a b c d e f]
@[simp] theorem event_regsPending (s : State) (a b c d e f : Nat) : (event s a b c d e f).regsPending = s.regsPending := by rw [eventOnly_event s a b c d e f]
@[simp] theorem event_regsLive (s : State) (a b c d e f : Nat) : (event s a b c d e f).regsLive = s.regsLive := by rw [eventOnly_event s a b c d e f]
@[simp] theorem event_dies (s : State) (a b c d e f : Nat) : (event s a b c d e f).dies = s.dies := by rw [eventOnly_event s a b c d e f]
@[simp] theorem event_admitted (s : State) (a b c d e f : Nat) : (event s a b c d e f).admitted = s.admitted := by rw [eventOnly_event s a b c d e f]
@[simp] theorem event_deck (s : State) (a b c d e f : Nat) : (event s a b c d e f).deck = s.deck := by rw [eventOnly_event s a b c d e f]
@[simp] theorem event_links (s : State) (a b c d e f : Nat) : (event s a b c d e f).links = s.links := by rw [eventOnly_event s a b c d e f]
@[simp] theorem event_net (s : State) (a b c d e f : Nat) : (event s a b c d e f).net = s.net := by rw [eventOnly_event s a b c d e f]
@[simp] theorem event_pool (s : State) (a b c d e f : Nat) : (event s a b c d e f).pool = s.pool := by rw [eventOnly_event s a b c d e f]
@[simp] theorem event_win (s : State) (a b c d e f : Nat) : (event s a b c d e f).win = s.win := by rw [eventOnly_event s a b c d e f]
@[simp] theorem event_coh (s : State) (a b c d e f : Nat) : (event s a b c d e f).coh = s.coh := by rw [eventOnly_event s a b c d e f]
@[simp] theorem event_carry (s : State) (a b c d e f : Nat) : (event s a b c d e f).carry = s.carry := by rw [eventOnly_event s a b c d e f]
@[simp] theorem event_sieve (s : State) (a b c d e f : Nat) : (event s a b c d e f).sieve = s.sieve := by rw [eventOnly_event s a b c d e f]
@[simp] theorem event_mover (s : State) (a b c d e f : Nat) : (event s a b c d e f).mover = s.mover := by rw [eventOnly_event s a b c d e f]
@[simp] theorem event_bead (s : State) (a b c d e f : Nat) : (event s a b c d e f).bead = s.bead := by rw [eventOnly_event s a b c d e f]
@[simp] theorem event_queues (s : State) (a b c d e f : Nat) : (event s a b c d e f).queues = s.queues := by rw [eventOnly_event s a b c d e f]
@[simp] theorem event_ten (s : State) (a b c d e f : Nat) : (event s a b c d e f).ten = s.ten := by rw [eventOnly_event s a b c d e f]
@[simp] theorem event_map (s : State) (a b c d e f : Nat) : (event s a b c d e f).map = s.map := by rw [eventOnly_event s a b c d e f]
@[simp] theorem event_spares (s : State) (a b c d e f : Nat) : (event s a b c d e f).spares = s.spares := by rw [eventOnly_event s a b c d e f]
@[simp] theorem event_clock (s : State) (a b c d e f : Nat) : (event s a b c d e f).clock = s.clock := by rw [eventOnly_event s a b c d e f]
@[simp] theorem event_supply (s : State) (a b c d e f : Nat) : (event s a b c d e f).supply = s.supply := by rw [eventOnly_event s a b c d e f]

/-! ### The answer itself -/

@[simp] theorem startCmd_dvorro (s : State) (c : Caller) : (startCmd s c).rkn.dvorro = s.rkn.dvorro := rfl
@[simp] theorem startCmd_ucie (s : State) (c : Caller) : (startCmd s c).rkn.ucie = s.rkn.ucie := rfl

theorem ucieUp_congr {s t : State} (hs : t.supply = s.supply) (hu : t.rkn.ucie = s.rkn.ucie) (n : Nat) : ucieUp t n = ucieUp s n := by
  unfold ucieUp
  rw [hs, hu]

theorem decksCut_congr {s t : State} (hs : t.supply = s.supply) (hu : t.rkn.ucie = s.rkn.ucie) : decksCut t = decksCut s := by
  have h : anyUcie t = anyUcie s := by
    unfold anyUcie
    congr 1
    funext n
    exact ucieUp_congr hs hu n
  simp only [decksCut, isReady, hs, h]

/-- Dvorro's absence depends on the supply, Dvorro's state and the UCIe modules alone. -/
theorem dvorroAway_congr {s t : State} (hs : t.supply = s.supply) (hd : t.rkn.dvorro = s.rkn.dvorro) (hu : t.rkn.ucie = s.rkn.ucie) :
    dvorroAway t = dvorroAway s := by
  simp only [dvorroAway, dvorroAbsent, hd, decksCut_congr hs hu]

/-- So does whether a command is cut off. -/
theorem cutOff_congr {s t : State} (hs : t.supply = s.supply) (hd : t.rkn.dvorro = s.rkn.dvorro) (hu : t.rkn.ucie = s.rkn.ucie) (c : Caller) (op : Nat) :
    cutOff t c op = cutOff s c op := by
  simp only [cutOff, dvorroAbsent, hd, decksCut_congr hs hu]

/-- Sending leaves what the Reckoner is, and the responses given, as they were. -/
def SendKeeps (s t : State) : Prop :=
  t.rkn.answers = s.rkn.answers ∧ t.rkn.dvorro = s.rkn.dvorro ∧ t.rkn.ucie = s.rkn.ucie ∧ t.rkn.coresLost = s.rkn.coresLost

theorem SendKeeps.trans {a b c : State} (h : SendKeeps a b) (k : SendKeeps b c) : SendKeeps a c :=
  ⟨k.1.trans h.1, k.2.1.trans h.2.1, k.2.2.1.trans h.2.2.1, k.2.2.2.trans h.2.2.2⟩

theorem SendKeeps.refl (s : State) : SendKeeps s s := ⟨rfl, rfl, rfl, rfl⟩

theorem sendKeeps_foldPair {β : Type} (f : State × Nat → β → State × Nat) (hf : ∀ st x, SendKeeps st.1 (f st x).1) (l : List β) (st : State × Nat) :
    SendKeeps st.1 (l.foldl f st).1 := by
  induction l generalizing st with
  | nil => exact .refl _
  | cons x r ih => exact (hf st x).trans (ih (f st x))

theorem sendKeeps_fold {β : Type} {f : State × Nat → β → State × Nat} (hf : ∀ st x, SendKeeps st.1 (f st x).1) (l : List β) (a b : State) (n : Nat)
    (h : SendKeeps a b) : SendKeeps a (l.foldl f (b, n)).1 := h.trans (sendKeeps_foldPair f hf l (b, n))

theorem sendKeeps_pushSession (s : State) (i : Nat) (l : List (List Byte)) : SendKeeps s (pushSession s i l) := by
  unfold pushSession
  split
  · exact .refl _
  · apply sendKeeps_fold
    · intro _ _
      exact ⟨rfl, rfl, rfl, rfl⟩
    · exact ⟨rfl, rfl, rfl, rfl⟩

theorem sendKeeps_sendResponse (s : State) (c : Caller) (r : Response) : SendKeeps s (sendResponse s c r) := by
  unfold sendResponse
  split
  · exact sendKeeps_pushSession _ _ _
  all_goals exact ⟨rfl, rfl, rfl, rfl⟩

theorem sendKeeps_ite {p : Prop} [Decidable p] {s a b : State} (ha : SendKeeps s a) (hb : SendKeeps s b) : SendKeeps s (if p then a else b) := by
  split <;> assumption

theorem sendKeeps_bump (s : State) (c : Ctr) : SendKeeps s (bump s c) := ⟨rfl, rfl, rfl, rfl⟩

/-- A response joins those given, and what the Reckoner is stays as it was. -/
def Gave (x : MboxId × Response) (s t : State) : Prop :=
  t.rkn.answers = x :: s.rkn.answers ∧ t.rkn.dvorro = s.rkn.dvorro ∧ t.rkn.ucie = s.rkn.ucie ∧ t.rkn.coresLost = s.rkn.coresLost

theorem Gave.send {x : MboxId × Response} {a b c : State} (h : Gave x a b) (k : SendKeeps b c) : Gave x a c :=
  ⟨k.1.trans h.1, k.2.1.trans h.2.1, k.2.2.1.trans h.2.2.1, k.2.2.2.trans h.2.2.2⟩

theorem gave_tail (x : MboxId × Response) (s t : State) (c : Caller) (r : Response) (h : Gave x s t) :
    Gave x s (
      let t := if r.completion ≤ 1 then t else bump t cMBOX_ERRORS
      let t := if r.completion = mABORTED_BY_UPDATE then bump t cMBOX_ABORTED else t
      if stillOpen t c then sendResponse t c r else t) := by
  have h1 : Gave x s (if r.completion ≤ 1 then t else bump t cMBOX_ERRORS) := h.send (sendKeeps_ite (.refl _) (sendKeeps_bump _ _))
  revert h1
  generalize (if r.completion ≤ 1 then t else bump t cMBOX_ERRORS) = u
  intro h1
  have h2 : Gave x s (if r.completion = mABORTED_BY_UPDATE then bump u cMBOX_ABORTED else u) := h1.send (sendKeeps_ite (sendKeeps_bump _ _) (.refl _))
  revert h2
  dsimp only
  generalize (if r.completion = mABORTED_BY_UPDATE then bump u cMBOX_ABORTED else u) = v
  intro h2
  exact h2.send (sendKeeps_ite (sendKeeps_sendResponse _ _ _) (.refl _))

/-- A response given at once is the last of those given. -/
theorem gave_deliver (s : State) (c : Caller) (r : Response) : Gave (c.mbox, r) s (deliver s c r) := by
  unfold deliver
  exact gave_tail (c.mbox, r) s _ c r ⟨rfl, rfl, rfl, rfl⟩

theorem deliver_answers (s : State) (c : Caller) (r : Response) : (deliver s c r).rkn.answers = (c.mbox, r) :: s.rkn.answers := (gave_deliver s c r).1

@[simp] theorem deliver_dvorro (s : State) (c : Caller) (r : Response) : (deliver s c r).rkn.dvorro = s.rkn.dvorro := (gave_deliver s c r).2.1

@[simp] theorem deliver_ucie (s : State) (c : Caller) (r : Response) : (deliver s c r).rkn.ucie = s.rkn.ucie := (gave_deliver s c r).2.2.1

/-- A command that is not cut off is answered at once. -/
theorem answer_answers (s : State) (c : Caller) (op k d : Nat) (b : List Byte) (h : cutOff s c op = false) :
    (answer s c op k d b).rkn.answers = (c.mbox, { opcode := op, cseq := c.cseq, completion := k, detail := d, result := b }) :: s.rkn.answers := by
  simp only [answer, h, Bool.false_eq_true, if_false, deliver_answers]

/-- A command that the gate lets go is not cut off. -/
theorem gate_go_present {s : State} {c : Caller} {op : Nat} {jobs : List Nat} (h : gate s c op jobs = .go) : cutOff s c op = false := by
  unfold gate at h
  split at h
  · cases h
  · rename_i hs
    simp only [not_or, Bool.not_eq_true] at hs
    exact hs.2

/-- A command that the gate lets go runs. -/
theorem mboxRun_go {s : State} {c : Caller} {op : Nat} {jobs : List Nat} (body : State → State) (h : gate s c op jobs = .go) :
    mboxRun s c op jobs body = body (startCmd s c) := by
  unfold mboxRun
  rw [h]

/-- A command that is answered `SUCCESS` from a state in which it is not cut off. -/
theorem answerOk_answered (s : State) (c : Caller) (op : Nat) (b : List Byte) (h : cutOff s c op = false) :
    AnsweredOk (answerOk s c op b) c op b := by
  simp only [AnsweredOk, answerOk, answer_answers _ _ _ _ _ _ h, List.head?_cons]

/-- A command that the gate lets go, answered from a state whose supply, Dvorro and UCIe modules are as they were. -/
theorem answerOk_of_gate {s t : State} {c : Caller} {op : Nat} {jobs : List Nat} {b : List Byte} (hg : gate s c op jobs = .go)
    (h1 : t.supply = s.supply) (h2 : t.rkn.dvorro = s.rkn.dvorro) (h3 : t.rkn.ucie = s.rkn.ucie) : AnsweredOk (answerOk t c op b) c op b :=
  answerOk_answered _ _ _ _ ((cutOff_congr h1 h2 h3 _ _).trans (gate_go_present hg))

/-! ### LIVE values taking force -/

/-- LIVE values that take force change register words and the list of those waiting, and nothing else. -/
theorem latchLive_only (s : State) (pick : Nat → Bool) : latchLive s pick = { s with regs := (latchLive s pick).regs, regsLive := (latchLive s pick).regsLive } := by
  have fold : ∀ (l : List (Nat × Word)) (t : State), t = { s with regs := t.regs, regsLive := t.regsLive } →
      ∀ u, u = l.foldl (fun st e => setRegWord { st with regsLive := tdel st.regsLive e.1 } e.1 (acceptedWord st e.1)) t → u = { s with regs := u.regs, regsLive := u.regsLive } := by
    intro l
    induction l with
    | nil =>
      intro t h u hu
      rw [hu]
      exact h
    | cons e l ih =>
      intro t h u hu
      refine ih _ ?_ u hu
      rw [h]
      rfl
  exact fold _ s rfl _ rfl

/-- A monitor sample's unit boundary changes register words, the list of LIVE values waiting and the admitted rates, and nothing else (R13, R44). -/
theorem monitorBoundary_only (s : State) :
    monitorBoundary s = { s with regs := (monitorBoundary s).regs, regsLive := (monitorBoundary s).regsLive, admitted := (monitorBoundary s).admitted } := by
  have h := latchLive_only s fun a => decide (a / 0x10000 ∈ [0, 2, 3])
  unfold monitorBoundary
  rw [h]
  rfl

end Sys2Proof.Machine
end

