-- ==== Sys2Proof/Laws/Serve.lean ====
section
/-! SUPPORT. The service of a packet at this module, by its operation. -/

namespace Sys2Proof.Machine

theorem serveOp_load {s : State} {t : Ns} {q : Nat} {p : Packet} (h : p.op = opLOAD) (hc : aspaceOf p ≠ 3) :
    serveOp s (arrived t q p) = countJoined s (serveMem s (arrived t q p)) q p := by
  unfold serveOp
  simp only [arrived, h, hc, if_true, if_false]

theorem serveOp_commandLoad {s : State} {t : Ns} {q : Nat} {p : Packet} (h : p.op = opLOAD) (hc : aspaceOf p = 3) :
    serveOp s (arrived t q p) = serveCommandLoad s (arrived t q p) := by
  unfold serveOp
  simp only [arrived, h, hc, if_true]

theorem serveOp_store {s : State} {t : Ns} {q : Nat} {p : Packet} (h : p.op = opSTORE) (hc : toCommandSpace p = false) :
    serveOp s (arrived t q p) = serveMem s (arrived t q p) := by
  unfold serveOp
  simp only [arrived, h, hc]
  rfl

theorem serveOp_commandStore {s : State} {t : Ns} {q : Nat} {p : Packet} (h : p.op = opSTORE) (hc : toCommandSpace p = true) :
    serveOp s (arrived t q p) = serveCommandStore s (arrived t q p) := by
  unfold serveOp
  simp only [arrived, h, hc]
  rfl

theorem serveOp_carry {s : State} {t : Ns} {q : Nat} {p : Packet} (h : p.op = opREDUCE ∨ p.op = opPARTIAL) :
    serveOp s (arrived t q p) = serveCarry s (arrived t q p) := by
  unfold serveOp
  rcases h with h | h
  all_goals
    simp only [arrived, h]
    rfl

theorem serveOp_ack {s : State} {t : Ns} {q : Nat} {p : Packet} (h : p.op = opACK) :
    serveOp s (arrived t q p) = takeAckPacket s p := by
  unfold serveOp
  simp only [arrived, h]
  rfl

theorem serveOp_nak {s : State} {t : Ns} {q : Nat} {p : Packet} (h : p.op = opNAK) :
    serveOp s (arrived t q p) = takeNakPacket s p := by
  unfold serveOp
  simp only [arrived, h]
  rfl

theorem serveOp_rsp {s : State} {t : Ns} {q : Nat} {p : Packet} (h : p.op = opRSP) :
    serveOp s (arrived t q p) = takeRsp s q p := by
  unfold serveOp
  simp only [arrived, h]
  rfl

theorem serveOp_rspData {s : State} {t : Ns} {q : Nat} {p : Packet} (h : p.op = opRSP_DATA) :
    serveOp s (arrived t q p) = takeRspData s q p := by
  unfold serveOp
  simp only [arrived, h]
  rfl

theorem serveOp_atomic {s : State} {t : Ns} {q : Nat} {p : Packet} (h : p.op = opATOMIC) :
    serveOp s (arrived t q p) = countJoined s (serveMem s (arrived t q p)) q p := by
  unfold serveOp
  simp only [arrived, h]
  rfl

theorem serveOp_fence {s : State} {t : Ns} {q : Nat} {p : Packet} (h : p.op = opFENCE) :
    serveOp s (arrived t q p) = serveMem s (arrived t q p) := by
  unfold serveOp
  simp only [arrived, h]
  rfl

theorem serveOp_reduceWrite {s : State} {t : Ns} {q : Nat} {p : Packet} (h : p.op = opREDUCE_WRITE) :
    serveOp s (arrived t q p) = serveMem s (arrived t q p) := by
  unfold serveOp
  simp only [arrived, h]
  rfl

theorem serveOp_publish {s : State} {t : Ns} {q : Nat} {p : Packet} (h : p.op = opPUBLISH) :
    serveOp s (arrived t q p) = servePublish s (arrived t q p) := by
  unfold serveOp
  simp only [arrived, h]
  rfl

theorem serveOp_gather {s : State} {t : Ns} {q : Nat} {p : Packet} (h : p.op = opGATHER) :
    serveOp s (arrived t q p) = serveGather s (arrived t q p) := by
  unfold serveOp
  simp only [arrived, h]
  rfl

theorem serveOp_sieve {s : State} {t : Ns} {q : Nat} {p : Packet} (h : p.op = opSIEVE) :
    serveOp s (arrived t q p) = serveSieve s (arrived t q p) := by
  unfold serveOp
  simp only [arrived, h]
  rfl

theorem serveOp_wopen {s : State} {t : Ns} {q : Nat} {p : Packet} (h : p.op = opWOPEN) :
    serveOp s (arrived t q p) = serveWopen s (arrived t q p) := by
  unfold serveOp
  simp only [arrived, h]
  rfl

theorem serveOp_wrevoke {s : State} {t : Ns} {q : Nat} {p : Packet} (h : p.op = opWREVOKE) :
    serveOp s (arrived t q p) = serveWrevoke s (arrived t q p) := by
  unfold serveOp
  simp only [arrived, h]
  rfl

theorem serveOp_creq {s : State} {t : Ns} {q : Nat} {p : Packet} (h : p.op = opCREQ) :
    serveOp s (arrived t q p) = serveCreq s (arrived t q p) := by
  unfold serveOp
  simp only [arrived, h]
  rfl

theorem serveOp_crsp {s : State} {t : Ns} {q : Nat} {p : Packet} (h : p.op = opCRSP) :
    serveOp s (arrived t q p) = takeCrsp s q p := by
  unfold serveOp
  simp only [arrived, h]
  rfl

theorem serveOp_cdat {s : State} {t : Ns} {q : Nat} {p : Packet} (h : p.op = opCDAT) :
    serveOp s (arrived t q p) = takeCdat s q p := by
  unfold serveOp
  simp only [arrived, h]
  rfl

theorem serveOp_mirror {s : State} {t : Ns} {q : Nat} {p : Packet} (h : p.op = opMIRROR) :
    serveOp s (arrived t q p) = bump s (cMIRROR_DISCARD (quarterOf q)) := by
  unfold serveOp
  simp only [arrived, h]
  rfl

theorem serveOp_identity {s : State} {t : Ns} {q : Nat} {p : Packet} (h : p.op = opIDENTITY) :
    serveOp s (arrived t q p) = serveQuery s q p := by
  unfold serveOp
  simp only [arrived, h]
  rfl

theorem serveOp_statusQuery {s : State} {t : Ns} {q : Nat} {p : Packet} (h : p.op = opSTATUS_QUERY) :
    serveOp s (arrived t q p) = serveQuery s q p := by
  unfold serveOp
  simp only [arrived, h]
  rfl

theorem serveOp_mapLsr {s : State} {t : Ns} {q : Nat} {p : Packet} (h : p.op = opMAP_LSR) :
    serveOp s (arrived t q p) = serveMap s q p := by
  unfold serveOp
  simp only [arrived, h]
  rfl

theorem serveOp_mapAck {s : State} {t : Ns} {q : Nat} {p : Packet} (h : p.op = opMAP_ACK) :
    serveOp s (arrived t q p) = serveMap s q p := by
  unfold serveOp
  simp only [arrived, h]
  rfl

theorem serveOp_mapPrepare {s : State} {t : Ns} {q : Nat} {p : Packet} (h : p.op = opMAP_PREPARE) :
    serveOp s (arrived t q p) = serveMap s q p := by
  unfold serveOp
  simp only [arrived, h]
  rfl

theorem serveOp_mapVote {s : State} {t : Ns} {q : Nat} {p : Packet} (h : p.op = opMAP_VOTE) :
    serveOp s (arrived t q p) = serveMap s q p := by
  unfold serveOp
  simp only [arrived, h]
  rfl

theorem serveOp_mapCommit {s : State} {t : Ns} {q : Nat} {p : Packet} (h : p.op = opMAP_COMMIT) :
    serveOp s (arrived t q p) = serveMap s q p := by
  unfold serveOp
  simp only [arrived, h]
  rfl

theorem serveOp_mapPull {s : State} {t : Ns} {q : Nat} {p : Packet} (h : p.op = opMAP_PULL) :
    serveOp s (arrived t q p) = serveMap s q p := by
  unfold serveOp
  simp only [arrived, h]
  rfl

theorem serveOp_mapHandoff {s : State} {t : Ns} {q : Nat} {p : Packet} (h : p.op = opMAP_HANDOFF) :
    serveOp s (arrived t q p) = serveMap s q p := by
  unfold serveOp
  simp only [arrived, h]
  rfl

/-! ### An attempt at the home -/

/-- What entry gives: the request as it arrived, not held, and nothing of its flow in its way. -/
theorem memEntered_waiter {s u : State} {t : Ns} {q : Nat} {p : Packet} {w : Waiter} (h : memEntered s t q p = some (w, u)) :
    w.req = arrived t q p ∧ w.held = false ∧ waitsBehind u w = false := by
  unfold memEntered at h
  split at h
  · cases h
  · simp only at h
    split at h
    · cases h
    · rename_i hx
      split at h
      · cases h
      · rename_i hn
        cases h
        simp only [Bool.or_eq_true, not_or, Bool.not_eq_true] at hn
        refine ⟨?_, ?_, hn.2⟩ <;>
        · split at hx
          · split at hx <;> cases hx; rfl
          · cases hx; rfl

theorem attemptMem_load {s : State} {w : Waiter} (h : w.req.pkt.op = opLOAD) (hf : waitsBehind s w = false) :
    attemptMem s w = attemptLoad s w := by
  unfold attemptMem
  simp only [hf, h, Bool.false_eq_true, if_false]
  rfl

theorem attemptMem_store {s : State} {w : Waiter} (h : w.req.pkt.op = opSTORE) (hf : waitsBehind s w = false) :
    attemptMem s w = attemptStore s w := by
  unfold attemptMem
  simp only [hf, h, Bool.false_eq_true, if_false]
  rfl

theorem attemptMem_atomic {s : State} {w : Waiter} (h : w.req.pkt.op = opATOMIC) (hf : waitsBehind s w = false) :
    attemptMem s w = attemptAtomic s w := by
  unfold attemptMem
  simp only [hf, h, Bool.false_eq_true, if_false]
  rfl

theorem attemptMem_fence {s : State} {w : Waiter} (h : w.req.pkt.op = opFENCE) (hf : waitsBehind s w = false) :
    attemptMem s w = attemptFence s w := by
  unfold attemptMem
  simp only [hf, h, Bool.false_eq_true, if_false]
  rfl

theorem attemptMem_reduceWrite {s : State} {w : Waiter} (h : w.req.pkt.op = opREDUCE_WRITE) (hf : waitsBehind s w = false) :
    attemptMem s w = attemptReduceWrite s w := by
  unfold attemptMem
  simp only [hf, h, Bool.false_eq_true, if_false]
  rfl

/-- Acceptance leaves the packet of a request as it is. -/
theorem accept_pkt (s : State) (w : Waiter) : (accept s w).1.req.pkt = w.req.pkt := by
  unfold accept
  split
  · rfl
  · dsimp only
    split <;> rfl

/-- A request that is accepted for the first time takes the next place in the order. -/
theorem accept_req (s : State) (w : Waiter) (h : w.req.order = 0) : (accept s w).1.req = { w.req with order := s.pool.accepted + 1 } := by
  unfold accept
  rw [if_neg (by simp [h])]
  dsimp only
  split <;> rfl

/-! ### Command space -/

/-- A STORE to command space that passes the common checks is attempted at its address. -/
theorem serveCommandStore_entered {s : State} {t : Ns} {q : Nat} {p : Packet} (h : commandEntered s q p = true) :
    serveOp s (arrived t q p) = attemptCommand s (entrant t q p) ∧ flowBlocked s p = false ∧ p.op = opSTORE ∧ toCommandSpace p = true := by
  simp only [commandEntered, Bool.and_eq_true, decide_eq_true_eq, Bool.not_eq_true', Option.isNone_iff_eq_none] at h
  obtain ⟨⟨⟨⟨⟨⟨⟨h1, h2⟩, h3⟩, h4⟩, h5⟩, h6⟩, h7⟩, h8⟩ := h
  refine ⟨?_, h8, h1, h2⟩
  rw [serveOp_commandStore h1 h2]
  unfold serveCommandStore
  simp only [arrived, h3, h4, h5, h6, h7, ne_eq, not_true_eq_false, Bool.false_eq_true, if_false]
  rfl

theorem doorbell_address {a c : Nat} (h : doorbellChannel a = some c) : beadQueueOf a = none ∧ hostBoxOf a = none := by
  unfold doorbellChannel at h
  split at h
  · constructor
    · unfold beadQueueOf
      rw [if_neg]
      omega
    · unfold hostBoxOf
      rw [if_neg]
      omega
  · cases h

theorem beadQueue_address {a c : Nat} (h : beadQueueOf a = some c) : doorbellChannel a = none ∧ hostBoxOf a = none := by
  unfold beadQueueOf at h
  split at h
  · constructor
    · unfold doorbellChannel
      rw [if_neg]
      omega
    · unfold hostBoxOf
      rw [if_neg]
      omega
  · cases h

theorem hostBox_address {a : Nat} {c : Nat × Nat} (h : hostBoxOf a = some c) : doorbellChannel a = none ∧ beadQueueOf a = none := by
  unfold hostBoxOf at h
  split at h
  · constructor
    · unfold doorbellChannel
      rw [if_neg]
      omega
    · unfold beadQueueOf
      rw [if_neg]
      omega
  · cases h

/-- A doorbell that nothing refuses acts and is answered. -/
theorem attemptCommand_doorbell {s : State} {t : Ns} {q c : Nat} {p : Packet} (h : commandEntered s q p = true) (ha : doorbellChannel p.addr = some c)
    (hr : doorbellRefusal s c p = none) :
    attemptCommand s (entrant t q p) = respondOk (if dbOp p = 0 then ring (openDedup s p) c p
      else if dbOp p = 1 then resumeBell (openDedup s p) c else abortChannel (openDedup s p) c kSUCCESS) q p [] := by
  have hf := (serveCommandStore_entered (t := t) h).2.1
  unfold attemptCommand
  simp only [entrant, arrived, hf, ha, serveDoorbell, hr, Bool.false_eq_true, if_false]
  rfl

/-- A bead command that passes the checks of its channel is queued. -/
theorem attemptCommand_bead {s x : State} {t : Ns} {q c : Nat} {p : Packet} {l : List (BeadOp × List Piece)} (h : commandEntered s q p = true)
    (ha : beadQueueOf p.addr = some c) (hc : beadChecked s q c p = some (l, x)) :
    attemptCommand s (entrant t q p) = queueBead x (entrant t q p) c l := by
  have hf := (serveCommandStore_entered (t := t) h).2.1
  unfold attemptCommand
  simp only [entrant, arrived, hf, ha, (beadQueue_address ha).1, Bool.false_eq_true, if_false]
  unfold beadChecked at hc
  split at hc
  · cases hc
  · rename_i h1
    simp only [Bool.or_eq_true, decide_eq_true_eq, not_or, Bool.not_eq_true, ne_eq, not_not] at h1
    split at hc
    · rename_i heq
      split at hc
      · cases hc
      · rename_i h2
        cases hc
        simp only [Bool.or_eq_true, Bool.and_eq_true, decide_eq_true_eq, not_or, Bool.not_eq_true, Bool.not_eq_true', Option.isSome_eq_false_iff, Option.isNone_iff_eq_none] at h2
        obtain ⟨⟨⟨⟨h2, h3⟩, h4⟩, h5⟩, h6⟩ := h2
        unfold attemptBead
        simp only [h1.1, h1.2, heq, h2, h3, Bool.false_eq_true, if_false]
        rw [if_neg (by simp), if_neg (by simpa using h4)]
        by_cases hb : bhBop p = bopATTN
        · have : groupBad x p = none := by
            cases hg : groupBad x p with
            | none => rfl
            | some k => exact absurd ⟨hb, by simp [hg]⟩ h5
          simp only [hb, if_true, this]
        · simp only [if_neg hb]
    · cases hc

/-- A STORE to a host mailbox that it takes is answered. -/
theorem attemptCommand_host {s z : State} {t : Ns} {q m off : Nat} {p : Packet} (h : commandEntered s q p = true) (ha : hostBoxOf p.addr = some (m, off))
    (hr : hostStore s m off q p = .inl z) : attemptCommand s (entrant t q p) = respondOk (openDedup z p) q p [] := by
  have hf := (serveCommandStore_entered (t := t) h).2.1
  unfold attemptCommand
  simp only [entrant, arrived, hf, ha, (hostBox_address ha).1, (hostBox_address ha).2, hr, Bool.false_eq_true, if_false]

end Sys2Proof.Machine
end

