-- ==== Sys2Proof/Laws/Store.lean ====
section
/-! SUPPORT. What a write at its home does to pool memory: one line's part, a list of parts, and an atomic operation. -/

namespace Sys2Proof.Machine

/-- Pool memory after one line's part of a write: its bytes, and the line's CRC where it is rewritten. -/
def partMem (m : Memory) (p : Part) (d : List Byte) (crc : Bool) : Memory :=
  let m := memStore m (p.line * 128 + p.off) d
  if crc then memStore m (p.line * 128 + 124) (le 4 (crc32c (memBytes m (p.line * 128) 124))) else m

@[simp] theorem poisonLine_mem (s : State) (l code : Nat) : (poisonLine s l code).pool.mem = s.pool.mem := rfl

@[simp] theorem dirtyLine_mem (s : State) (l : Nat) : (dirtyLine s l).pool.mem = s.pool.mem := by
  unfold dirtyLine
  split <;> rfl

@[simp] theorem discarded_mem (s : State) (h : Nat) : (discarded s h).pool.mem = s.pool.mem := by
  unfold discarded
  dsimp only
  repeat' split
  all_goals rfl

@[simp] theorem setDir_mem (s : State) (h : Nat) (d : Option DirEntry) : (setDir s h d).pool.mem = s.pool.mem := by
  unfold setDir
  split
  · rfl
  · dsimp only
    split
    · exact discarded_mem _ _
    · rfl

@[simp] theorem clearPoison_mem (s : State) (l : Nat) : (clearPoison s l).pool.mem = s.pool.mem := by
  unfold clearPoison
  dsimp only
  rw [setLine_mem]
  repeat' split
  all_goals simp

/-- One line's part of a write, for all that it does to pool memory (R123, R126). -/
theorem writePart_mem (s : State) (p : Part) (d : List Byte) (clr poison check : Bool) :
    (writePart s p d clr poison check).pool.mem = partMem s.pool.mem p d (check && leafE2e p.leaf) := by
  unfold writePart partMem
  dsimp only
  have tray (t : State) : (if isTrayLine t p.line = true then setLine t p.line { lineInfo t p.line with slot := if leafProt p.leaf then some (leafSlot p.leaf) else none } else t).pool.mem = t.pool.mem := by
    split <;> rfl
  have crc (t : State) (h : t.pool.mem = memStore s.pool.mem (p.line * 128 + p.off) d) :
      (if (check && leafE2e p.leaf) = true then rewriteCheck t p.line else t).pool.mem =
        if (check && leafE2e p.leaf) = true then memStore (memStore s.pool.mem (p.line * 128 + p.off) d) (p.line * 128 + 124)
          (le 4 (crc32c (memBytes (memStore s.pool.mem (p.line * 128 + p.off) d) (p.line * 128) 124))) else memStore s.pool.mem (p.line * 128 + p.off) d := by
    split
    · simp only [rewriteCheck, getBytes, putBytes_mem, h]
    · exact h
  have last (t : State) : (if poison = true then poisonLine t p.line kPOISONED_DATA else if (clr && decide (p.len = 128)) = true then clearPoison t p.line else t).pool.mem = t.pool.mem := by
    repeat' split
    all_goals simp
  rw [last, crc]
  rw [tray, dirtyLine_mem, putBytes_mem]

/-- Nothing outside a part, and outside the CRC it rewrites, changes. -/
theorem partMem_outside (m : Memory) (p : Part) (d : List Byte) (crc : Bool) (a : Nat) (hd : d.length ≤ p.len)
    (h : a < p.line * 128 + p.off ∨ p.line * 128 + p.off + p.len ≤ a) (hc : crc = true → a < p.line * 128 + 124 ∨ p.line * 128 + 128 ≤ a) :
    memRead (partMem m p d crc) a = memRead m a := by
  unfold partMem
  dsimp only
  have h1 : memRead (memStore m (p.line * 128 + p.off) d) a = memRead m a := memRead_memStore_outside _ _ _ _ (by omega)
  split
  · rename_i hx
    have := hc hx
    rw [memRead_memStore_outside _ _ _ _ (by rw [le_length]; omega), h1]
  · exact h1

/-- A part's memory keeps its canonical form. -/
theorem partMem_wf (m : Memory) (p : Part) (d : List Byte) (crc : Bool) (h : Memory.wf m = true) : Memory.wf (partMem m p d crc) = true := by
  unfold partMem
  dsimp only
  split
  · exact memStore_wf _ _ _ (memStore_wf _ _ _ h)
  · exact memStore_wf _ _ _ h

/-- A write's parts, for all that they do to pool memory. -/
theorem writeParts_mem (s : State) (ps : List Part) (d : List Byte) (clr : Bool) (bad : List Nat) (check : Bool) :
    (writeParts s ps d clr bad check).pool.mem = ps.foldl (fun m p => partMem m p ((d.drop p.pos).take p.len) (check && leafE2e p.leaf)) s.pool.mem := by
  unfold writeParts
  induction ps generalizing s with
  | nil => rfl
  | cons p r ih => rw [List.foldl_cons, List.foldl_cons, ih, writePart_mem]

/-- An atomic operation answers the old value and stores the new one over it; no byte outside its operand, and outside a LINE_CRC line's check, changes (R123, R124, R126). -/
theorem applyAtomic_mem (s : State) (x : Part) (aop n a swap : Nat) :
    (applyAtomic s x aop n a swap).1 = unle (getBytes s (x.line * 128 + x.off) n) ∧
    (applyAtomic s x aop n a swap).2.pool.mem = partMem s.pool.mem x
      (le n ((atomicResult aop (8 * n) (unle (getBytes s (x.line * 128 + x.off) n)) a swap).getD (unle (getBytes s (x.line * 128 + x.off) n)))) (leafE2e x.leaf) := by
  unfold applyAtomic partMem
  dsimp only
  refine ⟨rfl, ?_⟩
  split
  · simp only [rewriteCheck, getBytes, putBytes_mem, dirtyLine_mem]
  · simp only [getBytes, putBytes_mem, dirtyLine_mem]

end Sys2Proof.Machine
end

