-- ==== Sys2Proof/Tests/Slice0.lean ====
section
/-! SUPPORT. The package's own tests: for every clause of an obligation that has premises, a state and operands that meet them all (theorems wit_…), at the boundary values where clauses meet; ill-formed commands, one for each check of `wellFormed`; and results that the spec's worked examples give (theorems test_…).
A premise on a constant of `Config` that has no body (a signature, the phases of a rail) is a premise of its witness too. -/

namespace Sys2Proof.Tests
open Sys2Proof Sys2Proof.Machine
set_option Elab.async false

/-! ### Witnesses of the statements on packets -/

/-- A READY module of node 1 whose logical port 0 is UP with role SWITCH, its partner the switch of node 2, and which holds job 5 with its first GiB in the module's own memory. -/
def base : State :=
  { State.reset with
    now := ms 100000
    regs := [(aLPORT_ROLE 0, 3), (aNEAR_RESIDENT 0, 1)]
    links := { ports := [(0, { state := .up, partnerNode := 2 })], lanes := [(0, { active := true })], open_ := true }
    pool := { jobs := [(5, { ttRoot := 0, pagerCap := 0, pagerNode := 2 })], tt := [(0, 65537), (512, 2 + 4 + 240 + 2 ^ 24)] }
    map := { node := 1, comp := { nodes := [(1, { kind := 3 }), (2, { kind := 3 })] }, member := true }
    supply := { phase := 7, ready := true, rails := [(7, { on := true })], holdupReady := true }
    rkn := { dvorro := .running } }
/-- A packet of job 5 from node 2 to the module, as its source seals it. -/
def pk (op tc : Nat) (p : Packet) : Packet := sealPacket { p with op := op, tc := tc, dst := 1, src := 2, job := 5 }
/-- The packet comes to its service, in a state and at a time of which the claim holds. -/
def comes (s : State) (p : Packet) (claim : Ns → State → Bool) : Bool := (served s 0 p).any fun x => claim x.1 x.2
/-- The module has sent message 9 to node 2. -/
def waitsFor9 : State := { base with net := { own := [((2, 9), { purpose := .plain, dst := 2, job := 5 })] } }
def ackOf9 (op : Nat) : Packet := pk op 2 { flags := 512, payload := entryBytes { emsg := 9 } }
def answer9 (op pidx pcnt : Nat) : Packet := pk op 2 { msg := 9, pidx := pidx, pcnt := pcnt, flags := if pidx = pcnt then 512 else 0, payload := if op = opRSP then [] else zeros 8 }

theorem wit_ack : (comes waitsFor9 (ackOf9 opACK) fun _ _ => decide ((ackOf9 opACK).op = opACK) && entriesOk (ackOf9 opACK)) = true := by decide +kernel

theorem wit_nak : (comes waitsFor9 (ackOf9 opNAK) fun _ _ => decide ((ackOf9 opNAK).op = opNAK) && entriesOk (ackOf9 opNAK)) = true := by decide +kernel

theorem wit_rsp : (comes waitsFor9 (answer9 opRSP 0 0) fun _ u => (ownOf (ackRack u 0 (answer9 opRSP 0 0)) 2 9).isSome && !rspMalformed (answer9 opRSP 0 0) && !isRClass (answer9 opRSP 0 0).status) = true := by decide +kernel

theorem wit_rsp_data : (comes waitsFor9 (answer9 opRSP_DATA 0 0) fun _ u => (ownOf (ackRack u 0 (answer9 opRSP_DATA 0 0)) 2 9).any fun m => !thas m.2.got 0 && m.2.got.all fun g => sameAnswer g.2 (answer9 opRSP_DATA 0 0)) = true := by decide +kernel

theorem wit_rsp_data_last : (comes { waitsFor9 with net := { own := [((2, 9), { purpose := .plain, dst := 2, job := 5, got := [(0, answer9 opRSP_DATA 0 1)] })] } } (answer9 opRSP_DATA 1 1) fun _ u => (ownOf (ackRack u 0 (answer9 opRSP_DATA 1 1)) 2 9).any fun m => !thas m.2.got 1 && m.2.got.all fun g => sameAnswer g.2 (answer9 opRSP_DATA 1 1)) = true := by decide +kernel

def loadPkt : Packet := pk opLOAD 0 { addr := 0xFF8, flags := 512, msg := 7 }
def storePkt : Packet := pk opSTORE 0 { addr := 0xFF8, flags := 512, msg := 7, payload := le 8 0x1122334455667788 }
/-- A request enters its home, and its access is served now with the parts and in the state of which the claim holds. -/
def accessed (t : Ns) (u : State) (p : Packet) (right n : Nat) (wr : Bool) (claim : List Part → State → Bool) : Bool :=
  (memEntered u t 0 p).any fun e => match access e.2 e.1 right (accessVa e.2 e.1) n wr with
    | .now _ ps x => claim ps x
    | _ => false

theorem wit_load : (comes base loadPkt fun t u => decide (aspaceOf loadPkt ≠ 3) && accessed t u loadPkt rightRead (loadSize loadPkt) false fun ps _ => decide (ps.length = 1)) = true := by decide +kernel

theorem wit_store : (comes base storePkt fun t u => !toCommandSpace storePkt && accessed t u storePkt rightWrite 8 true fun ps _ => ps.all fun y => !leafE2e y.leaf) = true := by decide +kernel

def atomicPkt : Packet := pk opATOMIC 0 { addr := 0x108, flags := 512, msg := 7, payload := le 8 3 }
def listPkt : Packet := pk opATOMIC 0 { oparg := 2 ^ 7 + 2 ^ 6, addr := 0x108, flags := 512, msg := 7, payload := le 4 11 ++ le 4 3 ++ le 8 4 ++ le 4 12 ++ le 4 4 ++ le 8 5 }
def rankedPkt : Packet := pk opATOMIC 0 { oparg := 256, addr := 0x108, flags := 512 + 2 + 4, msg := 7, payload := le 8 3 }
def fencePkt : Packet := pk opFENCE 0 { flags := 512, msg := 7 }
def reduceWritePkt : Packet := pk opREDUCE_WRITE 0 { oparg := 1, addr := 0x100, flags := 512, msg := 7, payload := zeros 128 }
def rankedBase : State := { base with pool := { base.pool with jobs := [(5, { ttRoot := 0, pagerCap := 0, pagerNode := 2, ranked := true, rankedSet := [2, 3] })] } }

theorem wit_atomic : (
  comes base atomicPkt fun t u => (memEntered u t 0 atomicPkt).any fun e => !rankedJob e.2 5 && !atomicCmb atomicPkt && accessed t u atomicPkt rightAtomic 4 true fun ps x => match ps with
    | [y] => !leafE2e y.leaf && (atomicBad (noteTray (leaveWindow (openDedup x atomicPkt) e.1) [(2, 7)] y.line) y).isNone
    | _ => false) = true := by decide +kernel

theorem wit_atomic_list : (
  comes base listPkt fun t u => (memEntered u t 0 listPkt).any fun e => !rankedJob e.2 5 && atomicCmb listPkt && match access e.2 e.1 rightAtomic (accessVa e.2 e.1) 8 true with
    | .now l [y] x => !leafE2e y.leaf && match accept x e.1 with
      | (w', x') => (applyList (noteTray (expandAll x' (accessJob x' w') l) ((2, 7) :: (joinersOf listPkt.payload).map fun j => (j.src, j.msg)) y.line)
          listPkt y w'.mine w'.done.length ((joinersOf listPkt.payload).drop w'.done.length) w'.done).1.isNone
    | _ => false) = true := by decide +kernel

theorem wit_atomic_ranked : (comes rankedBase rankedPkt fun t u => (memEntered u t 0 rankedPkt).any fun e => rankedJob e.2 5) = true := by decide +kernel

theorem wit_fence : (comes base fencePkt fun t u => (memEntered u t 0 fencePkt).any fun e => (epochRefusal e.2 fencePkt 0).isNone && !fencePending (closeEpoch e.2 fencePkt) fencePkt 0) = true := by decide +kernel

theorem wit_reduce_write : (comes base reduceWritePkt fun t u => accessed t u reduceWritePkt rightWrite 128 true fun ps x => !goneIn x ps) = true := by decide +kernel

def bound0 : State := { base with
  pool := { base.pool with portJobs := [(0, [5])] }
  mover := { channels := [(0, { state := .idle, job := 5 })] }
  rkn := { base.rkn with mboxes := [(.host 1, { bound := some 0 })] } }
def hostLoadPkt : Packet := pk opLOAD 0 { oparg := 3, addr := 0x1014000, flags := 512, msg := 7 }
def bellPkt (op : Nat) : Packet := pk opSTORE 0 { oparg := 3, addr := 0x400000, flags := 512, msg := 7, payload := le 2 0 ++ le 2 op ++ zeros 4 }
def slotPkt : Packet := pk opSTORE 0 { oparg := 3, addr := 0x1010000 + 63 * 256, flags := 512, msg := 7, payload := zeros 256 }
def hostBellPkt : Packet := pk opSTORE 0 { oparg := 3, addr := 0x1018000, flags := 512, msg := 7, payload := le 2 1 ++ zeros 6 }

theorem wit_host_load : (comes bound0 hostLoadPkt fun _ u => decide (aspaceOf hostLoadPkt = 3) && (memFieldCheck u 0 hostLoadPkt).isNone && decide (hostBoxOf hostLoadPkt.addr = some (1, 0x4000)) && (hostLoad u 1 0x4000 0 hostLoadPkt).isLeft) = true := by decide +kernel

theorem wit_doorbell_ring : (comes bound0 (bellPkt 0) fun _ u => commandEntered u 0 (bellPkt 0) && decide (doorbellChannel (bellPkt 0).addr = some 0 ∧ dbOp (bellPkt 0) = 0) && (doorbellRefusal u 0 (bellPkt 0)).isNone) = true := by decide +kernel

theorem wit_doorbell_resume : (comes bound0 (bellPkt 1) fun _ u => commandEntered u 0 (bellPkt 1) && decide (doorbellChannel (bellPkt 1).addr = some 0 ∧ dbOp (bellPkt 1) = 1) && (doorbellRefusal u 0 (bellPkt 1)).isNone) = true := by decide +kernel

theorem wit_doorbell_abort : (comes bound0 (bellPkt 2) fun _ u => commandEntered u 0 (bellPkt 2) && decide (doorbellChannel (bellPkt 2).addr = some 0 ∧ dbOp (bellPkt 2) = 2) && (doorbellRefusal u 0 (bellPkt 2)).isNone) = true := by decide +kernel

set_option maxRecDepth 100000 in
theorem wit_host_slot : (comes bound0 slotPkt fun _ u => commandEntered u 0 slotPkt && decide (hostBoxOf slotPkt.addr = some (1, 0x3F00) ∧ slotPkt.addr % 0x10000 ≠ 0x8000) && (hostStore u 1 0x3F00 0 slotPkt).isLeft) = true := by decide +kernel

theorem wit_host_doorbell : (comes bound0 hostBellPkt fun _ u => commandEntered u 0 hostBellPkt && decide (hostBoxOf hostBellPkt.addr = some (1, 0x8000) ∧ hostBellPkt.addr % 0x10000 = 0x8000) && (hostStore u 1 0x8000 0 hostBellPkt).isLeft) = true := by decide +kernel

/-- The resident channel 0 belongs to job 5, whose second GiB maps the same frames with BEAD_WR, and attention group 3 is open. -/
def beadBase : State := { base with
  pool := { base.pool with tt := [(0, 65537), (512, 2 + 4 + 240 + 2 ^ 24), (513, 2 + 4 + 240 + 256 + 2 ^ 24)] }
  bead := { channels := [(0, { owner := some 5 })] }
  carry := { groups := [(3, { a := { rid := 3, job := 5, cop := 10, fmt := 10, rfmt := 10, rmode := 0, sat := 0, ranked := 0, qn := 1, dmode := 0, dtc := 0, parent := 1, round0 := 0, dnode := 2, dgroup := 0, length := 64, ntotal := 1, roundTimeout := 0, dcap := 0, resBase := 0, cplOffset := 0, inputs := [⟨0, 1, 0⟩] }, round := 0 })] } }
def beadPkt (w n l rid : Nat) (srcA srcB q : Nat) : Packet := pk opSTORE 0 { oparg := 3, addr := 0x600000, flags := 512, msg := 7, payload := le 4 w ++ zeros 4 ++ le 8 srcA ++ le 8 srcB ++ le 2 n ++ le 2 l ++ le 4 rid ++ zeros 32 ++ zeros q }
def modePkt : Packet := beadPkt 0x10 0 0 0 0 0 0
def attnPkt : Packet := beadPkt (1 + 9 * 2 ^ 10 + 9 * 2 ^ 14 + 9 * 2 ^ 18) 1 0 3 (2 ^ 30) 0 128
def dotPkt : Packet := beadPkt (2 + 9 * 2 ^ 10 + 9 * 2 ^ 14) 2 32 0 (2 ^ 30) (2 ^ 30 + 0x8000) 64
def axpyPkt : Packet := beadPkt (3 + 9 * 2 ^ 14 + 10 * 2 ^ 18) 64 0 0 (2 ^ 30) (2 ^ 30 + 0x8000) 0
def scanPkt : Packet := beadPkt (4 + 9 * 2 ^ 14) 64 0 0 (2 ^ 30) (2 ^ 30 + 0x8000) 0
def queues (p : Packet) (k : Nat) : Bool := comes beadBase p fun _ u => commandEntered u 0 p && decide (beadQueueOf p.addr = some 0 ∧ field p.payload 0 1 % 16 = k) && (beadChecked u 0 0 p).isSome

theorem wit_bead_mode : (queues modePkt 0) = true := by decide +kernel

theorem wit_bead_attn : (queues attnPkt 1) = true := by decide +kernel

theorem wit_bead_dot : (queues dotPkt 2) = true := by decide +kernel

theorem wit_bead_axpy : (queues axpyPkt 3) = true := by decide +kernel

theorem wit_bead_scan : (queues scanPkt 4) = true := by decide +kernel

def wopenPkt : Packet := pk opWOPEN 0 { oparg := 31, addr := 0x80, flags := 512, msg := 7, payload := le 8 128 ++ zeros 16 }
def wrevokePkt : Packet := pk opWREVOKE 0 { cap := 4 + 2 ^ 20 + 9 * 2 ^ 32, flags := 512, msg := 7 }
def windowIn (st : WinState) (gen : Nat) : State := { base with win := { table := [(4, { state := st, gen := gen, tag := 9, ownerJob := 5, rights := 31, length := 4096 })] } }
def revoked (s : State) (c : Revoke) : Bool := comes s wrevokePkt fun _ u => newHere u wrevokePkt && decide (lenOf wrevokePkt = 0 ∧ revokeCase u wrevokePkt.cap (some 5) = c)

theorem wit_wopen : (
  comes base wopenPkt fun _ u => newHere u wopenPkt && !wopenMalformed wopenPkt && decide (wopenPkt.addr % 128 = 0) && thas u.pool.jobs 5 && match (openWindowAt (openDedup u wopenPkt) 0 (wopenAsk wopenPkt)).1 with
    | .cap _ => true
    | _ => false) = true := by decide +kernel

theorem wit_wrevoke_start : (revoked (windowIn .open_ 1) .start) = true := by decide +kernel

theorem wit_wrevoke_join : (revoked (windowIn .revoking 2) .join) = true := by decide +kernel

theorem wit_wrevoke_done : (revoked (windowIn .revoked 2) .done) = true := by decide +kernel

def agentBase : State := { base with coh := { agents := [(0, { state := .attached, node := 2 })] } }
def creqPkt (k : Nat) : Packet := pk opCREQ 0 { oparg := k, addr := 0x80, flags := 512, msg := 7 }
def meets (k : Nat) : Bool := comes agentBase (creqPkt k) fun _ u => creqChecked u 0 (creqPkt k) && decide (ckind (creqPkt k) = k) && (creqLine u 0 (creqPkt k)).isSome
def ownedBase (o : Nat) : State := { agentBase with coh := { agentBase.coh with dir := [(1, { st := .owned o })] } }
def giveUp (k : Nat) : Packet := pk opCREQ 0 { oparg := k, addr := 1, flags := 512, msg := 7, payload := if k = 3 then zeros 128 else [] }
def given (o k : Nat) : Bool := comes (ownedBase o) (giveUp k) fun _ u => creqChecked u 0 (giveUp k) && decide (ckind (giveUp k) = k) && (lineOfHln u 1).any fun l => !lineBusy u l 1 0 && decide (dirState (lookupDir u 1) 1 = some (.owned o))
def snooped (share : Bool) : State := { ownedBase 0 with coh := { (ownedBase 0).coh with
  snoopMsg := [((0, 7), 1)], busy := [(1, { awaiting := [(0, 0)], tgt := [0], share := share, cont := .backInval none })] } }
def cohAnswer (op oparg : Nat) : Packet := sealPacket { tc := 2, op := op, dst := 1, src := 2, oparg := oparg, addr := 1, msg := 7, flags := 512, payload := if op = opCDAT then zeros 128 else [] }
def answersSnoop (share : Bool) (op oparg : Nat) : Bool := comes (snooped share) (cohAnswer op oparg) fun _ u => decide ((agentOf u 0).state = .attached ∧ snoopOf u 0 (cohAnswer op oparg) = some 1) && cohAnswerOk u 0 (cohAnswer op oparg) && askedToShare u 1 == share && (lineOfHln u 1).isSome

theorem wit_creq_rd_shared : (meets 0) = true := by decide +kernel

theorem wit_creq_rd_own : (meets 1) = true := by decide +kernel

theorem wit_creq_upgrade : (meets 2) = true := by decide +kernel

theorem wit_creq_wb_dirty : (given 0 3 && given 1 3) = true := by decide +kernel

theorem wit_creq_evict_clean : (given 0 4 && given 1 4) = true := by decide +kernel

theorem wit_crsp_gives_up : (answersSnoop false opCRSP 8 && answersSnoop true opCRSP 8) = true := by decide +kernel

theorem wit_crsp_keeps : (answersSnoop true opCRSP 9) = true := by decide +kernel

theorem wit_cdat : (answersSnoop false opCDAT 8 && answersSnoop true opCDAT 25) = true := by decide +kernel

/-- Job 5 publishes the 2 MiB at 2^31, staged at 2^31 + 2 MiB; its version word lies in its first GiB. -/
def regionBase : State := { base with pool := { base.pool with
  tt := [(0, 65537), (512, 2 + 4 + 240 + 2 ^ 24), (514, 32 * 4096 + 1), (1024, 48 * 4096 + 1), (1025, 64 * 4096 + 1)]
  regions := [{ job := 5, span := 2 ^ 21, view := 2 ^ 31, vword := 0x40, version := 0, pubs := [5] }] } }
def publishPkt : Packet := pk opPUBLISH 0 { addr := 2 ^ 31, flags := 512, msg := 7, payload := zeros 8 ++ le 8 (2 ^ 31 + 2 ^ 21) }
def gatherPkt : Packet := pk opGATHER 0 { addr := 0x40, flags := 512, msg := 7, payload := le 4 3 ++ le 4 3 }

theorem wit_publish : (
  comes regionBase publishPkt fun t u => (publishEntered u t 0 publishPkt).any fun e => (regionOf e.2 e.1).any fun g => decide (5 ∈ g.pubs ∧ field publishPkt.payload 8 6 % g.span = 0 ∧ field publishPkt.payload 0 8 = g.version)
    && (e.2.pool.regions.all fun z => !overlap (field publishPkt.payload 8 6) g.span z.view z.span)
    && ((coveringEntry e.2 g.job g.view (spanLevel g.span)).any fun x => ttKind x.2 = 1) && ((coveringEntry e.2 g.job (field publishPkt.payload 8 6) (spanLevel g.span)).any fun x => ttKind x.2 = 1)
    && match reach e.2 e.1.quarter g.job 5 rightWrite g.vword 8 with
      | (.ok l, x) => (linesHold x 0 true (partsOf l 0)).1.isNone
      | _ => false) = true := by decide +kernel

theorem wit_gather : (
  comes base gatherPkt fun t u => (gatherEntered u t 0 gatherPkt).any fun e => match gatherReach e.2 e.1 (firstUses 0 (gaList gatherPkt) []) with
    | .ok _ => true
    | .error _ => false) = true := by decide +kernel

def sieveBase : State := { base with sieve := { slots := [(0, { state := .loaded, owner := 5, code := [0], digest := zeros 64 })] } }
def sievePkt (sfn : Nat) (o : List Nat) (prm : List Byte) : Packet := pk opSIEVE 0 { oparg := sfn, flags := 512, msg := 7, payload := padTo 64 (o.flatMap fun a => le 8 a ++ zeros 8) ++ padTo 64 prm }
def sievePkts : List Packet :=
  [sievePkt 0 [0x80, 0x1000, 0x2000] (le 4 4 ++ le 2 8 ++ le 2 0 ++ le 8 16),
   sievePkt 1 [0x80, 0x1000, 0x2000] (le 4 4 ++ le 2 8 ++ le 2 0 ++ le 8 16),
   sievePkt 2 [0x80, 0x1000, 0x2000] (le 4 4 ++ le 4 4 ++ le 4 0 ++ le 4 8),
   sievePkt 3 [0x80, 0, 0x2000] (le 4 4 ++ le 2 8 ++ le 2 0 ++ zeros 8 ++ le 4 4),
   sievePkt 4 [0x80, 0x1000, 0x2000, 0x8000] (le 4 4 ++ le 4 128 ++ le 2 2 ++ le 1 1 ++ le 1 0 ++ le 4 4),
   sievePkt 5 [0x80, 0x1000, 0x2000, 0x8000] (le 4 4 ++ le 2 32 ++ le 2 (9 + 9 * 32) ++ le 2 2 ++ le 1 1 ++ le 1 0 ++ le 4 4)]
def sieves (k : Nat) : Bool := (sievePkts[k]?).any fun p => comes sieveBase p fun _ u => decide (p.op = opSIEVE ∧ sfnOf p = k) && (sieveEntered u 0 p).any fun e => !e.2.2.pool.waiters.any fun x => flowBefore x.req.pkt p

theorem wit_sieve_gather_mem : (sieves 0) = true := by decide +kernel

theorem wit_sieve_scatter : (sieves 1) = true := by decide +kernel

theorem wit_sieve_setop : (sieves 2) = true := by decide +kernel

theorem wit_sieve_filter : (sieves 3) = true := by decide +kernel

theorem wit_sieve_dispatch : (sieves 4) = true := by decide +kernel

theorem wit_sieve_combine : (sieves 5) = true := by decide +kernel

/-- Reduction group 3 of job 5: a sum of 32 binary32 elements, with node 2 as contributor of rank 0 and child. -/
def groupArgs : OpenReductionArgs :=
  { rid := 3, job := 5, cop := 0, fmt := 10, rfmt := 10, rmode := 0, sat := 0, ranked := 0, qn := 0, dmode := 0, dtc := 0, parent := 1, round0 := 0, dnode := 2, dgroup := 0, length := 32, ntotal := 1, roundTimeout := 1000, dcap := 0, resBase := 0, cplOffset := 0, inputs := [⟨0, 2, 0⟩, ⟨1, 2, 0⟩] }
def groupBase (a : OpenReductionArgs) : State := { base with carry := { groups := [(3, { a := a, round := 0 })] } }
def reducePkt : Packet := pk opREDUCE 5 { flags := 16, msg := 7, oparg := 10 * 16, addr := 3, payload := zeros 128 }
def partialPkt (kind : Nat) : Packet := pk opPARTIAL 5 { flags := 17, msg := 7, oparg := 10 * 16, ext := le 1 1 ++ le 3 (3 + kind * 2 ^ 20) ++ zeros 5 ++ le 1 (if kind = 0 then 1 else 0) ++ zeros 6, payload := if kind = 0 then (List.replicate 32 ({} : Elem)).flatMap (elemRecord .l) else [] }
def beadPartialPkt : Packet := pk opPARTIAL 5 { flags := 17, msg := 7, oparg := 170, ext := le 1 2 ++ le 3 3 ++ zeros 12, payload := zeros 264 }
def attnArgs (parent : Nat) : OpenReductionArgs := { groupArgs with cop := 10, qn := 1, length := 64, parent := parent }
def inGroup (a : OpenReductionArgs) (p : Packet) (claim : State → Group → Bool) : Bool := comes (groupBase a) p fun _ u => decide (p.job = 5) && (groupOf u 3).any (claim u)

theorem wit_reduce : (
  inGroup groupArgs reducePkt fun u g => !reduceMalformed reducePkt && decide (rdRid reducePkt = 3 ∧ rdCop reducePkt = g.a.cop ∧ rdFmt reducePkt = g.a.fmt ∧ classOf g.a ≠ .attn) && (contribIndex u g.a 2 (rdRank reducePkt)).isSome
    && (reduceCover g.a reducePkt).isSome && decide (roundCheck g (rdRound reducePkt) = .now)) = true := by decide +kernel

theorem wit_partial_data : (
  inGroup groupArgs (partialPkt 0) fun _ g => !partialMalformed (partialPkt 0) && decide (pxRid (partialPkt 0) = 3 ∧ (partialPkt 0).oparg = g.a.cop + g.a.fmt * 16 ∧ pxKind (partialPkt 0) = 0 ∧ classOf g.a ≠ .fp64 ∧ classOf g.a ≠ .attn ∧ pxElem (partialPkt 0) / 32 + pxSlices (partialPkt 0) ≤ sliceCount g.a)
    && (inputIndex g.a 1 2 0).isSome && decide (roundCheck g (pxRound (partialPkt 0)) = .now) && (readSlices g.a (pxSlices (partialPkt 0)) 0 (partialPkt 0).payload).isSome) = true := by decide +kernel

theorem wit_abt_up : (inGroup groupArgs (partialPkt 1) fun _ g => !partialMalformed (partialPkt 1) && decide (pxKind (partialPkt 1) = 1) && (inputIndex g.a 1 2 0).isSome) = true := by decide +kernel

theorem wit_abt_down : (inGroup { groupArgs with parent := 2 } (partialPkt 2) fun u g => !partialMalformed (partialPkt 2) && decide (pxKind (partialPkt 2) = 2 ∧ g.a.parent = 2) && !isRoot u g.a) = true := by decide +kernel

theorem wit_abt_done : (inGroup groupArgs (partialPkt 3) fun _ g => !partialMalformed (partialPkt 3) && decide (pxKind (partialPkt 3) = 3) && (inputIndex g.a 1 2 0).isSome) = true := by decide +kernel

def beadPartialOk (a : OpenReductionArgs) (fwd : Bool) : Bool := inGroup a beadPartialPkt fun u g => !beadPartialMalformed beadPartialPkt && decide (classOf g.a = .attn ∧ (∃ x ∈ g.a.inputs, x.node = 2) ∧ bxBidx beadPartialPkt < g.a.ntotal
  ∧ bxQbase beadPartialPkt + bxQn beadPartialPkt ≤ g.a.qn ∧ dhOf (bxDhc beadPartialPkt) = g.a.length ∧ lenOf beadPartialPkt = bxQn beadPartialPkt * (8 + 4 * dhOf (bxDhc beadPartialPkt)) ∧ roundCheck g (bxRound beadPartialPkt) = .now) && forwardsOnly u g.a == fwd

set_option maxRecDepth 100000 in
theorem wit_bead_partial : (beadPartialOk (attnArgs 2) true && beadPartialOk (attnArgs 1) false) = true := by decide +kernel

def queryPkt (op : Nat) : Packet := sealPacket { tc := 6, op := op, dst := 0xFFFF, src := 0xFFFF, flags := 512 }
def mirrorPkt : Packet := pk opMIRROR 7 { flags := 512, payload := zeros 64 }
def queried (op : Nat) : Bool := (takenIn base 0 (queryPkt op)).any fun x => isReady x.2 && (headerCheck (queryPkt op)).isNone && forMe x.2 (queryPkt op) && (tget x.2.supply.tc6At 0).isNone && decide ((queryPkt op).op = op)

theorem wit_identity : (queried opIDENTITY) = true := by decide +kernel

theorem wit_status_query : (queried opSTATUS_QUERY) = true := by decide +kernel

theorem wit_mirror : (comes base mirrorPkt fun _ _ => decide (mirrorPkt.op = opMIRROR)) = true := by decide +kernel

/-- A hop-by-hop map message of the partner, and an addressed one. -/
def hopPkt (op oparg : Nat) (d : List Byte) : Packet := sealPacket { tc := 6, op := op, dst := 0xFFFF, src := 2, oparg := oparg, payload := d }
def mapPkt (op : Nat) (d : List Byte) : Packet := sealPacket { tc := 6, op := op, dst := 1, src := 2, payload := d }
def lsrPkt : Packet := hopPkt opMAP_LSR 0 (le 2 2 ++ zeros 2 ++ le 4 1 ++ le 2 0 ++ le 2 1 ++ le 2 1 ++ le 2 0 ++ zeros 8)
def preparePkt (snap : Nat) : Packet := hopPkt opMAP_PREPARE snap (le 2 2 ++ le 1 1 ++ le 1 (1 - snap) ++ le 2 0 ++ le 2 1 ++ le 4 1 ++ le 4 1 ++ le 1 0x31 ++ zeros 1 ++ le 2 2 ++ zeros 28)
def votePkt (op : Nat) : Packet := (if op = opMAP_VOTE then mapPkt op else hopPkt op 0) (le 4 1 ++ le 1 1 ++ zeros 3)
def coordBase : State := { base with map := { base.map with coord := some { caller := { mbox := .fm 0 }, propId := 1, epoch := 1, startedAt := 0, voters := [2] } } }
def handoffPkt (kind : Nat) : Packet := mapPkt opMAP_HANDOFF (le 4 kind ++ le 2 7 ++ zeros 10)

theorem wit_map_lsr : (comes base lsrPkt fun _ u => decide (roleOf u 0 = roleSWITCH) && !lsrMalformed lsrPkt) = true := by decide +kernel

theorem wit_map_ack : (comes base (mapPkt opMAP_ACK (zeros 8)) fun _ u => decide (roleOf u 0 = roleSWITCH) && mapHeaderOk (mapPkt opMAP_ACK (zeros 8)) false) = true := by decide +kernel

theorem wit_map_prepare : (comes base (preparePkt 0) fun _ u => decide (roleOf u 0 = roleSWITCH ∧ (preparePkt 0).oparg % 256 ≠ 1) && !prepareMalformed (preparePkt 0)) = true := by decide +kernel

theorem wit_map_snapshot : (comes base (preparePkt 1) fun _ u => decide (roleOf u 0 = roleSWITCH ∧ (preparePkt 1).oparg % 256 = 1) && !prepareMalformed (preparePkt 1)) = true := by decide +kernel

theorem wit_map_vote : (comes coordBase (votePkt opMAP_VOTE) fun _ u => decide (roleOf u 0 = roleSWITCH) && !voteMalformed (votePkt opMAP_VOTE) false && (ackRouted u 2 opMAP_VOTE 0 0 1).map.coord.any fun c => decide (c.propId = 1 ∧ c.epoch = 1)) = true := by decide +kernel

theorem wit_map_commit : (comes base (votePkt opMAP_COMMIT) fun _ u => decide (roleOf u 0 = roleSWITCH) && !voteMalformed (votePkt opMAP_COMMIT) true) = true := by decide +kernel

theorem wit_map_pull : ([0, 1].all fun k => comes base (hopPkt opMAP_PULL 0 (le 1 k ++ zeros 7)) fun _ u => decide (roleOf u 0 = roleSWITCH) && mapHeaderOk (hopPkt opMAP_PULL 0 (le 1 k ++ zeros 7)) true) = true := by decide +kernel

theorem wit_handoff : ([0, 1, 2, 3].all fun k => comes base (handoffPkt k) fun _ u => decide (roleOf u 0 = roleSWITCH ∧ field (handoffPkt k).payload 0 4 % 16 = k) && !handoffMalformed (handoffPkt k)) = true := by decide +kernel

/-- The switch of node 3 is the partner of logical port 8, and group 0xC000 has its root there. -/
def transitBase : State := { base with
  regs := [(aLPORT_ROLE 0, 3), (aNEAR_RESIDENT 0, 1), (aLPORT_ROLE 8, 3)]
  links := { base.links with ports := [(0, { state := .up, partnerNode := 2 }), (8, { state := .up, partnerNode := 3 })], lanes := [(0, { active := true }), (8, { active := true })] }
  map := { base.map with comp := { nodes := [(1, { kind := 3 }), (2, { kind := 3 }), (3, { kind := 3 })], groups := [(0xC000, (3, [2, 3]))] }, lsrs := [(3, { seq := 1, frags := [(0, [{ lport := 0, role := 3, up := true, lanes := 1, peer := 1, peerLport := 8 }])], keptAt := 0 })] } }
def transitPkt (dst : Nat) : Packet := sealPacket { tc := 0, op := opSTORE, dst := dst, src := 2, job := 5, msg := 7, flags := 528, payload := zeros 8 }
def inTransit (p : Packet) (claim : Colour → State → Composition → Bool) : Bool := (takenIn transitBase 0 p).any fun x => passesPort x.2 0 p && !forMe transitBase p && !forMe x.2 p && !isCohOp p.op && !badCombined x.2 0 p && (compFor x.2 p.epoch).any (claim x.1 x.2)

theorem wit_packet_forward : (inTransit (transitPkt 3) fun _ u comp => !isGroup 3 && (combine u 0 (transitPkt 3)).isNone && decide ((choosePort u (routeSet u comp 3) (transitPkt 3)).1 = some 8)) = true := by decide +kernel

theorem wit_packet_group : (inTransit (transitPkt 0xC000) fun c u comp => isGroup 0xC000 && multicastOk (transitPkt 0xC000) && !(forwardGroup u 0 c (arrivedAt transitBase 0 (transitPkt 0xC000)) comp (transitPkt 0xC000)).1) = true := by decide +kernel

theorem wit_packet_bad_crc : (isUp base 0 && decide ({ mirrorPkt with dst := 3, crc := mirrorPkt.crc + 1 }.crc ≠ packetCrc { mirrorPkt with dst := 3 }) && !lossless 7 && !forMe base { mirrorPkt with dst := 3 }) = true := by decide +kernel

/-! ### Witnesses of the statements on mailbox commands -/

/-- The fabric manager's session 0. -/
def fm0 : Caller := { mbox := .fm 0 }
/-- The common checks let the manager's command go in the state, and the claim holds of it once the command has started. -/
def goes (s : State) (op : Nat) (jobs : List Nat) (claim : State → Bool) : Bool := decide (gate s fm0 op jobs = .go) && claim (startCmd s fm0)
/-- The word that a WRITE_REGISTER of all bits accepts. -/
def wordIn (u : State) (a v : Nat) : Word := writtenWord (acceptedWord u a) (BitVec.ofNat 32 0xFFFFFFFF) (BitVec.ofNat 32 v) a
def writes (a v : Nat) : Bool := goes base mbWRITE_REGISTER [] fun u => (rangeBlock a 1).any fun b => (regFields a).any (fun f => f.kind ≠ .ro) && blockReached u b && !absentPort u a && !tailHeld u a && !writeLocked u a (wordIn u a v)
def qosBase : State := { base with regsPending := [(aAQM_PROFILE 0, BitVec.ofNat 32 0x2001)] }
def gateSched : Gate := { entries := [(500, 0xFFFF), (500, 0xFFFF)] }
def gateBase : State := { base with queues := { gatePending := [(0, gateSched)] } }

theorem wit_write_register : (writes (aPORT_CFG 60) 0 && writes aNEAR_CFG 5 && writes (aQUEUE_PARAM 0) 1) = true := by decide +kernel

theorem wit_read_register : (goes base mbREAD_REGISTER [] fun u => [1, 56].all fun n => (rangeBlock (aQUEUE_PARAM 0) n).any fun b => blockReached u b) = true := by decide +kernel

theorem wit_low_word : (isPair 0x40000 && decide (0x40000 % 8 = 0) && isPair aTEL && isPair aHS && decide (aTEL % 8 = 0 ∧ aHS % 8 = 0)) = true := by decide +kernel

theorem wit_commit_near : (goes base mbCOMMIT_GROUP [] fun _ => true) = true := by decide +kernel

theorem wit_commit_gate : (goes gateBase mbCOMMIT_GROUP [] fun u => decide (gateBase.queues.gateCommit = none ∧ (sortAsc (u.queues.gatePending.map (·.1))).filter (isLport u) = [0]) && (gateBad u 0 (tgetD u.queues.gatePending 0 {})).isNone) = true := by decide +kernel

theorem wit_commit_qos : (goes qosBase mbCOMMIT_GROUP [] fun u => decide (qosPending u = [aAQM_PROFILE 0]) && (qosBad u (aAQM_PROFILE 0)).isNone) = true := by decide +kernel

theorem wit_discard : (goes qosBase mbDISCARD_GROUP [] fun _ => true) = true := by decide +kernel

def winArgs : OpenWindowArgs := { job := 5, rights := 31, evtLog2 := 0, evtNode := 0, base := 128, length := 128, evtCap := 0 }
def winAsk : OpenAsk := { job := 5, rights := 31, base := 128, length := 128, evtCap := 0, evtNode := 0, evtLog2 := 0, via := true }
def capOf (gen : Nat) : Nat := 4 + gen * 2 ^ 20 + 9 * 2 ^ 32
def revokes (st : WinState) (gen : Nat) (c : Revoke) : Bool := goes (windowIn st gen) mbREVOKE_WINDOW [] fun u => ownJob u fm0 (windowAt u (capIndex (capOf 1))).ownerJob && decide (revokeCase u (capOf 1) none = c)
def attachBase : State := { base with regs := [(aLPORT_ROLE 0, 1), (aNEAR_RESIDENT 0, 1)] }

theorem wit_open_window : (
  goes base mbOPEN_WINDOW [5] fun u => !openMalformed winAsk && thas u.pool.jobs 5 && match (openWindowAt u (callerQuarter u fm0) winAsk).1 with
    | .cap _ => true
    | _ => false) = true := by decide +kernel

theorem wit_revoke_window_start : (revokes .open_ 1 .start) = true := by decide +kernel

theorem wit_revoke_window_join : (revokes .revoking 2 .join) = true := by decide +kernel

theorem wit_revoke_window_done : (revokes .revoked 2 .done) = true := by decide +kernel

theorem wit_revoke_window_force : ([WinState.open_, .revoked].all fun st => goes (windowIn st 1) mbREVOKE_WINDOW [] fun u => decide (callerClass fm0 = .fm ∧ (windowAt u 4).state = st)) = true := by decide +kernel

theorem wit_query_window : (goes (windowIn .open_ 1) mbQUERY_WINDOW [] fun u => ownJob u fm0 (windowAt u (2 ^ 20 - 1)).ownerJob && ownJob u fm0 (windowAt u 4).ownerJob) = true := by decide +kernel

theorem wit_set_window_quota : (goes base mbSET_WINDOW_QUOTA [65535] fun _ => true) = true := by decide +kernel

theorem wit_attach_agent : (goes attachBase mbATTACH_AGENT [] fun u => mayAttach u 0) = true := by decide +kernel

theorem wit_detach_agent : (goes agentBase mbDETACH_AGENT [] fun u => decide ((agentOf u 0).state = .attached)) = true := by decide +kernel

/-- Job 5 with the open fault 1 of a page, and the second GiB's LEAF entry invalid. -/
def faultJob : Job := { ttRoot := 0, pagerCap := 1, pagerNode := 2, faults := [(1, { page := 2 ^ 30, psize := 2, opened := 0, write := false, src := 2 })] }
def faultBase : State := { base with regs := [(aLPORT_ROLE 0, 3), (aNEAR_RESIDENT 0, 3)], pool := { base.pool with jobs := [(5, faultJob)], tt := [(0, 65537), (512, 2 + 4 + 240 + 2 ^ 24), (513, 2)] } }
def jobArgs : InstallJobArgs := { job := 6, ranked := 1, pagerNode := 2, faultSlots := 4096, parkTimeout := 2500, ttRoot := 0, pagerCap := 1, rankedSet := [3, 2] }
def ttArgs : WriteTtArgs := { job := 5, level := 1, first := 511, table := 4096, entries := [0] }
def resolveArgs (o h : Nat) : ResolveFaultArgs := { job := 5, outcome := o, hasLeaf := h, fid := 1, leaf := if h = 1 then 2 + 4 + 240 + 2 ^ 24 else 0 }

theorem wit_set_port_jobs : (goes base mbSET_PORT_JOBS [] fun u => (badItem 4 2 (fun j => 65536 ≤ j) [5, 65535]).isNone && isLport u 0) = true := by decide +kernel

theorem wit_install_job : (goes base mbINSTALL_JOB [6] fun u => (installBad u jobArgs).isNone && !thas u.pool.jobs 6) = true := by decide +kernel

theorem wit_remove_job : (goes base mbREMOVE_JOB [5] fun u => (tget u.pool.jobs 5).isSome) = true := by decide +kernel

theorem wit_write_tt_entries : (goes base mbWRITE_TT_ENTRIES [5] fun u => thas u.pool.jobs 5 && decide (ttArgs.level < 4 ∧ ttArgs.first + ttArgs.entries.length ≤ 2 ^ levelBits ttArgs.level ∧ ttArgs.table % (8 * 2 ^ levelBits ttArgs.level) = 0 ∧ ttArgs.table + 8 * 2 ^ levelBits ttArgs.level ≤ ttSize u) && ttArgs.entries.all fun e => decide (e < 2 ^ 64) && !entryRefused u 1 e) = true := by decide +kernel

theorem wit_resolve_fault : ([(0, 0), (1, 0), (2, 0)].all fun x => goes faultBase mbRESOLVE_FAULT [5] fun u => (resolveBad (resolveArgs x.1 x.2)).isNone && (tget u.pool.jobs 5).any fun j => (tget j.faults 1).isSome) = true := by decide +kernel

theorem wit_resolve_fault_leaf : (goes faultBase mbRESOLVE_FAULT [5] fun u => (resolveBad (resolveArgs 0 1)).isNone && (tget u.pool.jobs 5).any fun j => (tget j.faults 1).any fun f => !entryRefused u (3 - f.psize) (resolveArgs 0 1).leaf && (coveringEntry u 5 f.page (3 - f.psize)).any fun x => ttKind x.2 = 2) = true := by decide +kernel

def trayBase : State := { base with map := { base.map with comp := { nodes := [(1, { kind := 3 }), (2, { kind := 3 }), (9, { kind := 2, att := [(0, 1, 8)] })] } } }
/-- A page of job 5 of 2^31 on is COMPRESSED in the module's own memory. -/
def imageBase : State := { base with pool := { base.pool with tt := [(0, 65537), (512, 2 + 4 + 240 + 2 ^ 24), (514, 32 * 4096 + 1), (16384, 48 * 4096 + 1), (24576, 2 + 4 * 2 + 240 + 2 ^ 24)] } }
def zeroImage : List Byte := zeros 128
def pubArgs : PublishArgs := { job := 5, span := 0, pubs := [5], view := 2 ^ 31, vword := 0x40, version := 0 }
def viewBase : State := { regionBase with pool := { regionBase.pool with regions := [] } }

theorem wit_flush_near_tier : (goes base mbFLUSH_NEAR_TIER [] fun _ => true) = true := by decide +kernel

theorem wit_declare_tray_lost : (goes trayBase mbDECLARE_TRAY_LOST [] fun u => (tget u.map.comp.nodes 9).any fun e => e.kind = 2) = true := by decide +kernel

theorem wit_create_publish_region : (goes viewBase mbCREATE_PUBLISH_REGION [5] fun u => thas u.pool.jobs 5 && (regionBad pubArgs).isNone && decide (u.pool.regions = []) && (coveringEntry u 5 pubArgs.view (spanLevel (spanBytes 0))).any fun x => ttKind x.2 = 1) = true := by decide +kernel

theorem wit_delete_publish_region : (goes regionBase mbDELETE_PUBLISH_REGION [5] fun u => u.pool.regions.any fun g => g.job = 5 && g.view = 2 ^ 31) = true := by decide +kernel

def redArgs : OpenReductionArgs := { groupArgs with cplOffset := 128 }
def redBase : State := groupBase groupArgs
def addIns : Nat := 0x10
def slotIs (st : SlotState) : State := { base with sieve := { slots := [(63, { state := st, owner := 5, nextPart := 1, code := [0], digest := zeros 64 })] } }

theorem wit_open_reduction : (goes base mbOPEN_REDUCTION [5] fun u => (openReductionBad u redArgs).isNone && (inputsBad redArgs).isNone && !thas u.carry.groups 3 && (tget u.carry.closed 3).isNone && decide (u.carry.groups.length < 16384) && (stagingShort u redArgs).isNone) = true := by decide +kernel

theorem wit_group_commands : ([(mbCLOSE_REDUCTION, 1), (mbABORT_REDUCTION, 1), (mbABORT_REDUCTION, 2), (mbQUERY_REDUCTION, 1)].all fun x => goes (groupBase { groupArgs with parent := x.2 }) x.1 [] fun u => (groupOf u 3).any fun g => ownJob u fm0 g.a.job && isRoot u g.a == decide (x.2 = 1)) = true := by decide +kernel

theorem wit_load_sieve_program : (
  [0, 1].all fun part => goes (if part = 0 then base else slotIs .loading) mbLOAD_SIEVE_PROGRAM [5] fun u => decide (if part = 0 then (progSlot u 63).state = .free else (progSlot u 63).state = .loading ∧ part = (progSlot u 63).nextPart ∧ 5 = (progSlot u 63).owner)
    && (firstBad ((if part = 0 then [] else (progSlot u 63).code) ++ [addIns])).isNone) = true := by decide +kernel

theorem wit_unload_sieve_program : (goes (slotIs .loaded) mbUNLOAD_SIEVE_PROGRAM [] fun u => decide ((progSlot u 63).state = .loaded) && ownJob u fm0 (progSlot u 63).owner) = true := by decide +kernel

theorem wit_query_sieve_program : (goes (slotIs .loaded) mbQUERY_SIEVE_PROGRAM [] fun u => decide ((progSlot u 0).owner = 0) && ownJob u fm0 (progSlot u 63).owner) = true := by decide +kernel

def chanIs (st : ChState) : State := { base with mover := { channels := [(127, { state := st, job := 5 })] } }

theorem wit_open_mover_channel : (goes base mbOPEN_MOVER_CHANNEL [5] fun u => decide ((2 ^ 48 - 64 * 2 ^ 16) % (64 * 2 ^ 16) = 0 ∧ 0 % (64 * 2 ^ 4) = 0 ∧ (chan u 127).state = .closed) && thas u.pool.jobs 5) = true := by decide +kernel

theorem wit_channel_commands : ([mbCLOSE_MOVER_CHANNEL, mbSET_MOVER_PRIORITY, mbQUERY_MOVER_CHANNEL].all fun op => goes (chanIs .idle) op [] fun u => decide ((chan u 127).state ≠ .closed ∧ (chan u 127).closing = false) && ownJob u fm0 (chan u 127).job) = true := by decide +kernel

theorem wit_query_closed_channel : (goes base mbQUERY_MOVER_CHANNEL [] fun u => decide ((chan u 0).state = .closed)) = true := by decide +kernel

theorem wit_assign_bead_channel : (goes base mbASSIGN_BEAD_CHANNEL [5] fun u => thas u.pool.jobs 5 && (residentChannels u).contains 0 && decide ((beadCh u 0).mode = .memory ∧ (beadCh u 0).owner = none ∧ u.pool.stacksLost.contains 0 = false)) = true := by decide +kernel

theorem wit_release_bead_channel : ([mbRELEASE_BEAD_CHANNEL, mbQUERY_BEAD_CHANNEL].all fun op => goes beadBase op [] fun u => (beadCh u 0).owner.isSome && ownChannel u fm0 0) = true := by decide +kernel

def gateBytes (n : Nat) : List Byte := zeros 8 ++ le 8 n ++ (List.range n).flatMap fun _ => le 4 1000 ++ le 2 0xFFFF ++ le 2 0
def tallyArgs : TallySessionArgs := { session := 15, enable := 1, shift := 20, tcMask := 255, events := 65535, anyMask := 31, op := 0, lport := 0, job := 0, src := 0, dst := 0 }
/-- A composition record that adds switch 7. -/
def recNode7 : List Byte := le 1 (1 + 16 * 3) ++ zeros 1 ++ le 2 7 ++ zeros 4 ++ le 8 77 ++ zeros 16
def propArgs : ProposeMapArgs := { base := 0, maxTransit := 100, records := [recNode7] }
def laneIs (l : Lane) : State := { base with links := { base.links with lanes := [(0, l)] } }
def heldPort : State := { base with links := { base.links with ports := [(0, { state := .held })] } }

theorem wit_set_gate_schedule : (goes base mbSET_GATE_SCHEDULE [] fun u => isLport u 0 && gateWell (gateBytes 0) && gateWell (gateBytes 64)) = true := by decide +kernel

theorem wit_set_tally_session : (goes base mbSET_TALLY_SESSION [] fun _ => (sessionBad tallyArgs).isNone) = true := by decide +kernel

theorem wit_read_tally : (goes base mbREAD_TALLY [] fun u => [0, 3].all fun n => decide (regField u (aTALLY_CFG n) 9 1 = 0) && ucieUp u n) = true := by decide +kernel

theorem wit_propose_map : (goes base mbPROPOSE_MAP [] fun u => propArgs.records.all recOk && u.map.proposal.isNone && u.map.coord.isNone && decide (propArgs.base = u.map.epoch) && (checkRecs u (propArgs.records.map parseRec)).isLeft && !graceRuns u) = true := by decide +kernel

theorem wit_query_map : (goes transitBase mbQUERY_MAP [] fun u => (tget u.map.comp.nodes 3).isSome && ownNode u fm0 3 && (tget u.map.comp.groups 0xC000).any fun g => g.2.all (ownNode u fm0)) = true := by decide +kernel

theorem wit_set_port_role : (goes { base with links := {} } mbSET_PORT_ROLE [] fun u => isLport u 0 && [0, 4].all fun r => !writeLocked u (aLPORT_ROLE 0) (BitVec.ofNat 32 r)) = true := by decide +kernel

theorem wit_drain_module : (goes base mbDRAIN_MODULE [] fun _ => !base.map.departing) = true := by decide +kernel

theorem wit_retire_lane : (goes base mbRETIRE_LANE [] fun u => isUp u (lportOfLane u 0) && (Machine.lane u 0).active && !(Machine.lane u 0).retired && !(Machine.lane u 511).retired && !(Machine.lane u 511).active) = true := by decide +kernel

theorem wit_retrain_lane : (goes (laneIs { retired := true }) mbRETRAIN_LANE [] fun u => (Machine.lane u 0).retired && decide ((Machine.lane u 0).retrain = .idle)) = true := by decide +kernel

theorem wit_release_flap_hold : (goes heldPort mbRELEASE_FLAP_HOLD [] fun u => isLport u 0 && decide ((Machine.lport u 0).state = .held)) = true := by decide +kernel

def tenantCaller : Caller := { mbox := .fm 0, tenant := true }
def slotIsKey (k : KeySlot) : State := { base with ten := { base.ten with slots := [(7, k)] } }

theorem wit_get_attestation : ([0, 16].all fun n => goes { base with ten := { base.ten with akReady := true, reports := List.replicate n (fm0, []) } } mbGET_ATTESTATION [] fun u => decide (u.ten.akReady = true ∧ u.ten.reports.length < 17)) = true := by decide +kernel

theorem wit_get_identity_chain : (goes base mbGET_IDENTITY_CHAIN [] fun _ => true) = true := by decide +kernel

theorem wit_allocate_key_slot : (goes base mbALLOCATE_KEY_SLOT [] fun u => decide ((keySlot u 1023).state = .free ∧ (keySlot u 1023).leafRefs = 0)) = true := by decide +kernel

theorem wit_install_tenant_key : (decide (gate (slotIsKey { state := .allocated, tenant := 9 }) tenantCaller mbINSTALL_TENANT_KEY [] = .go) && [startCmd (slotIsKey { state := .allocated, tenant := 9 }) tenantCaller].all fun u => decide ((keySlot u 7).state = .allocated ∧ (keySlot u 7).tenant = 9)) = true := by decide +kernel

theorem wit_remove_tenant : (goes (slotIsKey { state := .active, tenant := 4095 }) mbREMOVE_TENANT [] fun u => decide (slotsOfTenant u 4095 = [7])) = true := by decide +kernel

theorem wit_query_key_slot : (goes base mbQUERY_KEY_SLOT [] fun _ => !fm0.tenant) = true := by decide +kernel

def fm1Session : State := { base with rkn := { base.rkn with sessions := [(0, { id := 0 })] } }
def boardCaller : Caller := { mbox := .baseboard }
def clearCaller : Caller := { mbox := .clear 0 }

theorem wit_get_identity : (goes base mbGET_IDENTITY [] fun _ => decide (callerClass fm0 ≠ .tenant) && goes base mbGET_STATUS [] fun _ => true) = true := by decide +kernel

theorem wit_open_session : (decide (gate base clearCaller mbOPEN_SESSION [] = .go) && isClear clearCaller.mbox && [0, 1].all fun n => (sessionFor (startCmd (if n = 0 then base else fm1Session) clearCaller)).isSome) = true := by decide +kernel

theorem wit_close_session : (goes fm1Session mbCLOSE_SESSION [] fun u => stillOpen u fm0) = true := by decide +kernel

theorem wit_set_manager_keys : (goes base mbSET_MANAGER_KEYS [] (fun _ => true) && decide (gate base boardCaller mbSET_MANAGER_KEYS [] = .go ∧ base.rkn.managerKeys = [])) = true := by decide +kernel

theorem wit_bind_host_mailbox : (goes base mbBIND_HOST_MAILBOX [] fun u => isLport u 0) = true := by decide +kernel

theorem wit_stage_firmware : (goes base mbSTAGE_FIRMWARE [] fun _ => decide (5242880 - 1 + ([0] : List Byte).length ≤ 5242880)) = true := by decide +kernel

theorem wit_activate_firmware : (goes { base with rkn := { base.rkn with stagedValid := true } } mbACTIVATE_FIRMWARE [] fun u => decide (u.rkn.activation = none)) = true := by decide +kernel

theorem wit_query_firmware : (goes base mbQUERY_FIRMWARE [] fun _ => true) = true := by decide +kernel

def drillBase : State := { base with now := ms 100000, regs := [(aLPORT_ROLE 0, 3), (aNEAR_RESIDENT 0, 1), (aDRILL_CFG, 1)] }
def drillArgs : DrillArgs := { dkind := 1, id := 1, target := 0, p0 := 0, p1 := 0 }

theorem wit_retire_unit : (goes base mbRETIRE_UNIT [] fun u => [UnitKind.rod, .carry, .sieve, .mover].all (fun k => !u.spares.retired.contains (k, unitTotalOf k - 1)) && !u.spares.bankRetired.contains 2047) = true := by decide +kernel

theorem wit_run_drill : (goes drillBase mbRUN_DRILL [] fun u => (drillBad drillArgs).isNone && (drillRefusal u drillArgs).isNone) = true := by decide +kernel

theorem wit_abort_drill : (goes { base with spares := { drill := some { args := drillArgs, startedAt := 0 } } } mbABORT_DRILL [] fun u => u.spares.drill.isSome) = true := by decide +kernel

theorem wit_read_logs : ([mbREAD_EVENT_LOG, mbREAD_DRILL_LOG].all fun op => goes base op [] fun _ => true) = true := by decide +kernel

/-- OPEN_SESSION's signature check needs nothing but the manager's signature, which no proof can compute. -/
theorem wit_manager_signed (a : OpenSessionArgs) (key : List Byte) (hi : a.keyIdx = 0)
    (h : Config.slhVerify true key (openArgs a ++ padTo 16 base.ten.bootId) a.mgrSig = true) :
    managerSigned { base with rkn := { base.rkn with managerKeys := [key] } } a = true := by
  simpa [managerSigned, hi] using h
def grantBody : List Byte := le 4 1 ++ le 2 9 ++ le 2 7 ++ le 8 1 ++ le 8 1 ++ le 2 5 ++ zeros 126
/-- A grant of job 5 to slot 7 is valid but for its signature, which no proof can compute. -/
theorem wit_grant_valid (sig : List Byte) (hl : sig.length = 29792) (h : Config.slhVerify false [] grantBody sig = true) :
    grantValid (slotIsKey { state := .active, tenant := 9 }) grantBody sig = true := by
  have e : grantWell grantBody && (keySlot (slotIsKey { state := .active, tenant := 9 }) (field grantBody 6 2)).state = .active
      && decide ((keySlot (slotIsKey { state := .active, tenant := 9 }) (field grantBody 6 2)).tenant = field grantBody 4 2)
      && decide ((keySlot (slotIsKey { state := .active, tenant := 9 }) (field grantBody 6 2)).gseq < field grantBody 8 8) = true := by decide +kernel
  have k : (keySlot (slotIsKey { state := .active, tenant := 9 }) (field grantBody 6 2)).gkey = [] := by decide +kernel
  simp only [grantValid, k, hl, h]
  simpa using e

/-! ### Witnesses of the statements on ports, flits and lanes -/

/-- Logical port 0 enabled, its lanes' symbol limit at 100, and the port in some state. -/
def portWith (p : LPort) (l : Lane) : State := { base with
  regs := [(aPORT_CFG 0, BitVec.ofNat 32 (16 + 100 * 65536)), (aLPORT_ROLE 0, 3), (aNEAR_RESIDENT 0, 1)]
  links := { ports := [(0, p)], lanes := [(0, l), (7, l)], open_ := true } }
def portIn (st : PortState) : State := portWith { state := st, partnerNode := 2 } { active := decide (st = .up) }
def closedPort (st : PortState) : State := { portIn st with regs := [(aPORT_CFG 0, 0), (aLPORT_ROLE 0, 3), (aNEAR_RESIDENT 0, 1)] }
def helloOf2 : Hello := { node := 2, lport := 0, width := 8, lane := 0, credTc0 := 65, credTc1 := 65, credTc2 := 65, credTc5 := 65, replayDepth := 2048, ready := true }
def draining0 (p : LPort) (t : Ns) : State := portWith { p with state := .up, draining := some t } { active := true }

theorem wit_port_enable : (isLport base 0 && isLport base 504 && portEnabled (portIn .disabled) 0 && decide ((Machine.lport (portIn .disabled) 0).state = .disabled ∧ (portIn .disabled).links.open_ = true) && !rodOut (portIn .disabled) 0) = true := by decide +kernel

theorem wit_port_disable : ([PortState.up, .waitAdmit, .training, .lock, .hello, .down].all fun st => isLport (closedPort st) 0 && !portEnabled (closedPort st) 0 && decide ((Machine.lport (closedPort st) 0).state = st ∧ (Machine.lport (closedPort st) 0).draining = none)) = true := by decide +kernel

theorem wit_disable_drain_end : ([draining0 {} (ms 100000), draining0 { replay := [{}] } (ms 100000 - us 10)].all fun s => (Machine.lport s 0).draining.any fun t => decide ((Machine.lport s 0).replay = [] ∧ (Machine.lport s 0).ctl = []) || due s t (us 10)) = true := by decide +kernel

theorem wit_training_start : ([none, some (ms 100000 - us 125)].all fun t => { portIn .waitAdmit with links := { (portIn .waitAdmit).links with starts := [{ lport := 0 }], lastStart := t } }.links.starts.any fun x => startWaits (portIn .waitAdmit) x && x.lane.isNone && t.all fun t => due (portIn .waitAdmit) t (us 125)) = true := by decide +kernel

theorem wit_receiver_ready : (decide (0 = lportOfLane (portIn .training) 7 ∧ (Machine.lport (portIn .training) 0).state = .training ∧ (Machine.lane (portIn .training) 7).retired = false)) = true := by decide +kernel

theorem wit_training_timeout : (due { portIn .training with now := ms 500 } (Machine.lport (portIn .training) 0).since (ms 500)) = true := by decide +kernel

theorem wit_flit_lock : (decide (0 = lportOfLane (portIn .lock) 7 ∧ (Machine.lport (portIn .lock) 0).state = .lock ∧ (Machine.lane (portIn .lock) 7).retired = false)) = true := by decide +kernel

theorem wit_hello_send : (inHello (portIn .hello) 7 && due { portIn .hello with now := us 1 } (Machine.lane (portIn .hello) 7).lastHello (us 1)) = true := by decide +kernel

theorem wit_hello_receive : (inHello (portIn .hello) 0 && helloWell helloOf2 && decide (65 ≤ leastCredit helloOf2 ∧ (Machine.lport (portIn .hello) 0).state = .hello)) = true := by decide +kernel

theorem wit_hello_timeout : (due { portIn .hello with now := ms 10 } (Machine.lport (portIn .hello) 0).since (ms 10)) = true := by decide +kernel

theorem wit_backoff_expiry : (due { portIn .down with now := ms 1 } (Machine.lport (portIn .down) 0).since (ms (Machine.lport (portIn .down) 0).backoff) && !rodOut (portIn .down) 0 && portEnabled (portIn .down) 0 && !flapping (Machine.lport (portIn .down) 0)) = true := by decide +kernel

theorem wit_backoff_reset : (isUp (portIn .up) 0 && due { portIn .up with now := ms 60000 } (Machine.lport (portIn .up) 0).since (ms 60000)) = true := by decide +kernel

/-- Logical port 0 UP, its lane 0 active, able to send, with what the port holds. -/
def sends (p : LPort) (claim : LPort → Bool) : Bool :=
  let s := portWith { p with state := .up } { active := true }
  decide (0 = lportOfLane s 0) && isUp s 0 && (Machine.lane s 0).active && !rodPaused s 0 && decide ((Machine.lport s 0).replay.length < replayRoom s 0) && claim (Machine.lport s 0)
def oneFlit : Flit := sealFlit { fkind := 1, fpo := 255, pend := 1, payload := [7] }
def received (f : Flit) : Bool :=
  let u := passFlit (portIn .up) 0 f.damaged
  isUp u 0 && (Machine.lane u 0).active && !rodPaused u 0

theorem wit_transmit_resend : (sends { resend := [oneFlit] } fun p => decide (p.resend = [oneFlit])) = true := by decide +kernel

theorem wit_transmit_full : (decide (replayRoom (portIn .up) 0 ≤ 2047) && isUp (portIn .up) 0 && decide (replayRoom (portIn .up) 0 = ({ replay := List.replicate (replayRoom (portIn .up) 0) oneFlit } : LPort).replay.length)) = true := by decide +kernel

theorem wit_transmit_control : (sends { ctl := [[4, 0]] } fun p => decide (p.ctl = [[4, 0]])) = true := by decide +kernel

theorem wit_transmit_lossless : ([false, true].all fun e => sends { txLossless := { part := [7] }, draining := if e then some 0 else none } fun p => hasBytes p.txLossless (endsPackets p) && endsPackets p == e) = true := by decide +kernel

theorem wit_transmit_lossy : (sends { txLossy := { part := [7] } } fun p => !hasBytes p.txLossless (endsPackets p) && hasBytes p.txLossy (endsPackets p)) = true := by decide +kernel

theorem wit_transmit_idle : (sends {} fun p => !hasBytes p.txLossless (endsPackets p) && !hasBytes p.txLossy (endsPackets p)) = true := by decide +kernel

theorem wit_receive_bad : (received { oneFlit with damaged := true } && flitBad { oneFlit with damaged := true } && received { oneFlit with lcrc := 0 } && flitBad { oneFlit with lcrc := 0 }) = true := by decide +kernel

theorem wit_receive_idle : (received (sealFlit {}) && !flitBad (sealFlit {})) = true := by decide +kernel

theorem wit_receive_data : (received oneFlit && !flitBad oneFlit && decide (oneFlit.fkind ≠ 0 ∧ oneFlit.fkind ≠ 3)) = true := by decide +kernel

theorem wit_missing_lseq : (sends { ahead := [(oneFlit, false)], aheadAt := ms 100000 - 256 } fun p => !p.lnak && decide (p.ahead ≠ []) && due base p.aheadAt 256) = true := by decide +kernel

theorem wit_replay_timeout : ([15, 16].all fun n => sends { replay := [oneFlit], lackAt := ms 100000 - us 10, replays := n } fun p => decide (p.replay ≠ [] ∧ p.replays = n) && due base p.lackAt (us 10) && decide (activeLanes (portIn .up) 0 ≠ [])) = true := by decide +kernel

theorem wit_lock_loss : (isUp (portIn .up) 0 && (Machine.lane (portIn .up) 0).active) = true := by decide +kernel

theorem wit_uncorrectable_limit : (decide (4 ≤ ((Machine.lane (portWith { state := .up } { active := true, uncorr := List.replicate 4 (ms 100000 - 1) }) 0).uncorr.filter fun t => ms 100000 < t + ms 1000).length)) = true := by decide +kernel

theorem wit_symbol_error_window : (
  let v := bumpBy (portIn .up) (cLANE_FEC_CORR 0) 4
  decide (portCfg v 0 16 8 ≠ 0 ∧ portCfg v 0 16 8 * 1199 < 4 * 30000) && !injectedLane v 0) = true := by decide +kernel

theorem wit_lane_retire : ([0, 1, 128].all fun m => decide ((maskLanes (portIn .up) 0 m).filter (fun x => (Machine.lane (portIn .up) x).active) = if m = 0 then [] else if m = 1 then [0] else [7])) = true := by decide +kernel

theorem wit_lane_add : (decide ((maskLanes (portWith { state := .up } { retrain := .hello }) 0 128).filter (fun x => (Machine.lane (portWith { state := .up } { retrain := .hello }) x).retrain = .hello) = [7])) = true := by decide +kernel

theorem wit_link_down : (isUp (portIn .up) 0 && decide (0 = lportOfLane (portIn .up) 0)) = true := by decide +kernel

/-! ### Witnesses of the statements on queues, transport, waiting requests, tiers and engines -/

/-- Port 0 UP with a packet of the module's own at the head of its queue 9. -/
def queueBase : State := { portWith { state := .up, credits := [99, 0, 0, 0] } { active := true } with queues := { out := [(9, { packets := [{ pkt := transitPkt 2, at_ := 0 }] })] } }
def mirrorBase : State := { base with
  regs := [(aLPORT_ROLE 0, 3), (aLPORT_ROLE 8, 4), (aNEAR_RESIDENT 0, 1), (aTALLY_CFG 0, BitVec.ofNat 32 (512 + 8 * 1024 + 1)), (aTALLY_HEAD 0, 1)]
  links := { base.links with ports := [(0, { state := .up, partnerNode := 2 }), (8, { state := .up, partnerNode := 3 })] }
  queues := { tally := [(0, { ring := [zeros 64], head := 1, tseq := 1 })] } }

theorem wit_transmit_select : (
  let w := releaseOwn queueBase
  atBoundary w 0 && (chooseQueue w 0).isSome) = true := by decide +kernel

theorem wit_reseq_idle : (due { base with now := us 100 } 0 (us 100)) = true := by decide +kernel

theorem wit_rate_recovery : ([98000, 1000].all fun r => due base (ms 100000 - us 50) (us 50) && decide (lineRate base (egressPort base 2) ≤ r + 2000) == decide (r = 98000)) = true := by decide +kernel

theorem wit_tally_export : (exports mirrorBase 0) = true := by decide +kernel

theorem wit_ptp : (decide (2 ≤ base.supply.phase ∧ base.clock.locked = false ∧ (-1000000000 : Int) ≤ -1000000000)) = true := by decide +kernel

def sentBase (x : Sent) : State := { base with net := { own := [((2, 9), { purpose := .plain, dst := 2, job := 5 })], sent := [((2, 9, 0, false), x), ((2, 9, 0, true), x)] } }

theorem wit_retx_expiry : (
  let x : Sent := { pkt := transitPkt 2, first := some (ms 100000 - us 20), last := ms 100000 - us 20, queued := false }
  (tget (sentBase x).net.sent (2, 9, 0, false)).isSome && retxDue (sentBase x) x && !tooLong (sentBase x) x) = true := by decide +kernel

theorem wit_packet_abandon : (
  let x : Sent := { pkt := transitPkt 2, first := some (ms 100000 - ms 10), queued := false }
  tooLong (sentBase x) x && (ownOf (sentBase x) 2 9).isSome && (tget (sentBase x).net.sent (2, 9, 0, true)).isSome) = true := by decide +kernel

theorem wit_assembly_timeout : (
  let a : Assembly := { first := { pcnt := 1 }, got := [0], lastAt := ms 100000 - ms 12 }
  decide (a.got.length ≤ a.first.pcnt) && due base a.lastAt (ms 12)) = true := by decide +kernel

theorem wit_dedup_expiry : ([some (ms 100000 - ms 8), none].all fun t => dedupOver base { done := true, created := ms 100000 - ms 8, ackedAt := t, sentAt := ms 100000 - ms 18 }) = true := by decide +kernel

theorem wit_write_completion : ([some (ms 100000 - ms 4), none].all fun t => !reportHeld waitsFor9 { purpose := .plain, dst := 2, pkt := transitPkt 2, waiting := some 0, again := t }) = true := by decide +kernel

def rankedJobOf (epochs : Table Nat (Option Ns × List Nat)) : Job := { ttRoot := 0, pagerCap := 0, pagerNode := 2, ranked := true, rankedSet := [2, 3], epochs := epochs }
def epochBase (epochs : Table Nat (Option Ns × List Nat)) : State := { base with pool := { base.pool with jobs := [(5, rankedJobOf epochs)] } }
def combineBase : State := { base with pool := { base.pool with combine := [(4, { head := { (pk opATOMIC 0 {}) with dst := 3 }, joiners := [] })] } }
def lineWaiter (h : Nat) : State := { base with pool := { base.pool with waiters := [{ req := { pkt := loadPkt, lport := 0 }, why := .line h }] } }

theorem wit_fault_timeout : ((tget faultBase.pool.jobs 5).any fun j => (tget j.faults 1).any fun f => due faultBase f.opened (j.parkTimeout * us 100)) = true := by decide +kernel

theorem wit_flow_pending : (due base (ms 100000 - parkTimeout base 5) (parkTimeout base 5)) = true := by decide +kernel

theorem wit_epoch_apply : (epochReady (epochBase [(255, (none, [2, 3])), (0, (none, []))]) 5 255) = true := by decide +kernel

theorem wit_epoch_timeout : ((tget (epochBase [(255, (some 0, [2]))]).pool.jobs 5).any fun j => (tget j.epochs 255).any fun e => e.1.any (fun t => due base t (j.parkTimeout * us 100)) && decide (unclosed j 255 = [3])) = true := by decide +kernel

theorem wit_combined_atomic : ((tget combineBase.pool.combine 4).any fun e => decide (e.head.dst = 3 ∧ e.sent = false ∧ e.head.op = opATOMIC)) = true := by decide +kernel

theorem wit_line_release : (!underWay (lineWaiter 1) 1 && decide (sortBy (fun w => w.req.order) ((lineWaiter 1).pool.waiters.filter fun w => w.why = .line 1) ≠ [])) = true := by decide +kernel

theorem wit_fence_done : (probeDone base [1] && !beadsUse beadBase [(5, 2 ^ 30, 64)]) = true := by decide +kernel

/-- The near tier holds `n` dirty lines of tray 9. -/
def dirtyBase (n : Nat) : State := { trayBase with
  regs := [(aLPORT_ROLE 0, 3), (aLPORT_ROLE 8, 2), (aNEAR_CFG, BitVec.ofNat 32 (1 + 20 * 256)), (aNEAR_RESIDENT 0, 1)]
  links := { trayBase.links with ports := [(0, { state := .up, partnerNode := 2 }), (8, { state := .up, partnerNode := 9 })], lanes := [(0, { active := true }), (8, { active := true })] }
  pool := { trayBase.pool with lines := (List.range n).map fun k => (9 * 2 ^ 43 + k, { dirty := true }) } }
theorem dirtyBase_lines (n : Nat) (hn : n < 2 ^ 43) (hr : Machine.trayReachable (dirtyBase n) 9 = true) (hm : myNode (dirtyBase n) = 1) :
    (dirtyLines (dirtyBase n) 0).length = n := by
  have node : ∀ k, k < n → nodeOf ((9 * 2 ^ 43 + k) * 128) = 9 := by
    intro k hk
    unfold nodeOf
    omega
  have quarter : ∀ k, k < n → lineQuarter (dirtyBase n) (9 * 2 ^ 43 + k) = 0 := by
    intro k hk
    have tray : isTrayLine (dirtyBase n) (9 * 2 ^ 43 + k) = true := by
      unfold isTrayLine
      rw [node k hk, hm]
      decide
    unfold lineQuarter
    rw [if_pos tray, node k hk]
    rfl
  have dirty : dirtyOf (dirtyBase n) 0 = (List.range n).map fun k => 9 * 2 ^ 43 + k := by
    unfold dirtyOf
    rw [List.filter_eq_self.mpr]
    · simp [dirtyBase]
    · intro e he
      obtain ⟨k, hk, rfl⟩ := List.mem_map.mp (show e ∈ (List.range n).map fun k => ((9 * 2 ^ 43 + k, { dirty := true }) : Nat × LineInfo) from he)
      have h := quarter k (List.mem_range.mp hk)
      show (true && decide (lineQuarter (dirtyBase n) (9 * 2 ^ 43 + k) = 0)) = true
      simp only [h, decide_true, Bool.and_self]
  unfold dirtyLines
  rw [dirty, List.filter_eq_self.mpr]
  · simp
  · intro l hl
    obtain ⟨k, hk, rfl⟩ := List.mem_map.mp hl
    rw [node k (List.mem_range.mp hk)]
    exact hr
/-- A quarter's dirty lines reach the write-back threshold. -/
theorem wit_threshold : dirtyAbove (dirtyBase 6554) 0 (cleanStart (dirtyBase 6554)) = true := by
  have h := dirtyBase_lines 6554 (by decide) (by decide +kernel) (by decide +kernel)
  have hs : cleanStart (dirtyBase 6554) * budgetShare (dirtyBase 6554) ≤ 100 * 6554 := by decide +kernel
  simpa [dirtyAbove, h] using hs

theorem wit_snoop_timeout : (
  let s := { snooped false with now := ms 100000 + ms 10 }
  snoopLate s 0 1 && decide ((agentOf s 0).state ≠ .reclaiming)) = true := by decide +kernel

theorem wit_window_drained : (mayDrain (windowIn .revoking 2) 4 && mayDrain { base with win := { table := [(4, { state := .revoking, holdUntil := ms 100000 })] } } 4) = true := by decide +kernel

theorem wit_reseed : (decide (base.rkn.dvorro = .running)) = true := by decide +kernel

theorem wit_reclaim_end : ([AgentState.reclaiming, .detaching].all fun st => decide ((agentOf { base with coh := { agents := [(0, { state := st, node := 2 })] } } 0).state = st)) = true := by decide +kernel

theorem wit_detach_quiet : (agentQuiet { base with coh := { agents := [(0, { state := .detaching, node := 2 })] } } 0 && !agentQuiet { (ownedBase 0) with coh := { (ownedBase 0).coh with agents := [(0, { state := .detaching, node := 2 })] } } 0) = true := by decide +kernel

theorem wit_dirty_mark : ((tget { base with pool := { base.pool with toMark := [(7, ([3584], 0))] } }.pool.toMark 7).isSome) = true := by decide +kernel

theorem wit_budget_release : (!dirtyAbove base 0 100) = true := by decide +kernel

theorem wit_flush_end : (
  let u := flushAdvance { base with pool := { base.pool with flushes := [{ lines := [], caller := some fm0 }] } }
  (u.pool.flushes.find? (flushOver u)).any fun f => f.caller.isSome) = true := by decide +kernel

theorem wit_tray_reachable : (Machine.trayReachable { dirtyBase 0 with pool := { (dirtyBase 0).pool with unreachable := ([9] : List Nat).filter (· ≠ 9) } } 9) = true := by decide +kernel

theorem wit_pool_fatal : ((tget { base with pool := { base.pool with jobs := [(5, { ttRoot := 0, pagerCap := 0, pagerNode := 2, lostAt := some 0 })] } }.pool.jobs 5).any fun j => j.lostAt.isSome && !j.fatalSent) = true := by decide +kernel

/-- A COMBINE, a FILTER and a SETOP in progress, and one that has ended. -/
def sieveReq (sfn : Nat) (p : Packet) (fin : Bool) : SieveReq := { req := { pkt := p, lport := 0 }, quarter := 0, sfn := sfn, finished := fin }
def groupWith (g : Group → Group) : State := { base with carry := { groups := [(3, g { a := groupArgs, round := 0 })] } }
def loadingSlot : State := { base with sieve := { slots := [(63, { state := .loading, owner := 5, nextPart := 1, lastPart := ms 100000 - ms 1000 })] } }
def desc64 : List Byte := zeros 4 ++ le 4 1024 ++ zeros 56
def runningChan (c : Channel) : State := { base with mover := { channels := [(4, { c with state := .running, job := 5, desc := desc64 })] } }
def beadCmdOf (p : Packet) (b : Bool) : BeadCmd := { req := { pkt := p, lport := 0 }, ended := b }
def beadWith (x : BeadCh) : State := { base with bead := { channels := [(0, x)] } }

theorem wit_round_record : ((groupOf (groupWith fun g => { g with sentAll := true }) 3).any recordDue) = true := by decide +kernel

theorem wit_round_timeout : (
  let s := groupWith fun g => { g with first := some (ms 100000 - ms 1000) }
  (groupOf s 3).any (roundOverdue s)) = true := by decide +kernel

theorem wit_chunk_start : (
  [(5, true), (3, false), (2, false)].all fun x => let r := sieveReq x.1 (sievePkts[x.1]?.getD {}) false
    !sieveEnded r && !flowBlocked base r.req.pkt && freeChunks r == x.2 && orderedChunks r == decide (x.1 = 3)) = true := by decide +kernel

theorem wit_request_end : (
  let r := sieveReq 2 (sievePkts[2]?.getD {}) true
  sieveEnded r && decide ((cutShort r).sfn ≠ 3 ∧ (cutShort r).fault = none)) = true := by decide +kernel

theorem wit_slot_timeout : (decide ((progSlot loadingSlot 63).state = .loading) && due loadingSlot (progSlot loadingSlot 63).lastPart (ms 1000)) = true := by decide +kernel

theorem wit_descriptor_start : (
  [ChState.idle, .preempted].all fun st => let s := { base with mover := { channels := [(7, { state := st, job := 5, head := 1 })] } }
    engineRuns s 1 && (runningOn s 1).isNone && (pickChannel (takePriorities s 1) 1).isSome && decide ((chan s 7).state = .preempted) == decide (st = .preempted)) = true := by decide +kernel

theorem wit_mover_unit_end : (
  let s := runningChan { pos := dcLen desc64 }
  engineRuns s 1 && decide ((chan s 4).state = .running ∧ (chan s 4).ending = none ∧ (chan s 4).abort = none ∧ dcLen (chan s 4).desc ≤ (chan s 4).pos) && !boundaryDue (chan s 4)) = true := by decide +kernel

theorem wit_step_boundary : (
  let s := { runningChan { pos := 4096 } with regs := [(aNEAR_RESIDENT 0, 1), (aMOVER_CFG, 0)] }
  let u := takePriorities s 1
  engineRuns s 1 && boundaryDue (chan s 4) && decide ((chan u 4).abort = none ∧ dcSrcCap (chan u 4).desc = 0 ∧ dcDstCap (chan u 4).desc = 0 ∧ level u < 3 ∧ regField u aMOVER_CFG 0 1 = 0)) = true := by decide +kernel

theorem wit_descriptor_end : (
  let s := runningChan { ending := some { kind := 0 } }
  engineRuns s 1 && decide ((chan s 4).state ≠ .halted ∧ (chan s 4).preempting = false)) = true := by decide +kernel

theorem wit_commit_point : ((beadCh (beadWith { active := [15] }) 0).active.contains 15) = true := by decide +kernel

theorem wit_bead_command_end : ((endedCmd (beadCh (beadWith { queue := [beadCmdOf attnPkt true] }) 0)).any fun b => decide (bhCpl b.req.pkt = 0)) = true := by decide +kernel

theorem wit_mode_effect : ([(BeadMode.compute, modePkt), (.memory, beadPkt 0 0 0 0 0 0 0)].all fun x => (modeDue (beadCh (beadWith { mode := x.1, queue := [beadCmdOf x.2 false] }) 0)).any fun b => decide (x.1 ≠ .memory ∨ modeOf (bhNewMode b.req.pkt) = .memory)) = true := by decide +kernel

theorem wit_power_window : (stackWorks (beadWith { active := [15] }) 0) = true := by decide +kernel

/-! ### Witnesses of the statements on tenants and the map -/

/-- No capability: a step boundary finds no window lost. -/
theorem wit_no_window_lost (u : State) (c : Channel) (h1 : dcSrcCap c.desc = 0) (h2 : dcDstCap c.desc = 0) : windowLost u c = (none, u) := by
  simp [windowLost, h1, h2]
def keyBase (k : KeySlot) : State := { base with ten := { base.ten with slots := [(1023, k)] } }
def drainingKey (k : KeySlot) : KeySlot := { k with state := .draining, tenant := 9 }

theorem wit_attestation_signed : (decide ({ base with ten := { base.ten with reports := [(fm0, zeros 64)] } }.ten.reports = [(fm0, zeros 64)] ∧ base.rkn.dvorro ≠ .restarting)) = true := by decide +kernel

theorem wit_ak_certified : ({ base with ten := { base.ten with akStart := some 0 } }.ten.akStart.isSome) = true := by decide +kernel

theorem wit_grant_in_force : ((keySlot (keyBase { newGrant := some (grantBody, [fm0]) }) 1023).newGrant.isSome) = true := by decide +kernel

theorem wit_key_zeroise : (
  let s := keyBase (drainingKey { drainAt := ms 100000 - ms 10 })
  decide ((keySlot s 1023).state = .draining ∧ (keySlot s 1023).zeroisedAt = none ∧ slotInflight s 1023 = 0) && due s (keySlot s 1023).drainAt (ms 10)) = true := by decide +kernel

theorem wit_scrub_start : (
  let s := keyBase (drainingKey { zeroisedAt := some (ms 100000 - ms 4) })
  decide ((keySlot s 1023).state = .draining ∧ (keySlot s 1023).scrubbing = false) && (keySlot s 1023).zeroisedAt.any fun t => due s t (ms 4)) = true := by decide +kernel

theorem wit_scrub_retry : (
  let s := keyBase (drainingKey { scrubbing := true, scrub := [(0, 16384, false)], retryAt := ms 100000 })
  decide ((keySlot s 1023).scrubbing = true ∧ (keySlot s 1023).scrub ≠ [] ∧ (keySlot s 1023).retryAt ≤ s.now)) = true := by decide +kernel

theorem wit_scrub_end : (
  let s := keyBase (drainingKey { scrubbing := true })
  decide ((keySlot s 1023).scrubbing = true ∧ (keySlot s 1023).scrub = [] ∧ ∀ e ∈ s.net.own, e.2.purpose ≠ .scrub 1023)) = true := by decide +kernel

def mapBase (m : MapState → MapState) : State := { base with map := m base.map }
def oneSend (n : Nat) : MapSend := { pkt := mirrorPkt, lport := 0, key := 4, op := opMAP_EPOCH, sends := n, lastAt := ms 100000 - us 20 }
def stagedBy2 (pulled : Bool) : Proposal := { coord := 2, epoch := 1, maxTransit := 1, propId := 1, nfrag := 1, votedAt := some (ms 100000 - ms 5), pulled := pulled }
def takerOf9 (t : Ns) : Handoff := { giver := false, peer := 2, epoch := 1, commitAt := t }
def handoffBase : State := { mapBase fun m => { m with handoffs := [(9, takerOf9 (ms 100000 - ms 26))] } with pool := { base.pool with waiters := [{ req := { pkt := atomicPkt, lport := 0 }, why := .handoff 9 }] } }

theorem wit_lsr : ((mapBase fun m => { m with lsrDue := some 0 }).map.lsrDue.isSome && due base (ms 100000 - ms 1000) (ms 1000)) = true := by decide +kernel

theorem wit_lsr_age_out : ((tget (mapBase fun m => { m with lsrs := [(3, { seq := 1, keptAt := ms 100000 - ms 3000 })] }).map.lsrs 3).any fun r => due base r.keptAt (ms 3000)) = true := by decide +kernel

theorem wit_map_resend : (
  [9, 10].all fun n => let s := mapBase fun m => { m with sends := [oneSend n] }
    (s.map.sends.find? (fun m => m.lport = 0 && m.key = 4 && due s m.lastAt (resendGap m.op))).any fun m => decide (m.sends = n ∧ 0 ≠ selfPort) && isUp s 0) = true := by decide +kernel

theorem wit_vote_timeout : (
  let s := mapBase fun m => { m with coord := some { caller := fm0, propId := 1, epoch := 1, startedAt := ms 100000 - ms 1, voters := [2] } }
  s.map.coord.any fun c => c.verdict.isNone && due s c.startedAt (ms 1)) = true := by decide +kernel

theorem wit_verdict_timeout : (
  [(true, true), (false, true), (false, false)].all fun x => let s := { mapBase fun m => { m with proposal := some (stagedBy2 x.1) } with regs := if x.2 then base.regs else [(aNEAR_RESIDENT 0, 1)] }
    s.map.proposal.any fun p => decide (p.coord ≠ myNode s ∧ p.pulled = x.1) && p.votedAt.any (fun t => due s t (ms 5)) && !pullsOpen s && decide (switchPorts s = []) == !x.2) = true := by decide +kernel

theorem wit_grace_end : (
  let s := mapBase fun m => { m with prev := some {}, graceEnd := ms 100000 }
  s.map.prev.isSome && decide (s.map.graceEnd ≤ s.now)) = true := by decide +kernel

theorem wit_handoff_probe : ((tget handoffBase.map.handoffs 9).any fun h => !h.giver && decide ((heldFor handoffBase 9).length = 1) && due handoffBase h.lastProbe (ms 1)) = true := by decide +kernel

theorem wit_handoff_settle : ((tget handoffBase.map.handoffs 9).any fun h => !h.giver && due handoffBase h.commitAt (ms 26)) = true := by decide +kernel

theorem wit_drain_final : (
  let s := mapBase fun m => { m with drainCaller := some fm0, drainReady := some (ms 100000 - ms 4), drainStep := 3 }
  s.map.drainCaller.isSome && s.map.drainReady.any (fun t => due s t (ms 4)) && decide (s.map.drainStep = 3)) = true := by decide +kernel

/-! ### Witnesses of the statements on faults, the Reckoner, power and bring-up -/

def spareBase (f : Spares → Spares) : State := { base with spares := f base.spares }
def hotDie (margin : Nat) : State := { spareBase fun x => { x with margin := [((.carry, 0), margin)] } with dies := [(0, { canaryHold := true, canaryUntil := ms 100000 })] }
def waitsSwitch (w : SwitchIn) : State := spareBase fun x => { x with switching := [(0, [w])] }
def drills (a : DrillArgs) (testing : Bool) : State := spareBase fun x => { x with drill := some { args := a, startedAt := ms 100000 - ms 10000, testing := testing } }
def drillOf (k target p0 p1 : Nat) : DrillArgs := { dkind := k, id := 1, target := target, p0 := p0, p1 := p1 }

theorem wit_canary_measure : ([(UnitKind.rod, 0), (.carry, unitTotalOf .carry - 1)].all fun x => decide (x.2 < unitTotalOf x.1) && !base.spares.retired.contains x) = true := by decide +kernel

theorem wit_canary_hold : ([5, 8, 15].all fun m => decide ((dieState (hotDie m) 0).canaryHold = true ∧ (dieState (hotDie m) 0).canaryUntil ≤ (hotDie m).now)) = true := by decide +kernel

theorem wit_unit_failure : ([UnitKind.rod, .carry, .sieve, .mover].all fun k => !base.spares.retired.contains (k, unitTotalOf k - 1) && decide (tgetD base.spares.switching (unitDie k (unitTotalOf k - 1)) [] = [])) = true := by decide +kernel

theorem wit_bead_degraded : (!base.spares.beadsDegraded.contains (16 * 127 + 15)) = true := by decide +kernel

theorem wit_rod_loaded : ((tgetD (waitsSwitch { kind := .rod, index := 0 }).spares.switching (unitDie .rod 0) []).any fun w => decide (w.kind = .rod ∧ w.index = 0 ∧ w.loaded = false)) = true := by decide +kernel

theorem wit_switch_in : ([UnitKind.rod, .carry].all fun k => (tgetD (waitsSwitch { kind := k, index := 0, loaded := true }).spares.switching 0 []).any fun w => !w.drill && decide (freeSpares (waitsSwitch { kind := k, index := 0, loaded := true }) w.kind 0 ≠ [])) = true := by decide +kernel

theorem wit_error_rate : (!injecting base (.bankPair 127) && !injecting base (.sramMacro 3)) = true := by decide +kernel

theorem wit_bank_copy : ((tget (spareBase fun x => { x with bankCopy := [(127, (15, 0))] }).spares.bankCopy 127).isSome) = true := by decide +kernel

theorem wit_macro_copy : (
  let s := spareBase fun x => { x with macroCopy := [(3, [(7, 0)])] }
  decide (tgetD s.spares.macroCopy 3 [] = [(7, 0)] ∧ (List.range 16).find? (fun n => !thas s.spares.macroMap (3, n)) = some 0)) = true := by decide +kernel

theorem wit_memory_uncorrectable : ((hlnOf base (2 ^ 43 + 1)).isSome && decide ((windowAt (windowIn .open_ 1) 4).state ≠ .free)) = true := by decide +kernel

theorem wit_drill_ends : (
  (drills (drillOf 3 0 1 10000) false).spares.drill.any (fun d => due base d.startedAt (ms d.args.p1)) && (drills (drillOf 2 0 10000 0) false).spares.drill.any (fun d => due base d.startedAt (ms d.args.p0))
    && (drills (drillOf 1 0 0 0) true).spares.drill.any fun d => d.testing && decide (drillTarget d.args = some (.rod, 0))) = true := by decide +kernel

def rknBase (f : Reckoner → Reckoner) : State := { base with rkn := f base.rkn }
def newImage : State := rknBase fun x => { x with activatedAt := some (ms 100000 - ms 10000 + 1) }

theorem wit_core_failure : (!base.rkn.coresLost.contains 7 && decide (3 ≤ base.supply.phase)) = true := by decide +kernel

theorem wit_ucie_loss : (decide (2 ≤ base.supply.phase ∧ (tgetD base.rkn.ucie 3 {}).lostAt = none)) = true := by decide +kernel

theorem wit_ucie_timeout : (
  [false, true].all fun f => let s := rknBase fun x => { x with ucie := [(3, { lostAt := some (ms 100000 - ms 10), failed := f })] }
    (tgetD s.rkn.ucie 3 {}).lostAt.any (fun t => due s t (ms 10)) && decide ((tgetD s.rkn.ucie 3 {}).failed = f ∧ s.rkn.dvorro = .running)) = true := by decide +kernel

theorem wit_watchdog : (!imageNew base && imageNew newImage && decide (base.rkn.dvorro = .running ∧ newImage.rkn.dvorro = .running)) = true := by decide +kernel

theorem wit_restart_end : (
  [none, some ({ args := drillOf 5 0 0 0, startedAt := 0 } : Drill)].all fun d => let s := { rknBase fun x => { x with dvorro := .restarting } with spares := { base.spares with drill := d } }
    decide (s.rkn.dvorro = .restarting ∧ (drainEvents (sendCarried (setEvt (modRkn (abortUnbegun s) fun x => { x with dvorro := .running }) aRECKONER_STATUS 16))).spares.drill = d)) = true := by decide +kernel

theorem wit_activation : (
  let s := rknBase fun x => { x with activation := some (fm0, ms 100000 - ms 100), dvorro := .activating, flashWrite := true }
  s.rkn.activation.any fun a => due s a.2 (ms 100) && decide (s.rkn.dvorro = .activating ∧ s.rkn.flashWrite = true)) = true := by decide +kernel

theorem wit_flash_write : (due base (ms 100000 - ms 10000) (ms 10000) && decide (base.rkn.dvorro = .running)) = true := by decide +kernel

theorem wit_mailbox_slot : (
  [MboxId.baseboard, .fm 0, .clear 1, .host 15].all (takesSlots base) && thas fm1Session.rkn.sessions 0 && takesSlots fm1Session (.fm 0)
    && let s := rknBase fun x => { x with mboxes := [(.host 15, { bound := some 0, cmdTail := 1 })] }
    (mboxOf s (.host 15)).bound.isSome && decide ((mboxOf s (.host 15)).cmdHead ≠ (mboxOf s (.host 15)).cmdTail)) = true := by decide +kernel

theorem wit_datagram : (takesSlots base (.clear 0) && decide (({ port := 1, src := 0, dkind := 1, slots := List.replicate 5 { opcode := 0, cseq := 1 } } : Datagram).slots.length ≤ 5)) = true := by decide +kernel

theorem wit_resend : (
  let s := rknBase fun x => { x with sessions := [(1, { id := 1, unacked := [[]], resendAt := ms 100000, lastValid := ms 100000 - ms 60000 })] }
  (tget s.rkn.sessions 1).any fun e => decide (e.unacked ≠ [] ∧ e.resendAt ≤ s.now) && due s e.lastValid (ms 60000)) = true := by decide +kernel

theorem wit_mctp : (takesSlots base .baseboard && (pldmSensor base 16).isSome) = true := by decide +kernel

def coldBase (f : Supply → Supply) : State := { State.reset with now := ms 100000, supply := f {} }
def supplyBase (f : Supply → Supply) : State := { base with supply := f base.supply }

theorem wit_governor : (!governorAway base && due base (dieState base 0).lastEval (ms 1)) = true := by decide +kernel

theorem wit_setpoint : (
  let s := { base with dies := [(0, { voltSet := 740, target := 750 })] }
  let t := { base with dies := [(0, { voltSet := 760, target := 750 })] }
  due s (dieState s 0).lastStep (us 20) && decide ((dieState s 0).voltSet ≠ (dieState s 0).target ∧ floorFor (dieRate s 0) ≤ 750 ∧ (dieState t 0).voltSet ≠ (dieState t 0).target ∧ floorFor (dieRate t 0) ≤ 750)) = true := by decide +kernel

theorem wit_shed_enter : (
  [1, 4].all fun n => let s := supplyBase fun x => { x with level := n - 1, belowSince := [(n, ms 100000 - us 200)] }
    decide (1 ≤ s.supply.phase ∧ s.supply.level + 1 = n) && hasHeld s s.supply.belowSince n (us 200)) = true := by decide +kernel

theorem wit_shed_leave : (
  [1, 3].all fun n => let s := supplyBase fun x => { x with level := n, aboveSince := [(n, ms 100000 - us 200)] }
    decide (s.supply.level = n) && hasHeld s s.supply.aboveSince n (us 200) && !cutActing s) = true := by decide +kernel

theorem wit_holdup_timer : (
  let s := supplyBase fun x => { x with level := 3, holdupTimer := some (ms 100000 - us 1600) }
  s.supply.holdupTimer.any (fun t => due s t (us 1600)) && decide (s.supply.level = 3)) = true := by decide +kernel

theorem wit_log_save : (
  let s := supplyBase fun x => { x with saving := true, saved := some {} }
  decide (s.supply.saving = true ∧ s.supply.resetPulse = false ∧ s.supply.tripped = false)) = true := by decide +kernel

theorem wit_l4_recovery : (
  let s := supplyBase fun x => { x with level := 4, highSince := some (ms 100000 - ms 10) }
  s.supply.highSince.any (fun t => due s t (ms 10)) && decide (s.supply.level = 4) && !cutActing s) = true := by decide +kernel

theorem wit_reset_pulse : (
  let s := coldBase fun x => { x with resetLow := true, switchClosed := true, vin := 46000 }
  decide (1 ≤ base.supply.phase ∧ s.supply.resetLow = true ∧ s.supply.phase = 0 ∧ s.supply.switchClosed = true ∧ s.supply.senseBroken = false ∧ 46000 ≤ s.supply.vin)) = true := by decide +kernel

theorem wit_insertion : (decide ((coldBase id).supply.phase = 0)) = true := by decide +kernel

/-- A rail with phases, whatever their number is: the loss of one is in the statement's reach. -/
theorem wit_phase_lost (i : Nat) (h : 0 < Config.railPhases i) : ∃ p, p < Config.railPhases i ∧ (railState (supplyBase fun x => { x with rails := [(i, { on := true })] }) i).lost.contains p = false := by
  refine ⟨0, h, ?_⟩
  simp [railState, supplyBase, tgetD, tget]

theorem wit_thermal_sample : (
  [0, 13].all fun i => let s := supplyBase fun x => { x with memoryDone := true }
    sensorReady s i && decide ((sensorAfter s i 300).overWarn = (tgetD s.supply.sensors i {}).overWarn ∧ (sensorAfter s i 300).action = (tgetD s.supply.sensors i {}).action)) = true := by decide +kernel

theorem wit_thermal_release : (
  let s := supplyBase fun x => { x with sensors := [(8, { action := true, coolSince := some (ms 100000 - ms 100) })] }
  (tgetD s.supply.sensors 8 {}).action && (tgetD s.supply.sensors 8 {}).coolSince.any fun t => due s t (ms 100)) = true := by decide +kernel

theorem wit_thermal_trip : (
  let s := supplyBase fun x => { x with sensors := [(12, { valid := true, temp := 1200 })] }
  decide ((tgetD s.supply.sensors 12 {}).valid = true ∧ s.supply.tripped = false ∧ 1200 ≤ (tgetD s.supply.sensors 12 {}).temp) && due s (tgetD s.supply.sensors 12 {}).at_ (ms 10)) = true := by decide +kernel

theorem wit_bringup_start : (
  let s := coldBase fun x => { x with switchClosed := true, vin := 46000, highSince := some (ms 100000 - us 200) }
  mayStart s && s.supply.highSince.any fun t => due s t (us 200)) = true := by decide +kernel

theorem wit_bringup_phases : (decide ((coldBase fun x => { x with phase := 1 }).supply.phase = 1 ∧ (coldBase fun x => { x with phase := 2 }).supply.planSettled = false ∧ (coldBase fun x => { x with phase := 2, planSettled := true }).supply.planSettled = true)) = true := by decide +kernel

theorem wit_image_bad : (
  let s := { coldBase fun x => { x with phase := 3 } with rkn := { ({} : Reckoner) with flash := {} } }
  decide (s.supply.phase = 3 ∧ s.rkn.dvorro = .rom ∧ imageError s.rkn.flash.bytes ≠ 0)) = true := by decide +kernel

theorem wit_links_phase : (
  let s := coldBase fun x => { x with phase := 4, planSettled := true }
  decide (1 ≤ s.supply.phase ∧ s.supply.planSettled = true ∧ s.links.open_ = false) && due s s.supply.time0 (ms 120)) = true := by decide +kernel

theorem wit_links_done : (base.links.open_ && (lports { base with regs := (List.range 64).map fun n => (aPORT_CFG n, 0) }).all (portSettled { base with regs := (List.range 64).map fun n => (aPORT_CFG n, 0) })) = true := by decide +kernel

theorem wit_map_phase : (
  let s := supplyBase fun x => { x with phase := 6 }
  let t := coldBase fun x => { x with phase := 6 }
  decide (s.supply.mapSince = none ∧ t.supply.mapSince = none ∧ switchPorts { s with supply := { s.supply with mapSince := some s.now } } ≠ [] ∧ switchPorts { t with supply := { t.supply with mapSince := some t.now } } = [])) = true := by decide +kernel

theorem wit_map_timeout : (
  let s := coldBase fun x => { x with phase := 6, mapSince := some (ms 100000 - ms 500) }
  s.supply.mapSince.any (fun t => due s t (ms 500)) && decide (s.supply.phase = 6 ∧ s.map.comp.nodes = [])) = true := by decide +kernel

theorem wit_holdup_charged : (decide (2 ≤ (coldBase fun x => { x with phase := 2 }).supply.phase ∧ (coldBase fun x => { x with phase := 2 }).supply.holdupReady = false)) = true := by decide +kernel

theorem wit_ready : (
  let s := supplyBase fun x => { x with ready := false }
  decide (s.supply.phase = 7 ∧ s.supply.ready = false ∧ s.supply.holdupReady = true ∧ s.rkn.dvorro = .running ∧ s.spares.switching = [])) = true := by decide +kernel

theorem wit_plan_save : (
  let s := supplyBase fun x => { x with planDue := some (ms 100000 - ms 10000) }
  s.supply.planDue.any (fun t => due s t (ms 10000)) && decide (s.rkn.dvorro = .running)) = true := by decide +kernel

/-! ### Witnesses of the statements on all steps, encodings and laws -/

theorem wit_step_runs : (decide ({ base with pending := [Instr.resetAssert] }.pending = Instr.resetAssert :: [])) = true := by decide +kernel

theorem wit_empty_queue : (decide (base.pending = [] ∧ base.supply.phase ≠ 0 ∧ base.clock.slew = 0 ∧ State.reset.pending = [] ∧ State.reset.supply.phase = 0)) = true := by decide +kernel

theorem wit_packets : (packetOk storePkt && packetOk (partialPkt 0) && packetOk { storePkt with payload := zeros 4096 } && !packetOk { storePkt with payload := zeros 4097 } && packetOk { partialPkt 1 with payload := zeros 4080 } && !packetOk { partialPkt 1 with payload := zeros 4081 }) = true := by decide +kernel

theorem wit_reduction_tree : (decide (carryClass 0 10 = .l ∧ carryClass 1 8 = .l) && decide (([Term.fin 3, .fin (-1)] : List Term).length = ([Term.fin (-1), .fin 3] : List Term).length)) = true := by decide +kernel

theorem wit_partial_records : (
  let r : Elem := { acc := -(2 ^ 639) }
  let t : Elem := { acc := 2 ^ 639 - 1 }
  decide (r.val = 0 ∧ r.rank = 0 ∧ -(2 ^ 639 : Int) ≤ r.acc ∧ r.acc < (2 ^ 639 : Int) ∧ -(2 ^ 639 : Int) ≤ t.acc ∧ t.acc < (2 ^ 639 : Int))) = true := by decide +kernel

theorem wit_turned_away : (
  decide (mailboxCommand (.drainModule fm0) = some (fm0, mbDRAIN_MODULE, []) ∧ base.queues.gateCommit = none ∧ State.reset.supply.phase < 3 ∧ cutOff (rknBase fun x => { x with dvorro := .restarting }) fm0 mbDRAIN_MODULE = true)
    && decide (gate { base with rkn := { base.rkn with mboxes := [(.fm 0, { started := List.replicate 16 fm0 })] } } fm0 mbDRAIN_MODULE [] = .wait)) = true := by decide +kernel

theorem wit_turned_away_not_ready : (decide (isReady (supplyBase fun x => { x with ready := false }) = false ∧ gate (supplyBase fun x => { x with ready := false }) fm0 mbDRAIN_MODULE [] = .deny mNOT_READY 7)) = true := by decide +kernel

theorem wit_turned_away_clear : (decide (isReady base = true ∧ isClear clearCaller.mbox = true ∧ gate base clearCaller mbDRAIN_MODULE [] = .deny mSESSION_INVALID 0)) = true := by decide +kernel

theorem wit_turned_away_class : (decide (6 ≤ coresLeft base ∧ reckonerHot base = false ∧ callerClass { mbox := .host 0 } ∉ classesOf mbDRAIN_MODULE ∧ gate base { mbox := .host 0 } mbDRAIN_MODULE [] = .deny mPRIVILEGE_DENIED 0)) = true := by decide +kernel

theorem wit_turned_away_job : (decide (callerClass { mbox := .host 1 } ∈ classesOf mbOPEN_WINDOW ∧ gate bound0 { mbox := .host 1 } mbOPEN_WINDOW [6] = .deny mJOB_NOT_PERMITTED 6 ∧ gate bound0 { mbox := .host 1 } mbOPEN_WINDOW [5] = .go)) = true := by decide +kernel

theorem wit_credit_counts : (sends {} fun p => decide (p.oldCfg = none ∧ p.oldRate = none ∧ creditClass 5 < p.ccumOut.length) && decide (([0, 0, 0, 0] : List Nat).length = 4 ∧ (2047 + 4096 - 0) % 4096 = 2047 ∧ (2048 + 4096 - 0) % 4096 = 2048 ∧ (0 + 4096 - 4095) % 4096 = 1)) = true := by decide +kernel

theorem wit_event_gap : (
  let s := { base with events := { base.events with last := [((eUNIT_DEGRADED, 3, 0), (ms 100000 - 1, 0))] } }
  (tget s.events.last (eUNIT_DEGRADED, 3, 0)).any (fun e => decide (s.now < e.1 + gapNs s ∧ eUNIT_DEGRADED ∉ [eSTACK_LOST, ePOOL_FATAL, eRANKED_TIMEOUT, eDRILL_START, eDRILL_END])) && (tget s.events.last (eUNIT_DEGRADED, 3, 1)).isNone && anyUcie s) = true := by decide +kernel

theorem wit_event_gap_over : (
  let s := { base with events := { base.events with last := [((eUNIT_DEGRADED, 3, 0), (0, 300))] } }
  (tget s.events.last (eUNIT_DEGRADED, 3, 0)).any fun e => decide (e.1 + gapNs s ≤ s.now ∧ min 255 e.2 = 255)) = true := by decide +kernel

theorem wit_slots_in_sequence : (
  let s := rknBase fun x => { x with mboxes := [(.baseboard, { nextCseq := 2 ^ 32 - 1, stored := [(7, none)], held := [{ opcode := 0, cseq := 0 }] })] }
  let d (k : Nat) : Nat := (k + 2 ^ 32 - (mboxOf s .baseboard).nextCseq) % 2 ^ 32
  decide (d (2 ^ 32 - 1) = 0 ∧ d 0 = 1 ∧ d 62 = 63 ∧ d 63 = 64 ∧ d (2 ^ 31 - 2) = 2 ^ 31 - 1 ∧ d (2 ^ 31 - 1) = 2 ^ 31) && ((mboxOf s .baseboard).stored.find? (fun e => e.1 = 7)).isSome && (mboxOf s .baseboard).held.all fun h => decide (h.cseq ≠ (mboxOf s .baseboard).nextCseq)) = true := by decide +kernel

theorem wit_slot_held_next : (((mboxOf (rknBase fun x => { x with mboxes := [(.baseboard, { nextCseq := 0, held := [{ opcode := 0, cseq := 0 }] })] }) .baseboard).held.find? (fun h => h.cseq = 0)).isSome) = true := by decide +kernel

/-- Context (0, 2, 3, 1) expects FSEQ 65535 and holds FSEQ 0. -/
def heldReq (n : Nat) : Req := { pkt := { transitPkt 3 with flags := 512, flow := 1, fseq := n }, lport := 0 }
def ctx : Reseq := { next := 65535, held := [heldReq 0], lastAt := 0 }
def reseqBase : State := { base with regs := [(aLPORT_ROLE 0, 3), (aNEAR_RESIDENT 0, 1), (aQUEUE_CFG 0, 2)], net := { reseq := [((0, 2, 3, 1), ctx)] } }

theorem wit_reseq_order : (
  let d (n : Nat) : Nat := (n + 65536 - ctx.next) % 65536
  decide (d 65535 = 0 ∧ d 0 = 1 ∧ d 254 = 255 ∧ d 255 = 256 ∧ d 32766 = 32767 ∧ d 32767 = 32768 ∧ reseqUsed reseqBase 0 + cellsOf (heldReq 1).pkt ≤ reseqCells reseqBase 0 ∧ reseqCells { reseqBase with regs := [(aQUEUE_CFG 0, 0)] } 0 < reseqUsed reseqBase 0 + cellsOf (heldReq 1).pkt)) = true := by decide +kernel

theorem wit_reseq_key : (decide (reseqKey reseqBase (heldReq 5).pkt = some (0, 2, 3, 1) ∧ reseqKey base (heldReq 5).pkt = none ∧ ctx.held ≠ []) && hasFlag { (heldReq 5).pkt with flags := 4 } fFHEAD && !hasFlag (heldReq 5).pkt fFHEAD) = true := by decide +kernel

/-- A quarter with `n` contexts taken, by flows that go elsewhere. -/
def takenReseq (n : Nat) : State := { base with net := { reseq := (List.range n).map fun k => ((0, 2, 4, k), { next := 0 }) } }
theorem takenReseq_length (n : Nat) : (reseqIn (takenReseq n) 0).length = n := by
  unfold reseqIn takenReseq
  rw [List.filter_eq_self.mpr]
  · simp
  · intro e he
    obtain ⟨k, -, rfl⟩ := List.mem_map.mp he
    rfl
theorem takenReseq_key (n : Nat) : reseqKey (takenReseq n) (heldReq 5).pkt = none := by
  have h3 : (heldReq 5).pkt.dst = 3 := by decide +kernel
  have : (takenReseq n).net.reseq.find? (fun e => decide (e.1.2 = ((heldReq 5).pkt.src, (heldReq 5).pkt.dst, (heldReq 5).pkt.flow))) = none := by
    rw [List.find?_eq_none]
    intro e he
    obtain ⟨k, -, rfl⟩ := List.mem_map.mp he
    rw [h3]
    intro h
    exact absurd (congrArg (fun x : Nat × Nat × Nat => x.2.1) (of_decide_eq_true h)) (show (4 : Nat) ≠ 3 by decide)
  unfold reseqKey
  rw [this]
  rfl
/-- The contexts of a quarter can all be taken. -/
theorem wit_reseq_full : 65536 ≤ (reseqIn (takenReseq 65536) 0).length ∧ reseqKey (takenReseq 65536) (heldReq 5).pkt = none :=
  ⟨Nat.le_of_eq (takenReseq_length 65536).symm, takenReseq_key 65536⟩

theorem wit_gates : (
  let g : Gate := { base := 100, entries := [(500, 1), (500, 2)] }
  decide (g.base ≤ 1600 ∧ 0 < gateCycle g ∧ bit 1 0 = true ∧ bit 1 1 = false)) = true := by decide +kernel

theorem wit_chosen_queue : ((chooseQueue queueBase 0).isSome && (chooseQueue base 0).isNone) = true := by decide +kernel

def onePiece : Piece := { va := 0, pa := 2 ^ 50, len := 8, level := 1, leaf := 2 }

theorem wit_writes : (decide (onePiece.len = (zeros 8).length) && Memory.wf base.pool.mem) = true := by decide +kernel

theorem wit_atomics : (decide (({ line := 2 ^ 43, off := 0, len := 8, pos := 0, leaf := 2 } : Part).len = 8 ∧ leafE2e 2 = false) && Memory.wf base.pool.mem) = true := by decide +kernel

theorem wit_adder : (decide ((limbAdd (2 ^ 64 - 1) 0 1).2 = 1 ∧ 2 ^ 63 + 2 ^ 63 = 2 ^ 64)) = true := by decide +kernel

/-! ### Ill-formed commands are refused -/

/-- A packet with each field in turn beyond its width (Table 4-1), or with an extension or payload that does not fit. -/
def badPackets : List Packet :=
  [{ ver := 16 }, { tc := 8 }, { op := 256 }, { flags := 65536 }, { dst := 65536 }, { src := 65536 }, { job := 65536 }, { epoch := 256 }, { flow := 65536 }, { fseq := 65536 }, { msg := 2 ^ 24 },
   { pidx := 4096 }, { pcnt := 4096 }, { status := 65536 }, { oparg := 2 ^ 32 }, { addr := 2 ^ 64 }, { cap := 2 ^ 64 }, { rsv := 2 ^ 28 }, { flags := 1 }, { ext := zeros 16 }, { payload := zeros 4097 }, { crc := 2 ^ 32 }]
/-- A flit and a HELLO with each field in turn beyond its width (Tables 3-4 and 3-11). -/
def badFlits : List Flit :=
  [{ fkind := 4 }, { lseq := 4096 }, { lack := 4096 }, { fpo := 256 }, { pend := 256 }, { cselA := 4 }, { ccumA := 4096 }, { cselB := 4 }, { ccumB := 4096 }, { txlane := 8 }, { payload := zeros 241 }, { lcrc := 2 ^ 32 }]
def badHellos : List Hello :=
  [{ helloOf2 with helloVer := 256 }, { helloOf2 with node := 65536 }, { helloOf2 with lport := 65536 }, { helloOf2 with width := 256 }, { helloOf2 with lane := 256 }, { helloOf2 with credTc0 := 65536 },
   { helloOf2 with credTc1 := 65536 }, { helloOf2 with credTc2 := 65536 }, { helloOf2 with credTc5 := 65536 }, { helloOf2 with replayDepth := 65536 }]
/-- Units, mailboxes, callers, slots and datagrams beyond their ranges (Tables 1-2, 17-2, 17-3, 17-6). -/
def badUnits : List FailedUnit := [.unit .rod 64, .unit .carry 96, .unit .sieve 64, .unit .mover 32, .bead 128 0, .bead 0 16]
def badCallers : List Caller := [{ mbox := .fm 2 }, { mbox := .host 16 }, { mbox := .clear 2 }, { mbox := .fm 0, cseq := 2 ^ 32 }, { mbox := .fm 0, tslot := 1024 }]
def goodSlot : MboxSlot := { opcode := 0, cseq := 1 }
def badSlots : List MboxSlot :=
  [{ goodSlot with opcode := 65536 }, { goodSlot with cseq := 2 ^ 32 }, { goodSlot with len := 65536 }, { goodSlot with part := 65536 }, { goodSlot with total := 2 ^ 32 }, { goodSlot with session := 2 ^ 64 },
   { goodSlot with tslot := 1024 }, { goodSlot with args := zeros 225 }]
def goodDatagram : Datagram := { port := 1, src := 0, dkind := 0, slots := [goodSlot] }
def badDatagrams : List Datagram :=
  [{ goodDatagram with port := 2 }, { goodDatagram with dkind := 256 }, { goodDatagram with sessionId := 2 ^ 64 }, { goodDatagram with dseq := 2 ^ 64 }, { goodDatagram with rpos := 2 ^ 64 }, { goodDatagram with slots := badSlots }]
/-- Arguments of the mailbox commands beyond their fields (Table 17-8). -/
def tallyOk : TallySessionArgs := { tallyArgs with events := 255 }
def badWindows : List OpenWindowArgs :=
  [{ winArgs with job := 65536 }, { winArgs with rights := 256 }, { winArgs with evtLog2 := 256 }, { winArgs with evtNode := 65536 }, { winArgs with base := 2 ^ 64 }, { winArgs with length := 2 ^ 64 }, { winArgs with evtCap := 2 ^ 64 }]
def badPublish : List PublishArgs :=
  [{ pubArgs with job := 65536 }, { pubArgs with span := 256 }, { pubArgs with pubs := List.replicate 9 5 }, { pubArgs with pubs := [65536] }, { pubArgs with view := 2 ^ 64 }, { pubArgs with vword := 2 ^ 64 }, { pubArgs with version := 2 ^ 64 }]
def badReductions : List OpenReductionArgs :=
  [{ redArgs with rid := 2 ^ 32 }, { redArgs with job := 65536 }, { redArgs with cop := 256 }, { redArgs with fmt := 256 }, { redArgs with rfmt := 256 }, { redArgs with rmode := 256 }, { redArgs with sat := 256 },
   { redArgs with ranked := 256 }, { redArgs with qn := 256 }, { redArgs with dmode := 256 }, { redArgs with dtc := 256 }, { redArgs with parent := 65536 }, { redArgs with round0 := 65536 }, { redArgs with dnode := 65536 },
   { redArgs with dgroup := 65536 }, { redArgs with length := 2 ^ 32 }, { redArgs with ntotal := 2 ^ 32 }, { redArgs with roundTimeout := 2 ^ 32 }, { redArgs with dcap := 2 ^ 64 }, { redArgs with resBase := 2 ^ 64 },
   { redArgs with cplOffset := 2 ^ 64 }, { redArgs with inputs := [⟨65536, 0, 0⟩] }, { redArgs with inputs := [⟨0, 65536, 0⟩] }, { redArgs with inputs := [⟨0, 0, 2 ^ 32⟩] }]
def badJobs : List InstallJobArgs :=
  [{ jobArgs with job := 65536 }, { jobArgs with ranked := 256 }, { jobArgs with pagerNode := 65536 }, { jobArgs with faultSlots := 2 ^ 32 }, { jobArgs with parkTimeout := 2 ^ 32 }, { jobArgs with ttRoot := 2 ^ 64 },
   { jobArgs with pagerCap := 2 ^ 64 }, { jobArgs with rankedSet := [16384] }]
def badTts : List WriteTtArgs := [{ ttArgs with job := 65536 }, { ttArgs with level := 256 }, { ttArgs with first := 65536 }, { ttArgs with table := 2 ^ 64 }, { ttArgs with entries := [2 ^ 64] }]
def badResolves : List ResolveFaultArgs :=
  [{ resolveArgs 0 0 with job := 65536 }, { resolveArgs 0 0 with outcome := 256 }, { resolveArgs 0 0 with hasLeaf := 256 }, { resolveArgs 0 0 with fid := 2 ^ 32 }, { resolveArgs 0 0 with leaf := 2 ^ 64 }]
def badTallies : List TallySessionArgs :=
  [{ tallyOk with session := 256 }, { tallyOk with enable := 256 }, { tallyOk with shift := 256 }, { tallyOk with tcMask := 256 }, { tallyOk with events := 256 }, { tallyOk with anyMask := 256 }, { tallyOk with op := 256 },
   { tallyOk with lport := 65536 }, { tallyOk with job := 65536 }, { tallyOk with src := 65536 }, { tallyOk with dst := 65536 }]
def badMaps : List ProposeMapArgs := [{ propArgs with base := 256 }, { propArgs with maxTransit := 256 }, { propArgs with records := [zeros 31] }]
def badDrills : List DrillArgs := [{ drillArgs with dkind := 256 }, { drillArgs with id := 65536 }, { drillArgs with target := 2 ^ 32 }, { drillArgs with p0 := 2 ^ 64 }, { drillArgs with p1 := 2 ^ 64 }]
def badPlaces : List ErrorPlace :=
  [.packetBuffer 512 0, .packetBuffer 0 16, .directory 4 0 0, .directory 0 (2 ^ 21) 0, .directory 0 0 16, .translation 4 0 0 0, .translation 0 65536 0 0, .translation 0 0 4 0, .window (2 ^ 20), .staging (2 ^ 32) 0 none, .dramLine (2 ^ 57)]
def goodSample : SupplySample := { vin := 48000, iin := 0, pin := 0, vstore := 0, rails := List.replicate 9 (0, false) }
def badSamples : List SupplySample := [{ goodSample with vin := 2 ^ 17 }, { goodSample with iin := 65536 }, { goodSample with pin := 65536 }, { goodSample with vstore := 16384 }, { goodSample with rails := [] }]

theorem test_wellformed_packets : (wellFormed (.store 511 storePkt) && wellFormed (.store 0x3FF storePkt) && !wellFormed (.store 512 storePkt) && badPackets.all fun p => !wellFormed (.store 0 p)) = true := by decide +kernel

theorem test_wellformed_flits : (wellFormed (.flitReceive 511 oneFlit 0) && !wellFormed (.flitReceive 512 oneFlit 0) && badFlits.all (fun f => !wellFormed (.flitReceive 0 f 0)) && wellFormed (.helloReceive 0 helloOf2) && badHellos.all fun h => !wellFormed (.helloReceive 0 h)) = true := by decide +kernel

theorem test_wellformed_units : (
  wellFormed (.unitFailure (.unit .carry 95) ⟨1, false⟩) && wellFormed (.unitFailure (.bead 127 15) ⟨1, false⟩) && !wellFormed (.unitFailure (.bead 0 0) ⟨65536, false⟩) && badUnits.all (fun u => !wellFormed (.unitFailure u ⟨1, false⟩))
    && !wellFormed (.memoryDone [(.rod, 64)]) && wellFormed (.memoryDone [(.rod, 63)]) && !wellFormed (.canaryMeasure .mover 32 0) && !wellFormed (.canaryMeasure .mover 31 65536)) = true := by decide +kernel

theorem test_wellformed_senders : (
  wellFormed (.flushNearTier fm0) && badCallers.all (fun c => !wellFormed (.flushNearTier c)) && wellFormed (.mailboxSlot (.host 15) goodSlot) && !wellFormed (.mailboxSlot (.host 16) goodSlot)
    && badSlots.all (fun sl => !wellFormed (.mailboxSlot .baseboard sl)) && wellFormed (.mgmtDatagram goodDatagram) && badDatagrams.all fun d => !wellFormed (.mgmtDatagram d)) = true := by decide +kernel

theorem test_wellformed_arguments : (
  wellFormed (.openWindow fm0 winArgs) && badWindows.all (fun a => !wellFormed (.openWindow fm0 a)) && wellFormed (.createPublishRegion fm0 pubArgs) && badPublish.all (fun a => !wellFormed (.createPublishRegion fm0 a))
    && wellFormed (.openReduction fm0 redArgs) && badReductions.all (fun a => !wellFormed (.openReduction fm0 a)) && wellFormed (.installJob fm0 jobArgs) && badJobs.all (fun a => !wellFormed (.installJob fm0 a))) = true := by decide +kernel

theorem test_wellformed_arguments_2 : (
  wellFormed (.writeTtEntries fm0 ttArgs) && badTts.all (fun a => !wellFormed (.writeTtEntries fm0 a)) && wellFormed (.resolveFault fm0 (resolveArgs 0 0)) && badResolves.all (fun a => !wellFormed (.resolveFault fm0 a))
    && wellFormed (.setTallySession fm0 tallyOk) && badTallies.all (fun a => !wellFormed (.setTallySession fm0 a)) && wellFormed (.proposeMap fm0 propArgs) && badMaps.all (fun a => !wellFormed (.proposeMap fm0 a))
    && wellFormed (.runDrill fm0 drillArgs) && badDrills.all (fun a => !wellFormed (.runDrill fm0 a))) = true := by decide +kernel

theorem test_wellformed_events : (
  [ErrorPlace.packetBuffer 511 15, .directory 3 (2 ^ 21 - 1) 15, .window (2 ^ 20 - 1), .dramLine (2 ^ 57 - 1)].all (fun w => wellFormed (.memoryUncorrectable w)) && badPlaces.all (fun w => !wellFormed (.memoryUncorrectable w))
    && wellFormed (.errorRateWindow (.bankPair 127) 15 0) && !wellFormed (.errorRateWindow (.bankPair 128) 0 0) && !wellFormed (.errorRateWindow (.sramMacro 4) 0 0) && wellFormed (.supplySample goodSample) && badSamples.all fun m => !wellFormed (.supplySample m)) = true := by decide +kernel

theorem test_wellformed_indices : (
  wellFormed (.governorEvaluation 3) && !wellFormed (.governorEvaluation 4) && !wellFormed (.portEnable 512) && !wellFormed (.snoopTimeout 64 0) && !wellFormed (.moverUnit 128) && !wellFormed (.descriptorStart 32) && !wellFormed (.keyZeroise 1024)
    && !wellFormed (.stackFailure 8) && !wellFormed (.coreFailure 8) && !wellFormed (.regulatorPhaseLost 9 0) && !wellFormed (.thermalTrip 14) && !wellFormed (.assemblyTimeout 4 0 0) && !wellFormed (.assemblyTimeout 0 0 (2 ^ 24)) && !wellFormed (.entdaa 128)
    && !wellFormed (.thermalSample [(14, 0)]) && wellFormed (.residenceLimit 0x3FF 3) && !wellFormed (.residenceLimit 512 3) && !wellFormed (.getAttestation fm0 (zeros 63)) && !wellFormed (.activateFirmware fm0 (zeros 63)) && !wellFormed (.setManagerKeys fm0 [zeros 63])) = true := by decide +kernel

/-- No row of the table gives bits: no word spells a command, and placing one changes nothing. -/
theorem test_no_words (s : State) (nbits w : Nat) : decodeTableWord nbits w = none ∧ s.withFetchWord nbits w = s := ⟨rfl, rfl⟩

/-! ### Results that the spec works out -/

/-- A command run in a state gives a next state of which the claim holds. -/
def after (i : Instr) (s : State) (claim : State → Bool) : Bool := match exec i s with
  | .next t => claim t
  | _ => false
/-- The frame that the first GiB of job 5 maps begins the module's own memory. -/
def ownByte (k : Nat) : Nat := poolAddr 1 k
/-- Element 5 of the worked example of chapter 09 as rank 0 and the two others send it. -/
def oneTerm : Term := termOf (decodeFloat fFP32 0x3F800000)
def tinyTerm : Term := termOf (decodeFloat fFP32 0x33800000)
/-- The frontier program of Table 10-12. -/
def frontier : List Nat := [0x0000000402000501, 0x0000000802000601, 0x7FFFFFFF08006613, 0x0000000000016722, 0x000000001000703D, 0x0000000000005838, 0x000000001000803D, 0x000000000000503C]
/-- The block of the worked example of chapter 08: zero lines, ascending tile IDs, day stamps and digests. -/
def tileLine : List Byte := (List.range 16).flatMap fun j => le 8 (0x1234560000 + 3 * j)
def dayLine : List Byte := (List.range 16).flatMap fun j => le 8 (1700000000 + 86400 * j)
def hashLine : List Byte := (List.range 16).flatMap fun j => le 8 (0x9E3779B97F4A7C15 * (j + 1) ^ 3 % 2 ^ 64)

/-- The worked example after R3: field [23:16] of the bytes 27 0C 41 8E is 41. -/
theorem test_field_of_dump : (decide (field ([0x27, 0x0C, 0x41, 0x8E] : List Byte) 0 4 = 0x8E410C27 ∧ bits (field ([0x27, 0x0C, 0x41, 0x8E] : List Byte) 0 4) 23 16 = 0x41)) = true := by decide +kernel

/-- Table 2-3 with the worked example of chapter 02: 150 GB/s needs 0.67 V, 200 GB/s 0.72 V. -/
theorem test_floors : (decide (floorFor 15000 = 670 ∧ floorFor 20000 = 720)) = true := by decide +kernel

/-- The worked example of chapter 09, step 7: a packet of round 7 in round 8 is of a round that is over. -/
theorem test_rounds : (decide (roundCheck { a := groupArgs, round := 8 } 7 = .over ∧ roundCheck { a := groupArgs, round := 8 } 9 = .later ∧ roundCheck { a := groupArgs, round := 65535 } 0 = .later)) = true := by decide +kernel

/-- Chapter 09, step 3: the term of 1.0 is 2^298 and that of 2^-24 is 2^274. -/
theorem test_terms : (decide (oneTerm = .fin (2 ^ 298) ∧ tinyTerm = .fin (2 ^ 274))) = true := by decide +kernel

/-- Chapter 09, step 3: element 5's record at L. -/
theorem test_partial_record : (decide (elemRecord .l (accumulate (accumulate {} oneTerm) tinyTerm) = [0x00, 0x22, 0x04, 0x04, 0x00, 0x00, 0x04])) = true := by decide +kernel

/-- Chapter 09, step 5: the exact sum rounds to 3F800001 in both orders. -/
theorem test_sum_rounds : (decide (resultElem 0 10 10 false false (accumulate (accumulate (accumulate {} tinyTerm) oneTerm) tinyTerm) = some [0x01, 0x00, 0x80, 0x3F] ∧ resultElem 0 10 10 false false (mergeElem 0 10 (accumulate {} tinyTerm) (accumulate (accumulate {} oneTerm) tinyTerm)) = some [0x01, 0x00, 0x80, 0x3F])) = true := by decide +kernel

/-- Table 10-12 passes R290, its LDFs end at byte 12, and it reads a bitmap; a reserved bit fails. -/
theorem test_frontier_program : (decide (firstBad frontier = none ∧ ldfEnd frontier = 12 ∧ firstBad [2 ^ 31 + 0x503C] = some 0) && hasBmt frontier) = true := by decide +kernel

/-- Chapter 08's example block: BDELTA lines of 23 and 68 bytes, RAW lines, and no body for zeros. -/
theorem test_line_modes : (decide (encodeMode (zeros 128) = (0, 0) ∧ (encodeLine tileLine).length = 23 ∧ (encodeLine dayLine).length = 68 ∧ encodeMode hashLine = (2, 0) ∧ (encodeLine hashLine).length = 128 ∧ (encodeLine tileLine).getD 12 0 = 0x0F)) = true := by decide +kernel

/-- Chapter 08's example image: LMODE, DWIDTH and CLEN, five sectors. -/
theorem test_image_header : (
  let img := encodeImage ((List.replicate 20 (zeros 128) ++ List.replicate 8 tileLine ++ List.replicate 2 dayLine ++ List.replicate 2 hashLine).flatten)
  decide (field img 0 8 = 0xA555550000000000 ∧ field img 8 8 = 0x0A00000000000000 ∧ field img 16 2 = 0x240 ∧ img.length = 640)) = true := by decide +kernel

/-- R129: a STORE's bytes stand at its page's frame, lowest byte first. -/
theorem test_store_writes : (after (.store 0 storePkt) base fun t => decide ((List.range 8).map (fun i => memRead t.pool.mem (ownByte 0xFF8 + i)) = ([0x88, 0x77, 0x66, 0x55, 0x44, 0x33, 0x22, 0x11] : List Byte) ∧ memRead t.pool.mem (ownByte 0x1000) = 0)) = true := by decide +kernel

/-- R124: an ATOMIC's ADD wraps at its width and leaves the next word. -/
theorem test_atomic_adds : (after (.atomic 0 { atomicPkt with payload := le 8 0xFFFFFFFF, crc := (sealPacket { atomicPkt with payload := le 8 0xFFFFFFFF }).crc }) { base with pool := { base.pool with mem := [(ownByte 0x108, 5)] } } fun t => decide ((List.range 5).map (fun i => memRead t.pool.mem (ownByte 0x108 + i)) = ([4, 0, 0, 0, 0] : List Byte))) = true := by decide +kernel

/-- R129 and Table 4-7: a LOAD is answered with the bytes, to its source, under its MSG. -/
theorem test_load_answers : (after (.load 8 (sealPacket { loadPkt with src := 3 })) { transitBase with pool := { base.pool with mem := [(ownByte 0xFF8, 0xAB)] } } fun t => t.queues.out.any fun e => e.2.packets.any fun x => decide (x.pkt.op = opRSP_DATA ∧ x.pkt.dst = 3 ∧ x.pkt.msg = 7 ∧ x.pkt.payload.head? = some 0xAB)) = true := by decide +kernel

/-- R86: a packet whose CRC fails is discarded, and changes no memory. -/
theorem test_bad_crc : (after (.store 0 { storePkt with crc := storePkt.crc + 1 }) base fun t => decide (t.pool.mem = [] ∧ t.pool.waiters = [])) = true := by decide +kernel

/-- R120: a request of a job that the port may not carry changes no memory. -/
theorem test_unknown_job : (after (.store 0 (sealPacket { storePkt with job := 6 })) base fun t => decide (t.pool.mem = [])) = true := by decide +kernel

/-- R172: WOPEN opens a window of the job, with its rights and length. -/
theorem test_wopen : (after (.wopen 0 wopenPkt) base fun t => t.win.table.any fun e => decide (e.2.state = .open_ ∧ e.2.ownerJob = 5 ∧ e.2.rights = 31 ∧ e.2.length = 128 ∧ e.2.gen = 1)) = true := by decide +kernel

/-- R174 to R178: an open window with nothing in flight is revoked, its generation moved on. -/
theorem test_revoke_stops : (after (.wrevoke 0 wrevokePkt) (windowIn .open_ 1) fun t => decide ((windowAt t 4).gen = 2 ∧ (windowAt t 4).state ≠ .open_)) = true := by decide +kernel

/-- R11: WRITE_REGISTER writes a field, and clamps it to its range. -/
theorem test_write_register : (after (.writeRegister fm0 (aPORT_ADMIT_RATE 0) 0xFFFFFFFF 0xFFFFFFFF) base fun t => decide (regWord t (aPORT_ADMIT_RATE 0) ≠ 0xFFFFFFFF)) = true := by decide +kernel

/-- R11: a read-only register keeps its value, and the command is refused. -/
theorem test_read_only : (after (.writeRegister fm0 (aSTATUS) 0xFFFFFFFF 0xFFFFFFFF) base fun t => decide (regWord t aSTATUS = regWord base aSTATUS)) = true := by decide +kernel

/-- R56: PORT_ENABLE takes a DISABLED port to WAIT_ADMIT. -/
theorem test_port_enable : (after (.portEnable 0) { portIn .disabled with regs := [(aPORT_CFG 0, 0), (aLPORT_ROLE 0, 3), (aNEAR_RESIDENT 0, 1)] } fun t => decide ((Machine.lport t 0).state = .waitAdmit)) = true := by decide +kernel

/-- R62: flits of a port carry LSEQ 0, 1. -/
theorem test_flit_sequence : (after (.flitTransmit 0) (portWith { state := .up, ctl := [[4, 0], [4, 1]] } { active := true }) fun t => decide ((Machine.lport t 0).txSeq = 1 ∧ ((tget t.links.lastTx 0).map (·.lseq)) = some 0 ∧ (Machine.lport t 0).replay.length = 1)) = true := by decide +kernel

/-- R69: after 256 ns without the missing flit the port sets LNAK. -/
theorem test_missing_lseq : (after (.missingLseqTimeout 0) (portWith { state := .up, ahead := [(oneFlit, false)], aheadAt := ms 100000 - 256 } { active := true }) fun t => decide ((Machine.lport t 0).lnak = true ∧ (Machine.lport t 0).ahead = [])) = true := by decide +kernel

/-- R311: a RING moves the channel's TAIL. -/
theorem test_doorbell : (after (.doorbellRing 0 (sealPacket { (bellPkt 0) with payload := le 2 3 ++ zeros 6 })) bound0 fun t => decide ((chan t 0).tail = 3)) = true := by decide +kernel

/-- R343: a MODE command joins the channel's queue. -/
theorem test_bead_mode : (after (.beadMode 0 modePkt) beadBase fun t => decide ((beadCh t 0).queue.length = 1 ∨ (beadCh t 0).mode = .compute)) = true := by decide +kernel

/-- R46: a margin below 15 % warns, one below 8 % raises the die's floor by 20 mV. -/
theorem test_canary_warn : (after (.canaryMeasure .carry 0 10) base (fun t => decide ((dieState t (unitDie .carry 0)).canaryHold = false)) && after (.canaryMeasure .carry 0 7) base fun t => decide ((dieState t (unitDie .carry 0)).canaryRaise = 770 ∧ (dieState t (unitDie .carry 0)).canaryHold = true)) = true := by decide +kernel

/-- R519: the bus under a level's threshold for 200 µs enters it. -/
theorem test_shed_level : (after (.shedLevelEnter 1) (supplyBase fun x => { x with belowSince := [(1, ms 100000 - us 200)] }) fun t => decide (t.supply.level = 1)) = true := by decide +kernel

/-- R527: bring-up begins with phase RAILS. -/
theorem test_bringup : (after .bringupStart (coldBase fun x => { x with switchClosed := true, vin := 48000, highSince := some (ms 100000 - us 200) }) fun t => decide (t.supply.phase = 1 ∧ t.supply.time0 = ms 100000)) = true := by decide +kernel

/-- Log entry 2: an empty queue lets a nanosecond pass. -/
theorem test_step_time : (
  match step base with
    | .next t => decide (t.now = base.now + 1)
    | _ => false) = true := by decide +kernel

end Sys2Proof.Tests
end

/-! ### Packets on the wire

A packet's bytes on the wire are read back as the packet (O40): the header of Table 4-1 as fields that follow one another, each read back at its offset. -/

namespace Sys2Proof.Machine

/-- A field of a structure in memory: its byte offset, its size in bytes, and the value written there. -/
structure WireField where
  off : Nat
  size : Nat
  val : Nat

/-- The bytes of fields that follow one another. -/
def wireBytes (l : List WireField) : List Byte := l.flatMap fun f => le f.size f.val

/-- Fields that follow one another without a gap, the first at offset `n`. -/
def LaidFrom : Nat → List WireField → Prop
  | _, [] => True
  | n, f :: r => f.off = n ∧ LaidFrom (n + f.size) r

theorem LaidFrom.le_off {n : Nat} {l : List WireField} {f : WireField} (hl : LaidFrom n l) (hf : f ∈ l) : n ≤ f.off := by
  induction l generalizing n with
  | nil => cases hf
  | cons g r ih =>
    obtain ⟨hg, hr⟩ := hl
    rcases List.mem_cons.mp hf with rfl | hf
    · exact hg.ge
    · exact Nat.le_trans (Nat.le_add_right _ _) (ih hr hf)

/-- Each field is read back at its offset, whatever bytes follow. -/
theorem field_wireBytes {n : Nat} {l : List WireField} {f : WireField} (hl : LaidFrom n l) (hf : f ∈ l) (rest : List Byte) :
    field (wireBytes l ++ rest) (f.off - n) f.size = f.val % 256 ^ f.size := by
  induction l generalizing n with
  | nil => cases hf
  | cons g r ih =>
    obtain ⟨rfl, hr⟩ := hl
    rw [wireBytes, List.flatMap_cons, List.append_assoc]
    rcases List.mem_cons.mp hf with rfl | hf
    · rw [Nat.sub_self, field_le]
    · have hoff := hr.le_off hf
      rw [field_skip _ _ _ _ _ (by omega), Nat.sub_sub]
      exact ih hr hf

theorem le_one_append_le_one (v w : Nat) : le 1 v ++ le 1 w = le 2 (v % 256 + 256 * (w % 256)) := by
  have hv : BitVec.ofNat 8 v = BitVec.ofNat 8 (v % 256 + 256 * (w % 256)) := BitVec.eq_of_toNat_eq (by simp only [BitVec.toNat_ofNat]; omega)
  have hw : BitVec.ofNat 8 w = BitVec.ofNat 8 ((v % 256 + 256 * (w % 256)) / 256) := BitVec.eq_of_toNat_eq (by simp only [BitVec.toNat_ofNat]; omega)
  simp only [le, List.cons_append, List.nil_append, hv, hw]

/-- The fields of Table 4-1 in offset order; VER, TC and OP share the first word. -/
def headerFields (p : Packet) : List WireField :=
  [⟨0, 2, (p.ver % 16 + p.tc % 8 * 16 + p.rsv % 2 * 128) % 256 + 256 * (p.op % 256)⟩, ⟨2, 2, p.flags⟩, ⟨4, 2, p.dst⟩, ⟨6, 2, p.src⟩,
   ⟨8, 2, p.job⟩, ⟨0xA, 1, p.epoch⟩, ⟨0xB, 1, p.rsv >>> 1⟩, ⟨0xC, 2, p.flow⟩, ⟨0xE, 2, p.fseq⟩,
   ⟨0x10, 3, p.msg⟩, ⟨0x13, 1, p.rsv >>> 9⟩, ⟨0x14, 3, p.pidx % 4096 + p.pcnt % 4096 * 4096⟩, ⟨0x17, 1, p.rsv >>> 17⟩,
   ⟨0x18, 2, lenOf p % 8192 + (p.rsv >>> 25) % 8 * 8192⟩, ⟨0x1A, 2, p.status⟩, ⟨0x1C, 4, p.oparg⟩, ⟨0x20, 8, p.addr⟩, ⟨0x28, 8, p.cap⟩]

theorem headerFields_laid (p : Packet) : LaidFrom 0 (headerFields p) := by
  simp [headerFields, LaidFrom]

theorem headerBytes_eq_wireBytes (p : Packet) : headerBytes p = wireBytes (headerFields p) := by
  rw [headerBytes, le_one_append_le_one]
  simp only [headerFields, wireBytes, List.flatMap_cons, List.flatMap_nil, List.append_assoc, List.append_nil]

@[simp] theorem headerBytes_length (p : Packet) : (headerBytes p).length = 48 := by
  simp [headerBytes]

/-- A header field is read back from any bytes that begin with the header. -/
theorem field_header {p : Packet} {f : WireField} (hf : f ∈ headerFields p) (rest : List Byte) :
    field (headerBytes p ++ rest) f.off f.size = f.val % 256 ^ f.size := by
  rw [headerBytes_eq_wireBytes]
  exact field_wireBytes (headerFields_laid p) hf rest

theorem packetBytes_eq (p : Packet) : packetBytes p = headerBytes p ++ (p.ext ++ (p.payload ++ le 4 p.crc)) := by
  simp only [packetBytes, bodyBytes, List.append_assoc]

theorem packetBytes_length (p : Packet) : (packetBytes p).length = packetSize p := by
  simp only [packetBytes_eq, List.length_append, headerBytes_length, le_length, packetSize]
  omega

/-- A header field is read back from the first 48 bytes alone. -/
theorem field_header_take {p : Packet} {f : WireField} (hf : f ∈ headerFields p) :
    field ((packetBytes p).take 48) f.off f.size = f.val % 256 ^ f.size := by
  have h := field_header hf []
  rwa [packetBytes_eq, List.take_left' (headerBytes_length p), ← List.append_nil (headerBytes p)]

theorem packetOk_flags {p : Packet} (h : packetOk p = true) : p.flags % 256 ^ 2 = p.flags := by
  simp only [packetOk, fits, Bool.and_eq_true, decide_eq_true_eq] at h
  omega

/-- The extension is there exactly when FLAGS.EXT announces it. -/
theorem packetOk_ext {p : Packet} (h : packetOk p = true) : (if p.flags.testBit 0 then 16 else 0) = p.ext.length := by
  simp only [packetOk, Bool.and_eq_true, decide_eq_true_eq] at h
  obtain ⟨⟨⟨-, hext⟩, -⟩, -⟩ := h
  exact hext.symm

/-- LEN shares its word with three reserved bits. -/
theorem packetOk_len {p : Packet} (h : packetOk p = true) :
    (lenOf p % 8192 + (p.rsv >>> 25) % 8 * 8192) % 256 ^ 2 % 8192 = p.payload.length := by
  simp only [packetOk, Bool.and_eq_true, decide_eq_true_eq] at h
  obtain ⟨⟨-, hlen⟩, -⟩ := h
  unfold lenOf
  omega

/-- The first 48 bytes of a well-formed packet announce its length. -/
theorem announcedSize_packetBytes {p : Packet} (h : packetOk p = true) : announcedSize ((packetBytes p).take 48) = packetSize p := by
  have hflags := field_header_take (p := p) (f := ⟨2, 2, p.flags⟩) (by simp [headerFields])
  have hlen := field_header_take (p := p) (f := ⟨0x18, 2, lenOf p % 8192 + (p.rsv >>> 25) % 8 * 8192⟩) (by simp [headerFields])
  simp only at hflags hlen
  rw [announcedSize, packetSize, hflags, hlen, packetOk_flags h, packetOk_len h, packetOk_ext h]

/-- A well-formed packet is read back from its bytes. -/
theorem parsePacket_packetBytes {p : Packet} (h : packetOk p = true) : parsePacket (packetBytes p) = p := by
  have reads : ∀ f ∈ headerFields p, field (packetBytes p) f.off f.size = f.val % 256 ^ f.size := fun f hf => by
    rw [packetBytes_eq]
    exact field_header hf _
  have hext : ((packetBytes p).drop 48).take p.ext.length = p.ext := by
    rw [packetBytes_eq, List.drop_left' (headerBytes_length p), List.take_left]
  have hrest : (packetBytes p).drop (48 + p.ext.length) = p.payload ++ le 4 p.crc := by
    rw [packetBytes_eq, ← List.drop_drop, List.drop_left' (headerBytes_length p), List.drop_left]
  have hcrc : field (packetBytes p) (48 + p.ext.length + p.payload.length) 4 = p.crc % 256 ^ 4 := by
    rw [field, ← List.drop_drop, hrest, List.drop_left, List.take_of_length_le (by simp), unle_le]
  simp only [headerFields, List.forall_mem_cons] at reads
  simp only [parsePacket, reads, packetOk_flags h, packetOk_ext h, packetOk_len h, hext, hrest, hcrc, List.take_left]
  -- What is left is arithmetic: each field fits its width, and the words that several fields share come apart.
  clear reads hext hrest hcrc
  simp only [packetOk, fits, Bool.and_eq_true, decide_eq_true_eq] at h
  cases p
  simp only [Packet.mk.injEq, bits, Nat.shiftRight_eq_div_pow, Nat.reduceAdd, Nat.reduceSub, Nat.reducePow, true_and] at h ⊢
  and_intros <;> omega

end Sys2Proof.Machine

section
open Sys2Proof Sys2Proof.Machine

/-- Settles O40: every field is read back at its offset, LEN and FLAGS.EXT among them, so that extension, payload and trailer are found where they lie. -/
theorem packetsDecodeAsEncoded : Obligations.PacketsDecodeAsEncoded := by
  unfold Obligations.PacketsDecodeAsEncoded
  exact fun p h => ⟨parsePacket_packetBytes h, packetBytes_length p, announcedSize_packetBytes h⟩

end

/-! ### Register commands

The register commands (O14): what each does when nothing turns it away, and its row. -/

namespace Sys2Proof.Machine

/-! ### What a register command does to the state in which it runs -/

/-- A write that no check turns away: the word is accepted, a staged one is pending, and what it sets off follows (R506). -/
theorem writeRegister_accepted {u : State} {c : Caller} {addr mask value b : Nat} (hb : rangeBlock addr 1 = some b)
    (hf : ∃ f ∈ regFields addr, f.kind ≠ .ro) (hr : blockReached u b = true) (ha : absentPort u addr = false) (ht : tailHeld u addr = false)
    (hl : writeLocked u addr (writtenWord (acceptedWord u addr) (BitVec.ofNat 32 mask) (BitVec.ofNat 32 value) addr) = false) :
    writeRegister u c addr mask value =
      let v := controlWrite (acceptWord u addr (writtenWord (acceptedWord u addr) (BitVec.ofNat 32 mask) (BitVec.ofNat 32 value) addr)) b
      let v := if (regFields addr).any fun f => f.kind = .staged then
        { v with regsPending := tset v.regsPending addr (writtenPending (pendWord u addr) (BitVec.ofNat 32 mask) (BitVec.ofNat 32 value) addr) } else v
      answerOk (settle (afterWrite v addr (regWord u addr) (lports u))) c mbWRITE_REGISTER [] := by
  have hro : ((regFields addr).all fun f => decide (f.kind = .ro)) = false := by simpa using hf
  simp only [writeRegister, hb, hro, hr, ha, ht, hl, Bool.not_true, Bool.or_self, Bool.false_eq_true, if_false]

/-- A read of registers of one block that the caller may see (R539). -/
theorem readRegisters_accepted {u : State} {c : Caller} {addr count pend b : Nat} (h1 : 1 ≤ count) (h2 : count ≤ 56) (hp : pend ≤ 1)
    (hb : rangeBlock addr count = some b) (hc : callerClass c = .baseboard → b ∈ [0x00000, 0x10000, 0x20000, 0x30000]) (hr : blockReached u b = true) :
    readRegisters u c addr count pend =
      answerOk (readRange u c.mbox (decide (pend = 1)) count addr).2 c mbREAD_REGISTER (readRange u c.mbox (decide (pend = 1)) count addr).1 := by
  unfold readRegisters
  rw [if_neg (by omega), if_neg (by omega), hb]
  simp only [hr, Bool.not_true, Bool.false_eq_true, if_false]
  rw [if_neg fun h => h.2 (hc h.1)]

/-- A mailbox reads back as it was replaced. -/
@[simp] theorem mboxOf_setMbox_same (s : State) (m : MboxId) (b : Mbox) : mboxOf (setMbox s m b) m = b := tgetD_tset_same _ _ _ _

/-- A low-word read latches the high word of that instant (R540). -/
theorem pairWord_latch (s : State) (m : MboxId) {a : Nat} (h : a % 8 = 0) :
    (mboxOf (pairWord s m a).2 m).latch = some (a, (if a = 0x40000 then timeNow s else (value64 s a).1) / 2 ^ 32 % 2 ^ 32) := by
  have hlo : a / 8 * 8 = a := by omega
  simp only [pairWord, hlo, h, if_true, mboxOf_setMbox_same]
  split <;> rfl

theorem commitGroup_near (u : State) (c : Caller) : commitGroup u c 1 = commitNear u c := by simp [commitGroup]

theorem commitGroup_gate (u : State) (c : Caller) : commitGroup u c 2 = commitGate u c := by simp [commitGroup]

theorem commitGroup_qos (u : State) (c : Caller) : commitGroup u c 3 = commitQos u c := by simp [commitGroup]

/-- Group GATE, every pending schedule of a port good: each port whose schedule differs is given its new one, and the ports whose time has come take it (R387, R508). -/
theorem commitGate_consistent {u : State} {c : Caller} {l : List Nat} (hl : l = (sortAsc (u.queues.gatePending.map (·.1))).filter (isLport u))
    (hg : ∀ q ∈ l, gateBad u q (tgetD u.queues.gatePending q {}) = none) :
    commitGate u c =
      let v := l.foldl (fun st q =>
        let g := tgetD u.queues.gatePending q {}
        if g = gateNow st q then st
        else { st with queues := { st.queues with gates := tset st.queues.gates q { portGate st q with next := some g, takeAt := gateTakes st q g } } }) u
      gateDone (l.foldl gateMove { v with queues := { v.queues with gatePending := [], gateCommit := some c } }) := by
  subst hl
  have hnone : (((sortAsc (u.queues.gatePending.map (·.1))).filter (isLport u)).findSome? fun q =>
      (gateBad u q (tgetD u.queues.gatePending q {})).map fun i => 16 * q + i) = none :=
    List.findSome?_eq_none_iff.mpr fun q hq => by rw [hg q hq, Option.map_none]
  simp only [commitGate, hnone]

/-- Group QOS, every pending register good: all take force (R507, R508). -/
theorem commitQos_consistent {u : State} {c : Caller} (h : ∀ a ∈ qosPending u, qosBad u a = none) :
    commitQos u c = answerOk ((qosPending u).foldl swapReg u) c mbCOMMIT_GROUP [] := by
  simp only [commitQos, List.findSome?_eq_none_iff.mpr h]

/-! ### The rows -/

theorem exec_writeRegister_go {s : State} {c : Caller} (addr mask value : Nat) (h : gate s c mbWRITE_REGISTER [] = .go) :
    exec (.writeRegister c addr mask value) s = .next (writeRegister (startCmd s c) c addr mask value) :=
  congrArg Host.Outcome.next (mboxRun_go _ h)

theorem exec_readRegister_go {s : State} {c : Caller} (addr count pend : Nat) (h : gate s c mbREAD_REGISTER [] = .go) :
    exec (.readRegister c addr count pend) s = .next (readRegisters (startCmd s c) c addr count pend) :=
  congrArg Host.Outcome.next (mboxRun_go _ h)

/-- A low-word read is no command: it runs without the common checks. -/
theorem exec_counterLowWordRead_pair {s : State} (c : Caller) {addr : Nat} (hp : isPair addr = true) (ha : addr % 8 = 0) :
    exec (.counterLowWordRead c addr) s = .next (pairWord s c.mbox addr).2 :=
  congrArg Host.Outcome.next (if_pos (by simp [hp, ha]))

/-- A commit that waits for no earlier one of group GATE runs. -/
theorem exec_commitGroup_go {s : State} {c : Caller} {group : Nat} (h : gate s c mbCOMMIT_GROUP [] = .go)
    (hw : group = 2 → s.queues.gateCommit = none) : exec (.commitGroup c group) s = .next (commitGroup (startCmd s c) c group) :=
  congrArg Host.Outcome.next ((if_neg fun hx => by simp [hw hx.1] at hx).trans (mboxRun_go _ h))

theorem exec_discardGroup_go {s : State} {c : Caller} (group : Nat) (h : gate s c mbDISCARD_GROUP [] = .go) :
    exec (.discardGroup c group) s = .next (discardGroup (startCmd s c) c group) :=
  congrArg Host.Outcome.next (mboxRun_go _ h)

end Sys2Proof.Machine

section
open Sys2Proof Sys2Proof.Machine

/-- Settles O14: each command that the gate lets go runs in `startCmd s c`, where its checks pass and its own lemma gives the effect. -/
theorem registerCommandsComplete : Obligations.RegisterCommandsComplete := by
  unfold Obligations.RegisterCommandsComplete
  intro s u c hu
  subst hu
  refine ⟨?write, ?read, ?lowWord, ?commit, ?discard⟩
  case write =>
    intro addr mask value b hg hb hf hr ha ht hl
    rw [exec_writeRegister_go _ _ _ hg, writeRegister_accepted hb hf hr ha ht hl]
  case read =>
    intro addr count pend b hg h1 h2 hp hb hc hr
    rw [exec_readRegister_go _ _ _ hg, readRegisters_accepted h1 h2 hp hb hc hr]
  case lowWord =>
    intro addr hp ha
    exact ⟨_, exec_counterLowWordRead_pair c hp ha, pairWord_latch s c.mbox ha⟩
  case commit =>
    intro hg
    refine ⟨?near, ?gates, ?qos⟩
    case near => rw [exec_commitGroup_go hg (by simp), commitGroup_near]
    case gates =>
      intro l hl hw hgood
      rw [exec_commitGroup_go hg fun _ => hw, commitGroup_gate, commitGate_consistent hl hgood]
    case qos =>
      intro hgood
      rw [exec_commitGroup_go hg (by simp), commitGroup_qos, commitQos_consistent hgood]
  case discard =>
    intro hg
    exact ⟨exec_discardGroup_go 1 hg, exec_discardGroup_go 2 hg, exec_discardGroup_go 3 hg⟩

end

/-! ### The Reckoner's events

Its cores, UCIe modules, images, mailboxes and sessions (O34): what each event does when its conditions hold. The row of an event is that function of the state, by definition of `exec`. -/

namespace Sys2Proof.Machine

/-! ### Cores and UCIe modules (R26, R481) -/

/-- A core that fails for the first time, from phase IMAGE on. -/
theorem loseCore_present {s : State} {core : Nat} (hcore : core < 8) (hnew : s.rkn.coresLost.contains core = false) (hphase : 3 ≤ s.supply.phase) :
    loseCore s core =
      let u := modRkn s fun x => { x with coresLost := x.coresLost ++ [core] }
      let v := event u eCORE_FAILED (if coresLeft u ≤ 5 then sevFAILED else sevCORRECTED) 13 core core (coresLeft u)
      if 6 ≤ coresLeft v ∧ v.rkn.dvorro = .running then restartDvorro v else v := by
  have hmem : core ∉ s.rkn.coresLost := by simpa using hnew
  refine if_neg ?_
  rintro (h | h | h)
  · omega
  · exact hmem h
  · omega

/-- A module that had its link. -/
theorem ucieLost_linked {s : State} {n : Nat} (hn : n < 4) (hphase : 2 ≤ s.supply.phase) (hlink : (tgetD s.rkn.ucie n {}).lostAt = none) :
    ucieLost s n = modUcie s n fun u => { u with lostAt := some s.now } := by
  refine if_neg ?_
  rintro (h | h | h)
  · omega
  · omega
  · simp [hlink] at h

theorem ucieFails_due {s : State} {n : Nat} {t : Ns} (hlost : (tgetD s.rkn.ucie n {}).lostAt = some t) (hnot : (tgetD s.rkn.ucie n {}).failed = false)
    (hdue : due s t (ms 10) = true) : ucieFails s n = event (modUcie s n fun u => { u with failed := true }) eUCIE_DOWN sevDEGRADED 14 n n 0 := by
  simp only [ucieFails, hlost, hnot, hdue, Bool.not_false, Bool.and_self, if_true]

/-- The return of a module that had failed, while Dvorro runs. -/
theorem ucieBack_failed {s : State} {n : Nat} {t : Ns} (hlost : (tgetD s.rkn.ucie n {}).lostAt = some t) (hfailed : (tgetD s.rkn.ucie n {}).failed = true)
    (hruns : s.rkn.dvorro = .running) :
    ucieBack s n = event (drainEvents (sendCarried (modUcie s n fun u => { u with lostAt := none, failed := false }))) eUCIE_UP sevINFO 14 n n 0 := by
  have hstill : (modUcie s n fun u => { u with lostAt := none, failed := false }).rkn.dvorro = .running := hruns
  simp only [ucieBack, hlost, hfailed, hstill, Option.isNone_some, Bool.false_eq_true, if_false, if_true]

/-! ### Restarts, activation and the write to flash (R460, R510 to R513) -/

/-- Dvorro running, the watchdog's act turns on the age of its image. -/
theorem watchdogActs_running {s : State} (hruns : s.rkn.dvorro = .running) :
    watchdogActs s = if imageNew s then settle (fallBack s) else restartDvorro s := if_neg (not_not_intro hruns)

theorem dvorroBack_restarting {s : State} (h : s.rkn.dvorro = .restarting) :
    dvorroBack s =
      let v := drainEvents (sendCarried (setEvt (modRkn (abortUnbegun s) fun x => { x with dvorro := .running }) aRECKONER_STATUS 16))
      match v.spares.drill with
      | some d => if d.args.dkind = 5 then endDrill v d (v.now - d.startedAt) else v
      | none => v := if_neg (not_not_intro h)

theorem windowEnds_due {s : State} {c : Caller} {t : Ns} (hact : s.rkn.activation = some (c, t)) (hopen : s.rkn.dvorro = .activating)
    (hdue : due s t (ms 100) = true) : windowEnds s = startImage s c := by
  simp only [windowEnds, hact, hopen, hdue, true_or, and_self, if_true]

theorem flashBegins_due {s : State} {t : Ns} (hact : s.rkn.activatedAt = some t) (hdue : due s t (ms 10000) = true) (hruns : s.rkn.dvorro = .running) :
    flashBegins s = modRkn s fun x => { x with flashWrite := true } := by
  simp only [flashBegins, hact, hdue, hruns, and_self, if_true]

/-- A write that answers its ACTIVATE_FIRMWARE, which is how one in identity-and-fetch mode ends (R513). -/
theorem flashEnds_activating {s : State} {c : Caller} {t : Ns} (hwrite : s.rkn.flashWrite = true) (hact : s.rkn.activation = some (c, t)) :
    flashEnds s = modRkn (answerOk (modRkn s fun x => { x with flash := x.staged, flashWrite := false, activation := none }) c mbACTIVATE_FIRMWARE [])
      fun x => { x with dvorro := .rom } := by
  simp only [flashEnds, hwrite, hact, Bool.not_true, Bool.false_eq_true, if_false]

/-! ### Slots, datagrams and sessions (R488 to R501) -/

theorem arriveSlot_baseboard {s : State} (sl : MboxSlot) (h : takesSlots s .baseboard = true) : arriveSlot s .baseboard sl = sequenceSlot s .baseboard sl :=
  if_neg (by simp [h])

theorem arriveSlot_clear {s : State} {i : Nat} (sl : MboxSlot) (h : takesSlots s (.clear i) = true) : arriveSlot s (.clear i) sl = clearSlot s (.clear i) sl :=
  if_neg (by simp [h])

theorem arriveSlot_session {s : State} {i : Nat} (sl : MboxSlot) (h : takesSlots s (.fm i) = true) (hopen : thas s.rkn.sessions i = true) :
    arriveSlot s (.fm i) sl = sequenceSlot s (.fm i) sl := (if_neg (by simp [h])).trans (if_pos hopen)

/-- The slot at CMD_HEAD of a bound host mailbox whose ring is not empty (R492). -/
theorem hostTakes_head {s : State} {i : Nat} {sl : MboxSlot} (hbound : (mboxOf s (.host i)).bound.isSome = true)
    (hring : (mboxOf s (.host i)).cmdHead ≠ (mboxOf s (.host i)).cmdTail)
    (hslot : slotOf (tgetD (mboxOf s (.host i)).slots ((mboxOf s (.host i)).cmdHead % 64) []) = sl) :
    hostTakes s i sl =
      sequenceSlot (setMbox s (.host i) { mboxOf s (.host i) with cmdHead := ((mboxOf s (.host i)).cmdHead + 1) % 65536 }) (.host i) sl := by
  refine if_neg ?_
  rintro (h | h | h)
  · rw [Option.isNone_iff_eq_none.mp h] at hbound
    cases hbound
  · exact hring h
  · exact h hslot

theorem arriveSlot_host {s : State} {i : Nat} {sl : MboxSlot} (h : takesSlots s (.host i) = true) (hbound : (mboxOf s (.host i)).bound.isSome = true)
    (hring : (mboxOf s (.host i)).cmdHead ≠ (mboxOf s (.host i)).cmdTail)
    (hslot : slotOf (tgetD (mboxOf s (.host i)).slots ((mboxOf s (.host i)).cmdHead % 64) []) = sl) :
    arriveSlot s (.host i) sl =
      sequenceSlot (setMbox s (.host i) { mboxOf s (.host i) with cmdHead := ((mboxOf s (.host i)).cmdHead + 1) % 65536 }) (.host i) sl :=
  (if_neg (by simp [h])).trans (hostTakes_head hbound hring hslot)

/-- A datagram that is of a management port and well-formed is counted, and its kind decides (R495, R496). -/
theorem takeDatagram_counted {s : State} {d : Datagram} (h : takesSlots s (.clear 0) = true) (hport : d.port < 2) (hrsv : d.rsv = 0)
    (hslots : d.slots.length ≤ 5) :
    takeDatagram s d =
      if d.dkind = 1 then takeSealed (bump s cDGRAM_RX) d
      else if d.dkind = 0 ∧ d.sessionId = 0 ∧ d.dseq = 0 then
        d.slots.foldl (fun st sl => arriveSlot st (.clear d.port) { sl with src := d.src }) (bump s cDGRAM_RX)
      else bump s cDGRAM_RX := by
  have hbad : ¬ (d.rsv ≠ 0 ∨ 5 < d.slots.length) := by omega
  have hserved : ¬ ((!takesSlots s (.clear 0)) = true ∨ 2 ≤ d.port) := by
    rw [h]
    simpa using hport
  rw [takeDatagram, if_neg hserved]
  exact if_neg hbad

/-- Slots that RACK does not cover, their wait over, go out again under a wait twice as long, up to 1 s (R501). -/
theorem resendSlots_due {s : State} {i : Nat} {e : Session} (he : tget s.rkn.sessions i = some e) (hleft : e.unacked ≠ []) (hdue : e.resendAt ≤ s.now) :
    resendSlots s i =
      sendFrom (putSession s i { e with resendWait := min (ms 1000) (2 * e.resendWait), resendAt := s.now + min (ms 1000) (2 * e.resendWait) })
        i e.rack (e.unacked.take 64) := by
  have hwaits : ¬ (e.unacked = [] ∨ s.now < e.resendAt) := not_or_intro hleft (Nat.not_lt.mpr hdue)
  simp only [resendSlots, he, hwaits, if_false]

theorem sessionIdle_of_due {s : State} {i : Nat} {e : Session} (he : tget s.rkn.sessions i = some e) (hdue : due s e.lastValid (ms 60000) = true) :
    sessionIdle s i = true := by
  simp only [sessionIdle, he, hdue]

/-! ### The baseboard controller (R503) -/

/-- GetSensorReading of a numeric sensor answers its reading. -/
theorem servePldm_reading {s : State} {n : Nat} {d : List Byte} (h : takesSlots s .baseboard = true) (hn : n < 17) (hd : pldmSensor s n = some d) :
    servePldm s 2 0x11 n = pldmAnswer s 2 0x11 0 d := by
  simp [servePldm, h, hd, hn]

end Sys2Proof.Machine

section
open Sys2Proof Sys2Proof.Machine

/-- Settles O34: under its conditions each event takes the branch that its own lemma states, and its row answers with that state. -/
theorem reckonerEventsAct : Obligations.ReckonerEventsAct := by
  unfold Obligations.ReckonerEventsAct
  intro s i
  refine ⟨?core, ?lost, ?ucie, ?watchdog, ?fallback, ?restartEnd, ?activation, ?flashStart, ?slot, ?datagram, ?resend, ?idle, ?mctp, ?pldm, ?entdaa⟩
  case core =>
    rintro _ _ hi hnew hphase rfl rfl
    exact congrArg Host.Outcome.next (loseCore_present hi hnew hphase)
  case lost =>
    intro hi hphase hlink
    exact congrArg Host.Outcome.next (ucieLost_linked hi hphase hlink)
  case ucie =>
    intro t hlost
    constructor
    · intro hnot hdue
      exact congrArg Host.Outcome.next (ucieFails_due hlost hnot hdue)
    · intro hfailed hruns
      exact congrArg Host.Outcome.next (ucieBack_failed hlost hfailed hruns)
  case watchdog =>
    intro hruns
    constructor
    · intro hold
      exact congrArg Host.Outcome.next ((watchdogActs_running hruns).trans (if_neg (by simp [hold])))
    · intro hnew
      exact congrArg Host.Outcome.next ((watchdogActs_running hruns).trans (if_pos hnew))
  case fallback =>
    intro hnew
    exact congrArg Host.Outcome.next (if_pos hnew)
  case restartEnd =>
    rintro _ h rfl
    exact congrArg Host.Outcome.next (dvorroBack_restarting h)
  case activation =>
    intro c t hact
    constructor
    · intro hopen hdue
      exact congrArg (fun u => Host.Outcome.next (settle u)) (windowEnds_due hact hopen hdue)
    · intro hwrite
      exact congrArg Host.Outcome.next (flashEnds_activating hwrite hact)
  case flashStart =>
    intro t hact hdue hruns
    exact congrArg Host.Outcome.next (flashBegins_due hact hdue hruns)
  case slot =>
    intro m sl h
    refine ⟨?baseboard, ?session, ?clear, ?host⟩
    case baseboard =>
      rintro rfl
      exact congrArg Host.Outcome.next (arriveSlot_baseboard sl h)
    case session =>
      rintro rfl hopen
      exact congrArg Host.Outcome.next (arriveSlot_session sl h hopen)
    case clear =>
      rintro rfl
      exact congrArg Host.Outcome.next (arriveSlot_clear sl h)
    case host =>
      rintro rfl hbound hring hslot
      exact congrArg Host.Outcome.next (arriveSlot_host h hbound hring hslot)
  case datagram =>
    intro d h hport hrsv hslots
    have hcounted := takeDatagram_counted h hport hrsv hslots
    constructor
    · intro hkind
      exact congrArg Host.Outcome.next (hcounted.trans (if_pos hkind))
    · intro hkind hid hseq
      exact congrArg Host.Outcome.next (hcounted.trans ((if_neg (by omega)).trans (if_pos ⟨hkind, hid, hseq⟩)))
  case resend =>
    rintro e _ he hleft hdue rfl
    exact congrArg Host.Outcome.next (resendSlots_due he hleft hdue)
  case idle =>
    intro e he hdue
    exact congrArg Host.Outcome.next (if_pos (sessionIdle_of_due he hdue))
  case mctp =>
    intro ep sl h
    exact congrArg Host.Outcome.next ((if_pos rfl).trans (arriveSlot_baseboard _ h))
  case pldm =>
    intro d h hn hd
    exact congrArg Host.Outcome.next (servePldm_reading h hn hd)
  case entdaa =>
    intro hphase
    exact congrArg Host.Outcome.next (if_pos hphase)

end

/-! ### Flits and lanes of an UP port

What the flit slots, the timers and the partner's control messages do to a port that is UP (O25). -/

namespace Sys2Proof.Machine

/-! ### A flit slot (R60, R68, R70; log entry 26)

The lane is active and its rod works, so what waits at the port decides; the lemmas follow the order in which it is sent. -/

section Transmit

variable {s : State} {l : Nat} (hup : isUp s (lportOfLane s l) = true) (hact : (lane s l).active = true) (hrod : rodPaused s (lportOfLane s l) = false)
include hup hact hrod

/-- A flit that is to be sent again goes first. -/
theorem transmitFlit_resend {f : Flit} {r : List Flit} (hf : (lport s (lportOfLane s l)).resend = f :: r) :
    transmitFlit s l = sentFlit (setLport s (lportOfLane s l) { lport s (lportOfLane s l) with resend := r }) l f := by
  simp only [transmitFlit, hup, hact, hrod, hf, Bool.not_true, Bool.or_self, Bool.false_eq_true, if_false]

variable (hsent : (lport s (lportOfLane s l)).resend = [])
include hsent

/-- With as many flits unacknowledged as the replay buffer holds, the port has none to keep: IDLE goes. -/
theorem transmitFlit_replayFull (hfull : replayRoom s (lportOfLane s l) ≤ (lport s (lportOfLane s l)).replay.length) :
    transmitFlit s l = sentFlit s l { lseq := (lport s (lportOfLane s l)).txSeq } := by
  simp only [transmitFlit, hup, hact, hrod, hsent, hfull, Bool.not_true, Bool.or_self, Bool.false_eq_true, if_false, if_true]

variable (hroom : (lport s (lportOfLane s l)).replay.length < replayRoom s (lportOfLane s l))
include hroom

theorem transmitFlit_control {m : List Byte} {r : List (List Byte)} (hctl : (lport s (lportOfLane s l)).ctl = m :: r) :
    transmitFlit s l =
      sendKept (setLport s (lportOfLane s l) { lport s (lportOfLane s l) with ctl := r }) l { fkind := 2, pend := m.length, payload := m } := by
  simp only [transmitFlit, hup, hact, hrod, hsent, hroom.not_ge, hctl, Bool.not_true, Bool.or_self, Bool.false_eq_true, if_false]

variable (hctl : (lport s (lportOfLane s l)).ctl = [])
include hctl

theorem transmitFlit_lossless (hb : hasBytes (lport s (lportOfLane s l)).txLossless (endsPackets (lport s (lportOfLane s l))) = true)
    {d : List Byte} {o : Nat} {x : TxStream}
    (hpack : packTx (lport s (lportOfLane s l)).txLossless (endsPackets (lport s (lportOfLane s l))) = (d, o, x)) :
    transmitFlit s l = sendData (setLport s (lportOfLane s l) { lport s (lportOfLane s l) with txLossless := x }) l
      { fkind := 1, fpo := o, pend := d.length, payload := d } := by
  simp only [transmitFlit, hup, hact, hrod, hsent, hroom.not_ge, hctl, hb, hpack, Bool.not_true, Bool.or_self, Bool.false_eq_true, if_false, if_true]

variable (hnone : hasBytes (lport s (lportOfLane s l)).txLossless (endsPackets (lport s (lportOfLane s l))) = false)
include hnone

theorem transmitFlit_lossy (hb : hasBytes (lport s (lportOfLane s l)).txLossy (endsPackets (lport s (lportOfLane s l))) = true)
    {d : List Byte} {o : Nat} {x : TxStream}
    (hpack : packTx (lport s (lportOfLane s l)).txLossy (endsPackets (lport s (lportOfLane s l))) = (d, o, x)) :
    transmitFlit s l = sendData (setLport s (lportOfLane s l) { lport s (lportOfLane s l) with txLossy := x }) l
      { fkind := 1, flossy := true, fpo := o, pend := d.length, payload := d } := by
  simp only [transmitFlit, hup, hact, hrod, hsent, hroom.not_ge, hctl, hnone, hb, hpack, Bool.not_true, Bool.or_self, Bool.false_eq_true, if_false, if_true]

/-- With nothing to send, IDLE goes. -/
theorem transmitFlit_nothing (hb : hasBytes (lport s (lportOfLane s l)).txLossy (endsPackets (lport s (lportOfLane s l))) = false) :
    transmitFlit s l = sentFlit s l { lseq := (lport s (lportOfLane s l)).txSeq } := by
  simp only [transmitFlit, hup, hact, hrod, hsent, hroom.not_ge, hctl, hnone, hb, Bool.not_true, Bool.or_self, Bool.false_eq_true, if_false]

end Transmit

/-! ### A flit that arrives (R41, R61, R66, R69, R70) -/

/-- The port once a good flit's credits and LACK are taken and its LNAK is answered (R66, R70). -/
def flitReports (s : State) (q : Nat) (f : Flit) : State :=
  takeLnak (modLport s q fun p => takeLack (takeCredit (takeCredit p f.cselA f.ccumA) f.cselB f.ccumB) s.now f.lack) q f

section Receive

variable {s : State} {l : Nat} {f : Flit} (drained : Nat) (hup : isUp (passFlit s l f.damaged) (lportOfLane s l) = true)
  (hact : (lane (passFlit s l f.damaged) l).active = true) (hrod : rodPaused (passFlit s l f.damaged) (lportOfLane s l) = false)
include hup hact hrod

theorem receiveFlit_bad (hbad : flitBad f = true) :
    receiveFlit s l f drained = modLport (passFlit s l f.damaged) (lportOfLane s l) fun p => { p with lnak := true, ahead := [] } := by
  simp only [receiveFlit, hup, hact, hrod, hbad, Bool.not_true, Bool.or_self, Bool.false_eq_true, Bool.true_eq_false, and_false, if_false, if_true]

/-- A good flit that is not a HELLO gives its reports; an IDLE flit does no more, a DATA or CONTROL flit enters the dock and acts by its LSEQ. -/
theorem receiveFlit_good (hgood : flitBad f = false) (hkind : f.fkind ≠ 3) :
    receiveFlit s l f drained =
      let v := flitReports (passFlit s l f.damaged) (lportOfLane s l) f
      if f.fkind = 0 then v
      else takeSequenced (dockFlit v (lportOfLane s l) drained).2 (lportOfLane s l) f (dockFlit v (lportOfLane s l) drained).1 := by
  simp only [receiveFlit, flitReports, hup, hact, hrod, hgood, hkind, Bool.not_true, Bool.or_self, Bool.false_eq_true, false_and, if_false]

end Receive

/-! ### Timers of a port (R69, R70) -/

theorem missingLseq_due {s : State} {q : Nat} (hup : isUp s q = true) (hnak : (lport s q).lnak = false) (hahead : (lport s q).ahead ≠ [])
    (hdue : due s (lport s q).aheadAt 256 = true) : missingLseq s q = setLport s q { lport s q with lnak := true, ahead := [] } :=
  if_pos (by simp [hup, hnak, hahead, hdue])

section ReplayTimeout

variable {s : State} {q : Nat} (hup : isUp s q = true) (hrod : rodPaused s q = false) (hkept : (lport s q).replay ≠ [])
  (hdue : due s (lport s q).lackAt (us 10) = true)
include hup hrod hkept hdue

theorem replayTimeout_again (hfew : (lport s q).replays < 16) :
    replayTimeout s q = replayAll (setLport s q { lport s q with lackAt := s.now }) q :=
  (if_pos (by simp [hup, hrod, hkept, hdue])).trans (if_neg hfew.not_ge)

/-- After 16 replays in a row, LINK_DOWN goes out on the port's first active lane, and the port is DOWN. -/
theorem replayTimeout_down (hmany : 16 ≤ (lport s q).replays) {m : Nat} {r : List Nat} (hlanes : activeLanes s q = m :: r) :
    replayTimeout s q = goDown (sentFlit s m { fkind := 2, lseq := (lport s q).txSeq, pend := 2, payload := [4, 1] }) q 2 := by
  refine (if_pos (by simp [hup, hrod, hkept, hdue])).trans ((if_pos hmany).trans ?_)
  simp only [hlanes]

end ReplayTimeout

/-! ### Lanes that leave and come back (R72, R73, R75) -/

theorem lockLost_active {s : State} {l : Nat} (hup : isUp s (lportOfLane s l) = true) (hact : (lane s l).active = true) :
    lockLost s l = retireLanes s (lportOfLane s l) (2 ^ (l - lportOfLane s l)) 1 := if_pos ⟨hup, hact⟩

/-- A lane above its threshold of corrected symbols, none of them injected. -/
theorem symbolWindow_above {s : State} {l corrected symbols : Nat} (hreal : injectedLane (bumpBy s (cLANE_FEC_CORR l) corrected) l = false)
    (hlimit : portCfg (bumpBy s (cLANE_FEC_CORR l) corrected) (lportOfLane s l) 16 8 ≠ 0)
    (habove : portCfg (bumpBy s (cLANE_FEC_CORR l) corrected) (lportOfLane s l) 16 8 * symbols < corrected * 30000) :
    symbolWindow s l corrected symbols =
      retireLanes (bumpBy s (cLANE_FEC_CORR l) corrected) (lportOfLane s l) (2 ^ (l - lportOfLane s l)) 3 :=
  (if_neg (by simp [hreal])).trans (if_pos ⟨hlimit, habove⟩)

/-- The partner's LANE_RETIRE on an UP port: the lanes in use leave, the mask is answered unless this module has named it, the flits are replayed. -/
theorem partnerRetire_up {s : State} {q : Nat} (mask : Nat) (hup : isUp s q = true) :
    partnerRetire s q mask =
      let ls := (maskLanes s q mask).filter fun x => (lane s x).active
      let v := if ls = [] then s else dropLanes (drawFree s).2 q ls (1 + (drawFree s).1 % 6)
      let w := if mask &&& (lport v q).retireSent = mask then v
        else modLport (sendCtl v q [2, BitVec.ofNat 8 mask]) q fun p => { p with retireSent := p.retireSent ||| mask }
      if ls = [] then replayAll w q else lanesLeft (replayAll w q) q :=
  if_neg (by simp [hup])

theorem partnerAdd_hello {s : State} {q mask : Nat} (hup : isUp s q = true)
    (hls : (maskLanes s q mask).filter (fun x => (lane s x).retrain = .hello) ≠ []) :
    partnerAdd s q mask = lanesBack s q ((maskLanes s q mask).filter fun x => (lane s x).retrain = .hello) :=
  if_neg (by simpa [hup] using hls)

end Sys2Proof.Machine

section
open Sys2Proof Sys2Proof.Machine

/-- Settles O25: on an UP port each event takes the branch that its own lemma states, and its row answers with that state. -/
theorem flitsAndLaneEventsAct : Obligations.FlitsAndLaneEventsAct := by
  unfold Obligations.FlitsAndLaneEventsAct
  rintro s _ l rfl hup
  refine ⟨?slot, ?missing, ?replay, ?lockLoss, ?uncorrectable, ?symbols, ?retire, ?add, ?linkDown, ?departing⟩
  case slot =>
    intro hact hrod
    refine ⟨?resend, ?full, ?kept, ?receive⟩
    case resend =>
      intro f r hf
      exact congrArg Host.Outcome.next (transmitFlit_resend hup hact hrod hf)
    case full =>
      intro hsent hfull
      exact congrArg Host.Outcome.next (transmitFlit_replayFull hup hact hrod hsent hfull)
    case kept =>
      intro hsent hroom
      constructor
      · intro m r hctl
        exact congrArg Host.Outcome.next (transmitFlit_control hup hact hrod hsent hroom hctl)
      · rintro _ rfl hctl
        refine ⟨?lossless, ?lossy, ?nothing⟩
        case lossless =>
          intro hb d o x hpack
          exact congrArg Host.Outcome.next (transmitFlit_lossless hup hact hrod hsent hroom hctl hb hpack)
        case lossy =>
          intro hnone hb d o x hpack
          exact congrArg Host.Outcome.next (transmitFlit_lossy hup hact hrod hsent hroom hctl hnone hb hpack)
        case nothing =>
          intro hnone hb
          exact congrArg Host.Outcome.next (transmitFlit_nothing hup hact hrod hsent hroom hctl hnone hb)
    case receive =>
      rintro f drained _ rfl hupNow hactNow hrodNow
      constructor
      · intro hbad
        exact congrArg (fun u => Host.Outcome.next (settle u)) (receiveFlit_bad drained hupNow hactNow hrodNow hbad)
      · rintro hgood _ rfl
        constructor
        · intro hidle
          exact congrArg (fun u => Host.Outcome.next (settle u))
            ((receiveFlit_good drained hupNow hactNow hrodNow hgood (by simp [hidle])).trans (if_pos hidle))
        · intro hbusy hkind
          exact congrArg (fun u => Host.Outcome.next (settle u))
            ((receiveFlit_good drained hupNow hactNow hrodNow hgood hkind).trans (if_neg hbusy))
  case missing =>
    intro hnak hahead hdue
    exact congrArg Host.Outcome.next (missingLseq_due hup hnak hahead hdue)
  case replay =>
    intro hrod hkept hdue
    constructor
    · intro hfew
      exact congrArg (fun u => Host.Outcome.next (settle u)) (replayTimeout_again hup hrod hkept hdue hfew)
    · intro hmany m r hlanes
      exact congrArg (fun u => Host.Outcome.next (settle u)) (replayTimeout_down hup hrod hkept hdue hmany hlanes)
  case lockLoss =>
    intro hact
    exact congrArg (fun u => Host.Outcome.next (settle u)) (lockLost_active hup hact)
  case uncorrectable =>
    intro hfour
    exact congrArg Host.Outcome.next (if_pos hfour)
  case symbols =>
    rintro corrected symbols _ rfl hreal hlimit habove
    exact congrArg (fun u => Host.Outcome.next (settle u)) (symbolWindow_above hreal hlimit habove)
  case retire =>
    rintro mask _ _ _ rfl rfl rfl
    exact congrArg (fun u => Host.Outcome.next (settle u)) (partnerRetire_up mask hup)
  case add =>
    rintro mask _ rfl hls
    exact congrArg (fun u => Host.Outcome.next (settle u)) (partnerAdd_hello hup hls)
  case linkDown =>
    intro reason hreason
    exact congrArg Host.Outcome.next (if_pos ⟨hup, hreason⟩)
  case departing => exact congrArg Host.Outcome.next (if_pos hup)

end

/-! ### Faults, spares and drills

What a canary's margin, a failed unit, the steps of a switch-in, an uncorrectable error and the end of a drill do (O33). -/

namespace Sys2Proof.Machine

/-! ### Canaries (R46) -/

/-- A unit is in service: it exists, and no lack of spares has taken it out (R459). -/
theorem not_absent_or_retired {s : State} {k : UnitKind} {i : Nat} (hi : i < unitTotalOf k) (hin : s.spares.retired.contains (k, i) = false) :
    ¬ (unitTotalOf k ≤ i ∨ (k, i) ∈ s.spares.retired) :=
  not_or_intro hi.not_ge (by simpa using hin)

theorem measureCanary_inService {s : State} {k : UnitKind} {i : Nat} (m : Nat) (hi : i < unitTotalOf k) (hin : s.spares.retired.contains (k, i) = false) :
    measureCanary s k i m =
      judgeMargin { s with spares := { s.spares with margin := tset s.spares.margin (k, i) m } } k i m (tgetD s.spares.margin (k, i) 255) :=
  if_neg (not_absent_or_retired hi hin)

/-- A margin of 15 % or more is below neither threshold. -/
theorem judgeMargin_wide (s : State) (k : UnitKind) (i : Nat) {m : Nat} (old : Nat) (hm : 15 ≤ m) : judgeMargin s k i m old = s := by
  have hwarn : ¬ m < 15 := hm.not_gt
  have htrip : 8 ≤ m := by omega
  simp only [judgeMargin, hwarn, htrip, false_and, if_false, if_true]

theorem canaryHoldEnds_due {s : State} {die : Nat} (hhold : (dieState s die).canaryHold = true) (hdue : (dieState s die).canaryUntil ≤ s.now) :
    canaryHoldEnds s die =
      let v := setDie s die { dieState s die with canaryHold := false, canaryRaise := 0 }
      (v.spares.margin.filter fun e => unitDie e.1.1 e.1.2 = die).foldl (fun st e =>
        if e.1 ∈ st.spares.retired then st else judgeMargin st e.1.1 e.1.2 e.2 e.2) v :=
  if_pos ⟨hhold, hdue⟩

/-! ### Failed units and beads (R268, R451, R456) -/

/-- A unit in service, on a die where no switch-in is listed. -/
theorem failUnit_inService {s : State} {k : UnitKind} {i : Nat} (cause : Nat) (hi : i < unitTotalOf k) (hin : s.spares.retired.contains (k, i) = false)
    (hidle : tgetD s.spares.switching (unitDie k i) [] = []) : failUnit s k i cause = askSwitch (markDegraded s k i cause) k i cause false := by
  refine (if_neg (not_absent_or_retired hi hin)).trans ?_
  simp only [hidle]

/-- The row of a unit's failure that is not a first residue mismatch (log entry 41). -/
theorem exec_unitFailure_unit (s : State) (k : UnitKind) (i : Nat) {cause : Nat} {again : Bool} (h : cause ≠ 2 ∨ again = true) :
    exec (.unitFailure (.unit k i) ⟨cause, again⟩) s = .next (settle (failUnit s k i cause)) := by
  refine congrArg (fun u => Host.Outcome.next (settle u)) (if_neg ?_)
  rcases h with hcause | hagain
  · simp [hcause]
  · simp [hagain]

theorem residuePassed_unit (s : State) {k : UnitKind} {i : Nat} (hi : i < unitTotalOf k) : residuePassed s (.unit k i) = residueSeen s k i :=
  if_neg hi.not_ge

/-- A bead that fails otherwise than by its residues. -/
theorem beadDegraded_new {s : State} {c pair cause : Nat} (hc : c < 128) (hpair : pair < 16) (hnew : s.spares.beadsDegraded.contains (16 * c + pair) = false)
    (hcause : cause ≠ 2) :
    beadDegraded s c pair cause =
      sparePair (event { setEvt s aBEAD_CFG 17 with spares := { s.spares with beadsDegraded := s.spares.beadsDegraded ++ [16 * c + pair] } }
        eUNIT_DEGRADED sevDEGRADED 8 (16 * c + pair) (16 * c + pair) cause) (16 * c + pair) := by
  have hmem : 16 * c + pair ∉ s.spares.beadsDegraded := by simpa using hnew
  refine (if_neg (not_or_intro hc.not_ge (not_or_intro hpair.not_ge hmem))).trans ?_
  simp only [hcause, if_false]
  rfl

/-! ### Switch-ins (R452, R454) -/

/-- The rod being switched in has loaded: each UP port of it asks for a replay, sends its own, and acts on the retirements that waited. -/
theorem rodLoaded_first {s : State} {i : Nat} {w : SwitchIn} {r : List SwitchIn} (hfirst : tgetD s.spares.switching (unitDie .rod i) [] = w :: r)
    (hkind : w.kind = .rod) (hindex : w.index = i) (hload : w.loaded = false) :
    rodLoaded s i =
      let v := setSwitching s (unitDie .rod i) ({ w with loaded := true } :: r)
      (upPortsOf v i).foldl (fun st q =>
        (lport st q).retireLater.foldl (fun st e => retireLanes st q e.1 e.2)
          (modLport st q fun p => { p with lnak := true, ahead := [], resend := p.replay, lackAt := st.now, retireLater := [] })) v := by
  simp only [rodLoaded, hfirst]
  exact if_pos ⟨hkind, hindex, hload⟩

/-- What a switch-in's end records: the spare `sp` serves the unit, which is neither DEGRADED nor measured yet. -/
def spareServes (s : State) (die : Nat) (w : SwitchIn) (sp : Nat) (rest : List Nat) : State :=
  { s with spares := { s.spares with
    slot := tset s.spares.slot (w.kind, w.index) sp, spare := tset s.spares.spare (w.kind, die) rest
    degraded := s.spares.degraded.filter (· ≠ (w.kind, w.index)), margin := tdel s.spares.margin (w.kind, w.index)
    switchins := tset s.spares.switchins (w.kind, w.index) (tgetD s.spares.switchins (w.kind, w.index) 0 + 1) } }

/-- The end of a switch-in that no drill ordered, on a spare that a rod has loaded. -/
theorem switchOver_real {s : State} {die sp : Nat} {w : SwitchIn} {r : List SwitchIn} {rest : List Nat}
    (hfirst : tgetD s.spares.switching die [] = w :: r) (hload : w.kind = .rod → w.loaded = true) (hspare : freeSpares s w.kind die = sp :: rest)
    (hreal : w.drill = false) :
    switchOver s die =
      let v := engineReplaced (bump (setEvt (spareServes s die w sp rest) (aUnit w.kind w.index) 22) cSPARE_SWITCHINS) w.kind w.index
      beginSwitch die (r.length + 1) (setSwitching (raise v (markDrill v false
        { etype := eUNIT_SPARED, sev := sevCORRECTED, uclass := unitClass w.kind, unit := w.index, arg0 := unitSlot s w.kind w.index + sp * 2 ^ 32
          arg1 := s.now - w.startedAt })) die r) := by
  have hready : ¬ (w.kind = .rod ∧ w.loaded = false) := by
    rintro ⟨hrod, hnot⟩
    simp [hload hrod] at hnot
  simp only [switchOver, hfirst, hready, hspare, hreal, Bool.false_eq_true, if_false]
  rfl

/-! ### Error rates and copies (R451, R456, R457) -/

theorem errorWindow_bankPair {s : State} {c i corrected : Nat} (hreal : injecting s (.bankPair c) = false) (hmany : 10000 < corrected) (hi : i < 16) :
    errorWindow s (.bankPair c) i corrected = sparePair s (16 * c + i) :=
  (if_neg (by simp [hreal])).trans (if_pos ⟨hmany, hi⟩)

theorem errorWindow_sramMacro {s : State} {die corrected : Nat} (i : Nat) (hreal : injecting s (.sramMacro die) = false) (hmany : 1000 < corrected) :
    errorWindow s (.sramMacro die) i corrected = spareMacro s die i :=
  (if_neg (by simp [hreal])).trans (if_pos hmany)

theorem pairCopied_copying {s : State} {ch p : Nat} {t : Ns} (hcopy : tget s.spares.bankCopy ch = some (p, t)) :
    pairCopied s ch =
      let v := { s with spares := { s.spares with
        bankCopy := tdel s.spares.bankCopy ch, bankSpared := s.spares.bankSpared ++ [16 * ch + p]
        beadsDegraded := s.spares.beadsDegraded.filter (· ≠ 16 * ch + p) } }
      startBeads (event (bump v cSPARE_SWITCHINS) eBANK_PAIR_SPARED sevCORRECTED 9 (16 * ch + p) (poisonedIn v (16 * ch + p)) ((s.now - t) / 1000)) ch := by
  simp only [pairCopied, hcopy]
  rfl

/-- The only copy of a base die ends: the lowest spare `n` takes the addresses. -/
theorem macroCopied_only {s : State} {die i n : Nat} {t : Ns} (hcopy : tgetD s.spares.macroCopy die [] = [(i, t)])
    (hspare : (List.range 16).find? (fun n => !thas s.spares.macroMap (die, n)) = some n) :
    macroCopied s die i =
      event (bump { s with spares := { s.spares with macroCopy := tdel s.spares.macroCopy die, macroMap := tset s.spares.macroMap (die, n) i } }
        cSPARE_SWITCHINS) eSRAM_MACRO_SPARED sevCORRECTED 10 (1024 * die + i) n ((s.now - t) / 1000) := by
  simp only [macroCopied, hcopy, hspare, ne_eq, not_true_eq_false, if_false, if_true]
  rfl

/-! ### Uncorrectable errors (R470) -/

theorem loseWord_resident {s : State} {a h : Nat} (hline : hlnOf s a = some h) :
    loseWord s a = sparePair (event (poisonLine s a kPOISONED_DATA) eMEMORY_UNCORRECTABLE sevDEGRADED 9 (pairOfHln h) h 0) (pairOfHln h) := by
  simp only [loseWord, hline]

/-! ### The ends of drills (R471, R473) -/

section DrillEnds

variable {s : State} {d : Drill} (hrun : s.spares.drill = some d)
include hrun

theorem exec_drillInjectEnd_due (hkind : d.args.dkind = 3) (hdue : due s d.startedAt (ms d.args.p1) = true) :
    exec .drillInjectEnd s = .next (endInject s d) := by
  change execDrillInjectEnd s = _
  simp only [execDrillInjectEnd, hrun, hkind, hdue, decide_true, Bool.and_self, if_true]

theorem exec_drillLaneRestore_due (hkind : d.args.dkind = 2) (hdue : due s d.startedAt (ms d.args.p0) = true) :
    exec .drillLaneRestore s = .next (drillRetrain s d) := by
  change execDrillLaneRestore s = _
  simp only [execDrillLaneRestore, hrun, hkind, hdue, decide_true, Bool.and_self, if_true]

theorem exec_selfTestEnd_target {k : UnitKind} {i : Nat} (passed : Bool) (htest : d.testing = true) (htarget : drillTarget d.args = some (k, i)) :
    exec (.selfTestEnd k i passed) s = .next (selfTested s d k i passed) := by
  change execSelfTestEnd k i passed s = _
  simp only [execSelfTestEnd, hrun, htest, htarget, decide_true, Bool.and_self, if_true]

end DrillEnds

/-- A displaced unit that passes its self-test is a spare again. -/
theorem selfTested_passed (s : State) (d : Drill) (k : UnitKind) (i : Nat) :
    selfTested s d k i true = endDrill
      { s with spares := { s.spares with spare := tset s.spares.spare (k, unitDie k i) (insertAsc d.oldSlot (freeSpares s k (unitDie k i))) } } d d.effect :=
  rfl

end Sys2Proof.Machine

section
open Sys2Proof Sys2Proof.Machine

/-- Settles O33: under its conditions each event takes the branch that its own lemma states, and its row answers with that state. -/
theorem faultEventsAct : Obligations.FaultEventsAct := by
  unfold Obligations.FaultEventsAct
  intro s i m
  refine ⟨?canary, ?hold, ?unit, ?bead, ?rod, ?switchIn, ?errorRate, ?pairCopy, ?macroCopy, ?word, ?window, ?staging, ?drill⟩
  case canary =>
    rintro k _ hi hin rfl
    exact ⟨congrArg (fun u => Host.Outcome.next (settle u)) (measureCanary_inService m hi hin), judgeMargin_wide _ k i _⟩
  case hold =>
    rintro _ hhold hdue rfl
    exact congrArg (fun u => Host.Outcome.next (settle u)) (canaryHoldEnds_due hhold hdue)
  case unit =>
    intro k cause again hi hin hidle
    constructor
    · intro h
      rw [exec_unitFailure_unit s k i h, failUnit_inService cause hi hin hidle]
    · exact congrArg (fun u => Host.Outcome.next (settle u)) (residuePassed_unit s hi)
  case bead =>
    intro pair hi hpair hnew
    exact congrArg (fun u => Host.Outcome.next (settle u)) (beadDegraded_new hi hpair hnew (by decide))
  case rod =>
    intro w r hfirst hkind hindex hload
    exact congrArg (fun u => Host.Outcome.next (settle u)) (rodLoaded_first hfirst hkind hindex hload)
  case switchIn =>
    intro w r sp rest hfirst hload hspare hreal
    exact congrArg (fun u => Host.Outcome.next (settle u)) (switchOver_real hfirst hload hspare hreal)
  case errorRate =>
    intro c
    constructor
    · intro hmany hm hreal
      exact congrArg (fun u => Host.Outcome.next (settle u)) (errorWindow_bankPair hreal hmany hm)
    · intro hmany hreal
      exact congrArg (fun u => Host.Outcome.next (settle u)) (errorWindow_sramMacro m hreal hmany)
  case pairCopy =>
    rintro p t _ hcopy rfl
    exact congrArg (fun u => Host.Outcome.next (settle u)) (pairCopied_copying hcopy)
  case macroCopy =>
    intro t n hcopy hspare
    exact congrArg Host.Outcome.next (macroCopied_only hcopy hspare)
  case word =>
    intro h hline
    exact congrArg (fun u => Host.Outcome.next (settle u)) (loseWord_resident hline)
  case window =>
    intro hused
    exact congrArg (fun u => Host.Outcome.next (settle u)) (if_neg hused)
  case staging =>
    intro rid e
    rfl
  case drill =>
    intro d hrun
    refine ⟨exec_drillInjectEnd_due hrun, exec_drillLaneRestore_due hrun, ?_⟩
    intro k htest htarget
    rw [exec_selfTestEnd_target hrun true htest htarget, selfTested_passed]

end

/-! ### Credit reports

The cumulative counts that flits carry (O46): which two classes a flit reports, and what its receiver makes of them. -/

namespace Sys2Proof.Machine

/-! ### The flit that a lane sends (R66) -/

/-- The first of the two classes that the next flit of a lane reports: its last flit reported the other pair. -/
def creditPair (s : State) (l : Nat) : Nat :=
  match tget s.links.lastTx l with
  | some g => if g.cselA = 0 then 2 else 0
  | none => 0

/-- A flit reports the lane's next pair of classes with the counts of its port. -/
def ReportsCredits (s : State) (l : Nat) (f : Flit) : Prop :=
  f.cselA = creditPair s l ∧ f.cselB = creditPair s l + 1 ∧
    f.ccumA = (lport s (lportOfLane s l)).ccumOut.getD f.cselA 0 ∧ f.ccumB = (lport s (lportOfLane s l)).ccumOut.getD f.cselB 0

/-- The flit that a lane last sent in `t` reports the credits of `s`. -/
def SentReport (s t : State) (l : Nat) : Prop := ∃ f, tget t.links.lastTx l = some f ∧ ReportsCredits s l f

theorem sentFlit_report (s : State) (l : Nat) (f : Flit) : SentReport s (sentFlit s l f) l :=
  ⟨dressFlit s l f, tget_tset_same _ _ _, rfl, rfl, rfl, rfl⟩

/-- A change of the port that keeps the counts to be returned keeps what is reported. -/
theorem SentReport.of_setLport {s t : State} {l : Nat} {p : LPort} (h : SentReport (setLport s (lportOfLane s l) p) t l)
    (hp : p.ccumOut = (lport s (lportOfLane s l)).ccumOut) : SentReport s t l := by
  obtain ⟨f, hf, hselA, hselB, hA, hB⟩ := h
  have hcum : (lport (setLport s (lportOfLane s l) p) (lportOfLane s l)).ccumOut = (lport s (lportOfLane s l)).ccumOut := by
    rw [lport_setLport_same, hp]
  exact ⟨f, hf, hselA, hselB, hA.trans (congrArg (fun c => c.getD f.cselA 0) hcum), hB.trans (congrArg (fun c => c.getD f.cselB 0) hcum)⟩

theorem sendKept_report (s : State) (l : Nat) (f : Flit) : SentReport s (sendKept s l f) l :=
  .of_setLport (sentFlit_report _ l _) rfl

theorem sendData_report {s : State} {l : Nat} (f : Flit) (hc : (lport s (lportOfLane s l)).oldCfg = none) (hr : (lport s (lportOfLane s l)).oldRate = none) :
    SentReport s (sendData s l f) l := by
  rw [sendData_plain s l f hc hr]
  exact sendKept_report s l f

/-- Whatever flit an active lane of an UP port sends while no LIVE value waits, it reports the credits. -/
theorem transmitFlit_report {s : State} {l : Nat} (hup : isUp s (lportOfLane s l) = true) (hact : (lane s l).active = true)
    (hc : (lport s (lportOfLane s l)).oldCfg = none) (hr : (lport s (lportOfLane s l)).oldRate = none) : SentReport s (transmitFlit s l) l := by
  cases hrod : rodPaused s (lportOfLane s l) with
  | true =>
    have hidle : transmitFlit s l = sentFlit s l { lseq := (lport s (lportOfLane s l)).txSeq } := by
      simp only [transmitFlit, hup, hact, hrod, Bool.not_true, Bool.or_self, Bool.false_eq_true, if_false, if_true]
    rw [hidle]
    exact sentFlit_report s l _
  | false =>
    cases hsent : (lport s (lportOfLane s l)).resend with
    | cons f r =>
      rw [transmitFlit_resend hup hact hrod hsent]
      exact .of_setLport (sentFlit_report _ l f) rfl
    | nil =>
      rcases Nat.lt_or_ge (lport s (lportOfLane s l)).replay.length (replayRoom s (lportOfLane s l)) with hroom | hfull
      case inr =>
        rw [transmitFlit_replayFull hup hact hrod hsent hfull]
        exact sentFlit_report s l _
      case inl =>
        cases hctl : (lport s (lportOfLane s l)).ctl with
        | cons m r =>
          rw [transmitFlit_control hup hact hrod hsent hroom hctl]
          exact .of_setLport (sendKept_report _ l _) rfl
        | nil =>
          have keeps : ∀ p : LPort, p.ccumOut = (lport s (lportOfLane s l)).ccumOut → p.oldCfg = (lport s (lportOfLane s l)).oldCfg →
              p.oldRate = (lport s (lportOfLane s l)).oldRate → ∀ f, SentReport s (sendData (setLport s (lportOfLane s l) p) l f) l :=
            fun p hp hpc hpr f => .of_setLport (sendData_report f
              ((congrArg LPort.oldCfg (lport_setLport_same s _ p)).trans (hpc.trans hc)) ((congrArg LPort.oldRate (lport_setLport_same s _ p)).trans (hpr.trans hr))) hp
          cases hless : hasBytes (lport s (lportOfLane s l)).txLossless (endsPackets (lport s (lportOfLane s l))) with
          | true =>
            rcases hpack : packTx (lport s (lportOfLane s l)).txLossless (endsPackets (lport s (lportOfLane s l))) with ⟨d, o, x⟩
            rw [transmitFlit_lossless hup hact hrod hsent hroom hctl hless hpack]
            apply keeps <;> rfl
          | false =>
            cases hlossy : hasBytes (lport s (lportOfLane s l)).txLossy (endsPackets (lport s (lportOfLane s l))) with
            | true =>
              rcases hpack : packTx (lport s (lportOfLane s l)).txLossy (endsPackets (lport s (lportOfLane s l))) with ⟨d, o, x⟩
              rw [transmitFlit_lossy hup hact hrod hsent hroom hctl hless hlossy hpack]
              apply keeps <;> rfl
            | false =>
              rw [transmitFlit_nothing hup hact hrod hsent hroom hctl hless hlossy]
              exact sentFlit_report s l _

/-- The pairs alternate: a flit that reports and the next one of its lane report all four classes. -/
theorem reports_all_classes {s u : State} {l : Nat} {f g : Flit} (hf : ReportsCredits s l f) (hsent : tget u.links.lastTx l = some f)
    (hg : ReportsCredits u l g) : ∀ k < 4, k ∈ [f.cselA, f.cselB, g.cselA, g.cselB] := by
  obtain ⟨hfA, hfB, -, -⟩ := hf
  obtain ⟨hgA, hgB, -, -⟩ := hg
  have hfirst : f.cselA = 0 ∨ f.cselA = 2 := by
    rw [hfA]
    unfold creditPair
    repeat' split
    all_goals simp
  have hnext : g.cselA = if f.cselA = 0 then 2 else 0 := by rw [hgA, creditPair, hsent]
  rw [hfB, ← hfA, hgB, ← hgA, hnext]
  rcases hfirst with h | h <;> rw [h] <;> decide

/-! ### The counts that a receiver returns and a sender takes (R66) -/

theorem getD_set_same {α : Type} (l : List α) {k : Nat} (a d : α) (h : k < l.length) : (l.set k a).getD k d = a := by
  simp [List.getD_eq_getElem?_getD, h]

theorem getD_set_other {α : Type} (l : List α) {k j : Nat} (a d : α) (h : j ≠ k) : (l.set k a).getD j d = l.getD j d := by
  simp [List.getD_eq_getElem?_getD, h.symm]

theorem returnCredits_ccumOut (s : State) (q tc n : Nat) :
    (lport (returnCredits s q tc n) q).ccumOut =
      (lport s q).ccumOut.set (creditClass tc) (((lport s q).ccumOut.getD (creditClass tc) 0 + n) % 4096) :=
  congrArg LPort.ccumOut (lport_setLport_same s q _)

theorem gap_counts {a b : Nat} (ha : a < 4096) (hb : b < 4096) : gap 12 a b = (a + 4096 - b) % 4096 := by
  simp only [gap, Nat.reducePow, Nat.mod_eq_of_lt ha, Nat.mod_eq_of_lt hb]

section TakeCredit

variable {p : LPort} {k new : Nat} (hcum : k < p.ccumIn.length) (hold : p.ccumIn.getD k 0 < 4096) (hnew : new < 4096)

include hold hnew in
/-- A count newer by 1 to 2,047 is taken. -/
theorem takeCredit_newer (h1 : 1 ≤ (new + 4096 - p.ccumIn.getD k 0) % 4096) (h2 : (new + 4096 - p.ccumIn.getD k 0) % 4096 ≤ 2047) :
    takeCredit p k new = { p with
      credits := p.credits.set k (p.credits.getD k 0 + (new + 4096 - p.ccumIn.getD k 0) % 4096), ccumIn := p.ccumIn.set k new } := by
  rw [← gap_counts hnew hold] at h1 h2 ⊢
  exact takeCredit_new p k new ⟨h1, h2⟩

include hold hnew in
theorem takeCredit_notNewer (h : (new + 4096 - p.ccumIn.getD k 0) % 4096 = 0 ∨ 2048 ≤ (new + 4096 - p.ccumIn.getD k 0) % 4096) : takeCredit p k new = p := by
  rw [← gap_counts hnew hold] at h
  exact takeCredit_old p k new (by omega)

include hcum hold hnew in
/-- A count that comes between two others changes nothing: the later one alone gives the same credits, so that it may be lost. -/
theorem takeCredit_skips (hcred : k < p.credits.length) {lost : Nat} (hlost : lost < 4096) (h2 : (new + 4096 - p.ccumIn.getD k 0) % 4096 ≤ 2047)
    (hle : (lost + 4096 - p.ccumIn.getD k 0) % 4096 ≤ (new + 4096 - p.ccumIn.getD k 0) % 4096) :
    takeCredit (takeCredit p k lost) k new = takeCredit p k new := by
  rcases Nat.eq_zero_or_pos ((lost + 4096 - p.ccumIn.getD k 0) % 4096) with h0 | h1
  · rw [takeCredit_notNewer hold hlost (.inl h0)]
  rw [takeCredit_newer hold hlost h1 (by omega), takeCredit_newer hold hnew (by omega) h2]
  have hin : (p.ccumIn.set k lost).getD k 0 = lost := getD_set_same _ _ _ hcum
  rcases Nat.eq_or_lt_of_le hle with heq | hlt
  · have hsame : lost = new := by omega
    subst hsame
    exact takeCredit_notNewer (by simpa only [hin] using hlost) hlost (.inl (by simp only [hin]; omega))
  · rw [takeCredit_newer (by simpa only [hin] using hlost) hnew (by simp only [hin]; omega) (by simp only [hin]; omega)]
    have hsum : ∀ c, c + (lost + 4096 - p.ccumIn.getD k 0) % 4096 + (new + 4096 - lost) % 4096 = c + (new + 4096 - p.ccumIn.getD k 0) % 4096 := by omega
    simp only [hin, getD_set_same _ _ _ hcred, List.set_set, hsum]

end TakeCredit

/-- A flit that asks for no replay leaves the port at its LNAK step (R70). -/
theorem takeLnak_none (s : State) (q : Nat) {f : Flit} (h : f.lnak = false) : takeLnak s q f = s := if_neg (by simp [h])

end Sys2Proof.Machine

section
open Sys2Proof Sys2Proof.Machine

/-- Settles O46: every flit sent is dressed with the lane's next pair of classes, and a count is judged by its distance from the last one taken. -/
theorem creditsAreReturnedAsCounts : Obligations.CreditsAreReturnedAsCounts := by
  unfold Obligations.CreditsAreReturnedAsCounts
  refine ⟨?sent, ?returned, ?received, ?taken⟩
  case sent =>
    rintro s l _ rfl hup hact hc hr
    obtain ⟨f, hf, hreport⟩ := transmitFlit_report hup hact hc hr
    have ⟨_, _, hA, hB⟩ := hreport
    refine ⟨_, f, rfl, hf, hA, hB, fun u hsent hupNext hactNext hcNext hrNext => ?_⟩
    obtain ⟨g, hg, hreportNext⟩ := transmitFlit_report hupNext hactNext hcNext hrNext
    exact ⟨_, g, rfl, hg, reports_all_classes hreport hsent hreportNext⟩
  case returned =>
    intro s q tc n htc
    rw [returnCredits_ccumOut]
    exact ⟨getD_set_same _ _ _ htc, fun k hk => getD_set_other _ _ _ hk⟩
  case received =>
    rintro s l _ f drained _ rfl rfl hup hact hrod hdamaged hgood hkind hlnak
    have hslot : passFlit s l false = passFlit s l f.damaged := by rw [hdamaged]
    rw [hslot] at hup hact hrod ⊢
    refine congrArg (fun u => Host.Outcome.next (settle u)) ((receiveFlit_good drained hup hact hrod hgood (by simp [hkind])).trans ?_)
    exact (if_pos hkind).trans (takeLnak_none _ _ hlnak)
  case taken =>
    rintro p k new _ hcred hcum hold hnew rfl
    constructor
    · intro h1 h2
      have htaken := takeCredit_newer hold hnew h1 h2
      refine ⟨?_, ?_, ?_, ?_⟩
      · rw [htaken]
        exact getD_set_same _ _ _ hcred
      · rw [htaken]
        exact getD_set_same _ _ _ hcum
      · intro j hj
        rw [htaken]
        exact getD_set_other _ _ _ hj
      · rintro lost _ hlost rfl hle
        exact takeCredit_skips hcum hold hnew hcred hlost h2 hle
    · exact takeCredit_notNewer hold hnew

end

/-! ### Commands on queues, the map and lanes

What each command does when nothing turns it away, and its row (O20). -/

namespace Sys2Proof.Machine

/-! ### What a command does to the state in which it runs -/

theorem setGate_accepted {u : State} (c : Caller) {q : Nat} {b : List Byte} (hq : q < 512) (hport : isLport u q = true) (hwell : gateWell b = true) :
    setGate u c q b =
      answerOk { u with queues := { u.queues with gatePending := tset u.queues.gatePending q (parseGate b) } } c mbSET_GATE_SCHEDULE [] := by
  simp only [setGate, hq.not_ge, hport, hwell, Bool.not_true, Bool.false_eq_true, if_false]

theorem setSession_accepted (u : State) (c : Caller) {a : TallySessionArgs} (hargs : sessionBad a = none) (hmask : a.anyMask < 32) :
    setSession u c a = answerOk { u with queues := { u.queues with sessions := tset u.queues.sessions a.session a } } c mbSET_TALLY_SESSION [] := by
  simp only [setSession, hargs, hmask.not_ge, if_false]

theorem readTally_accepted {u : State} (c : Caller) {n : Nat} (m : Nat) (hn : n < 4) (hexport : regField u (aTALLY_CFG n) 9 1 = 0) (hucie : ucieUp u n = true) :
    readTally u c n m =
      answerOk (consumeTally u n ((unreadRecords u n).take m).length) c mbREAD_TALLY (recordList ((unreadRecords u n).take m)) := by
  have hfree : ¬ (decide (regField u (aTALLY_CFG n) 9 1 = 1) || !ucieUp u n) = true := by simp [hexport, hucie]
  exact (if_neg hn.not_ge).trans (if_neg hfree)

/-- A proposal whose arguments are in range and whose records are laid out reaches the coordinator's own checks (R436). -/
theorem proposeMap_accepted {u : State} (c : Caller) {a : ProposeMapArgs} {comp : Composition} (hbase : a.base < 256) (hlow : 1 ≤ a.maxTransit)
    (hhigh : a.maxTransit ≤ 100) (hsome : a.records ≠ []) (hmany : a.records.length ≤ 8128) (hrecs : ∀ b ∈ a.records, recOk b = true)
    (hstaged : u.map.proposal = none) (hcoord : u.map.coord = none) (hepoch : a.base = u.map.epoch)
    (hcheck : checkRecs u (a.records.map parseRec) = .inl comp) (hgrace : graceRuns u = false) :
    proposeMap u c a = settle (propose u c a.maxTransit a.records comp) := by
  have hlaid : (a.records.findIdx? fun b => !recOk b) = none := List.findIdx?_eq_none_iff.mpr fun b hb => by rw [hrecs b hb, Bool.not_true]
  have htransit : ¬ (a.maxTransit = 0 ∨ 100 < a.maxTransit) := by omega
  have hcount : ¬ (a.records = [] ∨ 8128 < a.records.length) := not_or_intro hsome hmany.not_gt
  have hone : ¬ (u.map.proposal.isSome || u.map.coord.isSome) = true := by simp [hstaged, hcoord]
  simp only [proposeMap, if_neg hbase.not_ge, if_neg htransit, if_neg hcount, hlaid, if_neg hone, if_neg (not_not_intro hepoch), hcheck, hgrace,
    Bool.false_eq_true, if_false]

theorem queryMap_epochs (u : State) (c : Caller) (id : Nat) : queryMap u c 0 id = answerOk u c mbQUERY_MAP (mapEpochs u) := rfl

theorem queryMap_node {u : State} {c : Caller} {id : Nat} {e : NodeEntry} (he : tget u.map.comp.nodes id = some e) (hown : ownNode u c id = true) :
    queryMap u c 1 id = answerOk u c mbQUERY_MAP (mapNode u id e) := by
  simp only [queryMap, he, hown, if_true, one_ne_zero, if_false]

theorem queryMap_group {u : State} {c : Caller} {id : Nat} {g : Nat × List Nat} (hg : tget u.map.comp.groups id = some g)
    (hown : g.2.all (ownNode u c) = true) : queryMap u c 2 id = answerOk u c mbQUERY_MAP (mapGroup id g) := by
  simp only [queryMap, hg, hown, if_true, OfNat.ofNat_ne_zero, OfNat.ofNat_ne_one, if_false]

theorem setPortRole_accepted {u : State} (c : Caller) {q role : Nat} (hq : q < 512) (hrole : role ≤ 4) (hport : isLport u q = true)
    (hlock : writeLocked u (aLPORT_ROLE q) (BitVec.ofNat 32 role) = false) :
    setPortRole u c q role = answerOk
      (settle (afterWrite (setRegWord u (aLPORT_ROLE q) (BitVec.ofNat 32 role)) (aLPORT_ROLE q) (regWord u (aLPORT_ROLE q)) (lports u))) c mbSET_PORT_ROLE [] := by
  simp only [setPortRole, hq.not_ge, hrole.not_gt, hport, hlock, Bool.not_true, Bool.false_eq_true, if_false]

theorem commandRetire_inService {u : State} (c : Caller) {l : Nat} (hl : l < 512) (hin : (lane u l).retired = false) :
    commandRetire u c l =
      if isUp u (lportOfLane u l) ∧ (lane u l).active then
        answerOk (settle (retireLanes u (lportOfLane u l) (2 ^ (l - lportOfLane u l)) 6)) c mbRETIRE_LANE []
      else answerOk (settle (portAdvance (dropLanes u (lportOfLane u l) [l] 6) (lportOfLane u l))) c mbRETIRE_LANE [] :=
  (if_neg hl.not_ge).trans (if_neg (by simp [hin]))

theorem commandRetrain_idle {u : State} (c : Caller) {l : Nat} (hl : l < 512) (hretired : (lane u l).retired = true) (hidle : (lane u l).retrain = .idle) :
    commandRetrain u c l = answerOk (retrainLane u l) c mbRETRAIN_LANE [] :=
  (if_neg hl.not_ge).trans (if_pos ⟨hretired, hidle⟩)

theorem commandRelease_held {u : State} (c : Caller) {q : Nat} (hq : q < 512) (hport : isLport u q = true) (hheld : (lport u q).state = .held) :
    commandRelease u c q = answerOk (releaseHold u q) c mbRELEASE_FLAP_HOLD [] :=
  (if_neg hq.not_ge).trans ((if_neg (by simp [hport])).trans (if_pos hheld))

/-- A command let go that replaces queue state and is answered: its answer is given, and memory and packets stay. -/
theorem answerOk_newQueues {s : State} {c : Caller} {op : Nat} {jobs : List Nat} (h : gate s c op jobs = .go) (x : Queues) (result : List Byte) :
    AnsweredOk (answerOk { startCmd s c with queues := x } c op result) c op result ∧
      (answerOk { startCmd s c with queues := x } c op result).queues = x ∧
      (answerOk { startCmd s c with queues := x } c op result).pool = s.pool ∧ (answerOk { startCmd s c with queues := x } c op result).net = s.net :=
  ⟨answerOk_of_gate h (startCmd_supply s c) rfl rfl, answerOk_queues _ _ _ _, answerOk_pool _ _ _ _, answerOk_net _ _ _ _⟩

/-- A row that is a command's body behind the gate, which lets it go. -/
theorem next_mboxRun_go {s t : State} {c : Caller} {op : Nat} {jobs : List Nat} {body : State → State} (h : gate s c op jobs = .go)
    (hbody : body (startCmd s c) = t) : (Host.Outcome.next (mboxRun s c op jobs body) : Host.Outcome State Fault Refusal) = .next t :=
  congrArg Host.Outcome.next ((mboxRun_go body h).trans hbody)

end Sys2Proof.Machine

section
open Sys2Proof Sys2Proof.Machine

/-- Settles O20: each command that the gate lets go runs in `startCmd s c`, where its checks pass and its own lemma gives the effect. -/
theorem queueMapAndLaneCommandsComplete : Obligations.QueueMapAndLaneCommandsComplete := by
  unfold Obligations.QueueMapAndLaneCommandsComplete
  rintro s _ c rfl
  refine ⟨?schedule, ?session, ?tally, ?propose, ?query, ?role, ?drain, ?retire, ?retrain, ?release⟩
  case schedule =>
    intro q b hg hq hport hwell
    exact ⟨_, next_mboxRun_go hg (setGate_accepted c hq hport hwell), answerOk_newQueues hg _ []⟩
  case session =>
    intro a hg hargs hmask
    exact ⟨_, next_mboxRun_go hg (setSession_accepted _ c hargs hmask), answerOk_newQueues hg _ []⟩
  case tally =>
    intro n m hg hn hexport hucie
    exact next_mboxRun_go hg (readTally_accepted c m hn hexport hucie)
  case propose =>
    intro a comp hg hbase hlow hhigh hsome hmany hrecs hstaged hcoord hepoch hcheck hgrace
    exact next_mboxRun_go hg (proposeMap_accepted c hbase hlow hhigh hsome hmany hrecs hstaged hcoord hepoch hcheck hgrace)
  case query =>
    intro id hg
    refine ⟨next_mboxRun_go hg (queryMap_epochs _ c id), ?_, ?_⟩
    · intro e he hown
      exact next_mboxRun_go hg (queryMap_node he hown)
    · intro g hgroup hown
      exact next_mboxRun_go hg (queryMap_group hgroup hown)
  case role =>
    intro q role hg hq hrole hport hlock
    exact next_mboxRun_go hg (setPortRole_accepted c hq hrole hport hlock)
  case drain =>
    intro hg hstays
    exact next_mboxRun_go hg (if_neg (by simp [hstays]))
  case retire =>
    intro l hg hl hin
    exact next_mboxRun_go hg (commandRetire_inService c hl hin)
  case retrain =>
    intro l hg hl hretired hidle
    exact next_mboxRun_go hg (commandRetrain_idle c hl hretired hidle)
  case release =>
    intro q hg hq hport hheld
    exact next_mboxRun_go hg (commandRelease_held c hq hport hheld)

end

/-! ### Ports that train, come up and are disabled

The phases of a port from DISABLED to UP and back (O24): what each event does when its conditions hold, in the order of R56. -/

namespace Sys2Proof.Machine

/-! ### LPORT_ENABLE (R56, R79) -/

theorem enablePort_disabled {s : State} {q : Nat} (hport : isLport s q = true) (hon : portEnabled s q = true) (hstate : (lport s q).state = .disabled)
    (hopen : s.links.open_ = true) (hrod : rodOut s q = false) : enablePort s q = toWaitAdmit s q :=
  if_pos (by simp [hport, hon, hstate, hopen, hrod])

theorem cfgActs_notEnabled {s : State} {q : Nat} (hport : isLport s q = true) (hoff : portEnabled s q = false) : cfgActs s q = disablePort s q :=
  if_pos (by simp [hport, hoff])

theorem disablePort_up {s : State} {q : Nat} (hstate : (lport s q).state = .up) (hnot : (lport s q).draining = none) :
    disablePort s q = modLport s q fun p => { p with ctl := p.ctl ++ [[4, 0]], draining := some s.now } := by
  simp only [disablePort, hstate, hnot, Option.isSome_none, Bool.false_eq_true, if_false]

theorem disablePort_notUp {s : State} {q : Nat} (hstate : (lport s q).state ∈ [PortState.waitAdmit, .training, .lock, .hello, .down]) :
    disablePort s q = toState (clearLink s q) q .disabled := by
  unfold disablePort
  cases h : (lport s q).state <;> simp only [h, List.mem_cons, List.not_mem_nil, reduceCtorEq, or_self] at hstate ⊢

theorem disableEnd_drained {s : State} {q : Nat} {t : Ns} (hdrain : (lport s q).draining = some t)
    (hover : (lport s q).replay = [] ∧ (lport s q).ctl = [] ∨ due s t (us 10) = true) : disableEnd s q = enablePort (leaveUp s q .disabled) q := by
  simp only [disableEnd, hdrain]
  exact if_pos hover

/-! ### Training (R56, R57) -/

/-- The first request that still waits is a port's, and 125 µs have passed since the last start. -/
theorem grantStart_port {s : State} {x : StartReq} (hopen : s.links.open_ = true) (hlast : ∀ t, s.links.lastStart = some t → due s t (us 125) = true)
    (hfirst : s.links.starts.find? (startWaits s) = some x) (hport : x.lane = none) :
    grantStart s = startTraining { s with links := { s.links with starts := s.links.starts.erase x, lastStart := some s.now } } x.lport := by
  unfold grantStart
  cases h : s.links.lastStart with
  | none => simp only [hopen, hfirst, hport, Bool.not_true, Bool.or_self, Bool.false_eq_true, if_false]
  | some t => simp only [hopen, hlast t h, hfirst, hport, Bool.not_true, Bool.or_self, Bool.false_eq_true, if_false]

theorem portAdvance_training {s : State} {q : Nat} (h : (lport s q).state = .training) :
    portAdvance s q =
      if (liveLanes s q).all fun x => (lane s x).ready then
        modLport (toState s q .lock) q fun p => { p with precodeOn := (liveLanes s q).any fun x => (lane s x).precode }
      else s := by
  simp only [portAdvance, h]

theorem portAdvance_lock {s : State} {q : Nat} (h : (lport s q).state = .lock) :
    portAdvance s q = if (liveLanes s q).all fun x => (lane s x).locked then toState s q .hello else s := by
  simp only [portAdvance, h]

theorem portAdvance_hello {s : State} {q : Nat} (h : (lport s q).state = .hello) :
    portAdvance s q = if (liveLanes s q).all fun x => x ∈ agreeing s q then helloOver s q else s := by
  simp only [portAdvance, h]

theorem receiverReady_training {s : State} {l : Nat} (precode : Bool) (hstate : (lport s (lportOfLane s l)).state = .training)
    (hlive : (lane s l).retired = false) :
    receiverReady s l precode = portAdvance (setLane s l { lane s l with
      ready := true, precode := precode && decide (regField s (aPORT_CFG (nativeOf (lportOfLane s l))) 3 1 = 1) }) (lportOfLane s l) :=
  if_pos (by simp [hstate, hlive])

theorem trainingTimeout_due {s : State} {q : Nat} (hstate : (lport s q).state = .training) (hdue : due s (lport s q).since (ms 500) = true) :
    trainingTimeout s q = addStart (goDown s q 0) { lport := q, late := true } :=
  (if_pos hstate).trans (if_pos hdue)

theorem flitLock_lock {s : State} {l : Nat} (hstate : (lport s (lportOfLane s l)).state = .lock) (hlive : (lane s l).retired = false) :
    flitLock s l =
      portAdvance (setLane s l { lane s l with locked := true, place := 0, badFirst := false, badSecond := false }) (lportOfLane s l) :=
  if_pos (by simp [hstate, hlive])

/-! ### HELLO (R58) -/

theorem sendHello_due {s : State} {l : Nat} (hhello : inHello s l = true) (hdue : due s (lane s l).lastHello (us 1) = true) :
    sendHello s l =
      let v := setLane s l { lane s l with lastHello := s.now }
      let f : Flit := { fkind := 3, pend := 32, txlane := l - lportOfLane s l, payload := helloBytes (helloOf s l) }
      { v with links := { v.links with lastTx := tset v.links.lastTx l (sealFlit f) } } :=
  if_pos (by rw [hhello, hdue, Bool.and_self])

/-- A well-formed HELLO with enough credits, on a port in HELLO. -/
theorem takeHello_wellFormed {s : State} {l : Nat} {h : Hello} (hstate : (lport s (lportOfLane s l)).state = .hello) (hhello : inHello s l = true)
    (hwell : helloWell h = true) (hcredits : 65 ≤ leastCredit h) :
    takeHello s l h = portAdvance (modLport (setLane s l { lane s l with hello := some h }) (lportOfLane s l) fun p => { p with partnerReady := h.ready })
      (lportOfLane s l) := by
  have hnotUp : isUp s (lportOfLane s l) = false := by simp [isUp, hstate]
  simp only [takeHello, hwell, hnotUp, hhello, hcredits.not_gt, Bool.not_true, Bool.false_and, Bool.false_eq_true, if_false]

theorem helloTimeout_due {s : State} {q : Nat} (hstate : (lport s q).state = .hello) (hdue : due s (lport s q).since (ms 10) = true) :
    helloTimeout s q = helloOver s q :=
  (if_pos hstate).trans (if_pos hdue)

/-! ### Back-off (R78) -/

theorem backoffOver_due {s : State} {q : Nat} (hstate : (lport s q).state = .down) (hdue : due s (lport s q).since (ms (lport s q).backoff) = true)
    (hrod : rodOut s q = false) (hon : portEnabled s q = true) (hcalm : flapping (lport s q) = false) :
    backoffOver s q = toWaitAdmit (setLport s q { lport s q with backoff := min 1024 (2 * (lport s q).backoff) }) q := by
  have hover : (lport s q).state = .down ∧ due s (lport s q).since (ms (lport s q).backoff) = true ∧ (!rodOut s q) = true :=
    ⟨hstate, hdue, by rw [hrod, Bool.not_false]⟩
  exact (if_pos hover).trans ((if_neg (by simp [hon])).trans (if_neg (by simp [hcalm])))

end Sys2Proof.Machine

section
open Sys2Proof Sys2Proof.Machine

/-- Settles O24: in the phase that its conditions name, each event takes the branch that its own lemma states, and its row answers with that state. -/
theorem portsTrainAndComeUp : Obligations.PortsTrainAndComeUp := by
  unfold Obligations.PortsTrainAndComeUp
  intro s q l
  refine ⟨?written, ?enable, ?disable, ?drained, ?grant, ?ready, ?trainingTimeout, ?lock, ?send, ?receive, ?helloTimeout, ?backoff, ?reset⟩
  case written =>
    intro hport
    exact ⟨congrArg Host.Outcome.next (if_pos hport), congrArg Host.Outcome.next (if_pos hport)⟩
  case enable => exact enablePort_disabled
  case disable =>
    intro hport hoff
    have hacts := cfgActs_notEnabled hport hoff
    exact ⟨fun hup hnot => hacts.trans (disablePort_up hup hnot), fun hstate => hacts.trans (disablePort_notUp hstate)⟩
  case drained =>
    intro t hdrain hover
    exact congrArg (fun u => Host.Outcome.next (settle u)) (disableEnd_drained hdrain hover)
  case grant =>
    intro x hopen hlast hfirst hport
    exact congrArg Host.Outcome.next (grantStart_port hopen hlast hfirst hport)
  case ready =>
    rintro precode _ rfl hstate hlive rfl
    exact congrArg Host.Outcome.next ((receiverReady_training precode hstate hlive).trans (portAdvance_training hstate))
  case trainingTimeout =>
    intro hstate hdue
    exact congrArg (fun u => Host.Outcome.next (settle u)) (trainingTimeout_due hstate hdue)
  case lock =>
    rintro _ rfl hstate hlive rfl
    exact congrArg Host.Outcome.next ((flitLock_lock hstate hlive).trans (portAdvance_lock hstate))
  case send =>
    rintro _ hhello hdue rfl
    exact congrArg Host.Outcome.next (sendHello_due hhello hdue)
  case receive =>
    rintro h _ rfl hstate hhello hwell hcredits rfl
    refine congrArg (fun u => Host.Outcome.next (settle u)) ((takeHello_wellFormed hstate hhello hwell hcredits).trans (portAdvance_hello ?_))
    rw [lport_modLport_same]
    exact hstate
  case helloTimeout =>
    intro hstate hdue
    exact congrArg (fun u => Host.Outcome.next (settle u)) (helloTimeout_due hstate hdue)
  case backoff =>
    intro hstate hdue hrod hon hcalm
    exact congrArg Host.Outcome.next (backoffOver_due hstate hdue hrod hon hcalm)
  case reset =>
    intro hup hdue
    exact congrArg Host.Outcome.next (if_pos ⟨hup, hdue⟩)

end

/-! ### Bring-up

The phases of bring-up to READY and the port plan (O36): what each event does when its conditions hold, in the order of R527. -/

namespace Sys2Proof.Machine

/-! ### RAILS and ROM (R516, R525, R527, R528) -/

theorem beginBringup_held {s : State} {t : Ns} (hhigh : s.supply.highSince = some t) (hmay : mayStart s = true) (hdue : due s t (us 200) = true) :
    beginBringup s = startBringup s := by
  simp only [beginBringup, hhigh, hmay, hdue, Bool.and_self, if_true]

/-- RESET_EVT aside, only the supply block changes when bring-up starts. -/
theorem startBringup_supply (s : State) :
    (startBringup s).supply = { s.supply with phase := 1, time0 := s.now, highSince := none, resetPulse := false } := by
  unfold startBringup
  split <;> rfl

theorem railsUp_rails {s : State} (h : s.supply.phase = 1) :
    railsUp s = modSupply s fun x => { x with
      rails := (List.range 9).foldl (fun t i => tset t i { tgetD t i {} with on := true, inReg := true }) x.rails, pwrGood := true, phase := 2 } :=
  if_neg (not_not_intro h)

theorem restorePlan_once {s : State} (hphase : s.supply.phase = 2) (honce : s.supply.planSettled = false) :
    restorePlan s =
      modSupply ((s.supply.plan.getD []).foldl (fun st (e : Nat × Word) => setRegWord st e.1 e.2) s) fun x => { x with planSettled := true } :=
  if_neg (by simp [hphase, honce])

/-- BOOT_ID and the KEM key of this boot, as phase ROM draws them (R416). -/
def bootDrawn (s : State) : State :=
  let v := (drawFree (drawFree s).2).2
  { v with ten := { v.ten with bootId := le 16 (drawFree s).1, kemKey := (drawFree (drawFree s).2).1 } }

theorem romEnds_settled {s : State} (hphase : s.supply.phase = 2) (hplan : s.supply.planSettled = true) :
    romEnds s = restoreLogs (modSupply (bootDrawn s) fun x => { x with phase := 3 }) :=
  if_neg (by simp [hphase, hplan])

/-- Taking over the saved logs leaves the supply block, the tenants' block and the pool. -/
theorem restoreLogs_keeps (s : State) : (restoreLogs s).supply = s.supply ∧ (restoreLogs s).ten = s.ten ∧ (restoreLogs s).pool = s.pool := by
  unfold restoreLogs
  split
  · exact ⟨rfl, rfl, rfl⟩
  · split
    · exact ⟨rfl, rfl, rfl⟩
    · exact ⟨event_supply _ _ _ _ _ _ _, event_ten _ _ _ _ _ _ _, event_pool _ _ _ _ _ _ _⟩

/-! ### IMAGE and MEMORY (R513, R527) -/

theorem imageChecked_verifies {s : State} (hphase : s.supply.phase = 3) (hrom : s.rkn.dvorro = .rom) (hgood : imageError s.rkn.flash.bytes = 0) :
    imageChecked s = tellFlush (drainEvents { s with
      rkn := { s.rkn with dvorro := .running, running := imageOf s.rkn.flash.bytes }, supply := { s.supply with imageDone := true, phase := 4 } }) :=
  (if_neg (by simp [hphase, hrom])).trans (if_neg (not_not_intro hgood))

theorem imageChecked_fails {s : State} (hphase : s.supply.phase = 3) (hrom : s.rkn.dvorro = .rom) (hbad : imageError s.rkn.flash.bytes ≠ 0) :
    imageChecked s = { s with rkn := { s.rkn with dvorro := .fetch } } :=
  (if_neg (by simp [hphase, hrom])).trans (if_pos hbad)

theorem memoryUp_memory {s : State} (failed : List (UnitKind × Nat)) (h : s.supply.phase = 4) :
    memoryUp s failed = failed.foldl (fun st (e : UnitKind × Nat) => failUnit st e.1 e.2 4)
      { s with supply := { s.supply with memoryDone := true, phase := if s.supply.linksDone then 6 else 5 } } :=
  if_neg (not_not_intro h)

/-! ### LINKS and MAP (R57, R527, R529) -/

theorem startLinks_due {s : State} (hphase : 1 ≤ s.supply.phase) (hplan : s.supply.planSettled = true) (hdue : due s s.supply.time0 (ms 120) = true)
    (hnew : s.links.open_ = false) :
    startLinks s = (List.range 64).foldl enablePorts { s with links := { s.links with open_ := true } } :=
  if_neg (by simp [Nat.ne_of_gt hphase, hplan, hdue, hnew])

theorem linksUp_settled {s : State} (hopen : s.links.open_ = true) (hports : (lports s).all (portSettled s) = true) :
    linksUp s = { s with supply := { s.supply with linksDone := true, phase := if s.supply.phase = 5 then 6 else s.supply.phase } } :=
  if_pos (by rw [hopen, hports, Bool.and_self])

/-- Phase MAP has begun: its time is noted, and whether a SWITCH port is UP decides. -/
theorem startMap_begins {s : State} (hphase : s.supply.phase = 6) (hnew : s.supply.mapSince = none) :
    startMap s =
      let v := { s with supply := { s.supply with mapSince := some s.now } }
      if switchPorts v = [] then endUnjoined v else pullSnapshot v :=
  if_neg (by simp [hphase, hnew])

theorem mapTimeout_due {s : State} {t : Ns} (hsince : s.supply.mapSince = some t) (hphase : s.supply.phase = 6) (hdue : due s t (ms 500) = true)
    (hnone : s.map.comp.nodes = []) : mapTimeout s = endUnjoined s := by
  simp only [mapTimeout, hsince]
  exact if_pos ⟨hphase, hdue, hnone⟩

/-! ### The hold-up store, READY and the saved plan (R517, R528, R530) -/

theorem storeCharged_enough {s : State} {c : Nat} (hphase : 2 ≤ s.supply.phase) (hnew : s.supply.holdupReady = false) (henough : 1000 ≤ c) :
    storeCharged s c = { s with supply := { s.supply with holdupReady := true, capUf := min 65535 c } } :=
  (if_neg (by simp [hphase.not_gt, hnew])).trans (if_pos henough)

theorem becomeReady_complete {s : State} (hphase : s.supply.phase = 7) (hnew : s.supply.ready = false) (hstore : s.supply.holdupReady = true)
    (hruns : s.rkn.dvorro = .running) (hidle : s.spares.switching = []) :
    becomeReady s = startAttestKey (event
      { s with supply := { s.supply with ready := true, readyMs := (s.now - s.supply.time0) / ms 1 % 2 ^ 32 } }
      eBOOT sevINFO 0 0 ((s.now - s.supply.time0) / ms 1) s.rkn.running.version) :=
  if_neg (by simp [hphase, hnew, hstore, hruns, hidle])

theorem savePlan_due {s : State} {t : Ns} (hplan : s.supply.planDue = some t) (hdue : due s t (ms 10000) = true) (hruns : s.rkn.dvorro = .running) :
    savePlan s = { s with supply := { s.supply with plan := some (planRegs.map fun a => (a, regWord s a)), planDue := none } } := by
  simp only [savePlan, hplan]
  exact if_pos ⟨hdue, hruns⟩

end Sys2Proof.Machine

section
open Sys2Proof Sys2Proof.Machine

/-- Settles O36: in its phase each event takes the branch that its own lemma states, and its row answers with that state. -/
theorem bringUpPhasesAct : Obligations.BringUpPhasesAct := by
  unfold Obligations.BringUpPhasesAct
  intro s
  refine ⟨?start, ?rails, ?restore, ?rom, ?image, ?memory, ?linksStart, ?linksDone, ?mapAlone, ?mapPull, ?mapTimeout, ?charged, ?ready, ?save⟩
  case start =>
    intro t hhigh hmay hdue
    refine ⟨congrArg Host.Outcome.next (beginBringup_held hhigh hmay hdue), _, rfl, ?_⟩
    rw [startBringup_supply]
    exact ⟨rfl, rfl, rfl⟩
  case rails =>
    intro hphase
    exact ⟨_, congrArg Host.Outcome.next (railsUp_rails hphase), rfl, rfl, rfl, rfl⟩
  case restore =>
    intro hphase honce
    exact ⟨_, congrArg Host.Outcome.next (restorePlan_once hphase honce), rfl, rfl⟩
  case rom =>
    intro hphase hplan
    obtain ⟨hsupply, hten, hpool⟩ := restoreLogs_keeps (modSupply (bootDrawn s) fun x => { x with phase := 3 })
    exact ⟨_, congrArg Host.Outcome.next (romEnds_settled hphase hplan), congrArg Supply.phase hsupply, congrArg Tenants.bootId hten, hpool⟩
  case image =>
    intro hphase hrom
    exact ⟨fun hgood => congrArg Host.Outcome.next (imageChecked_verifies hphase hrom hgood),
      fun hbad => congrArg Host.Outcome.next (imageChecked_fails hphase hrom hbad)⟩
  case memory =>
    intro failed hphase
    exact congrArg (fun u => Host.Outcome.next (settle u)) (memoryUp_memory failed hphase)
  case linksStart =>
    intro hphase hplan hdue hnew
    exact congrArg Host.Outcome.next (startLinks_due hphase hplan hdue hnew)
  case linksDone =>
    intro hopen hports
    exact congrArg Host.Outcome.next (linksUp_settled hopen hports)
  case mapAlone =>
    intro hphase hnew hnone
    exact congrArg Host.Outcome.next ((startMap_begins hphase hnew).trans (if_pos hnone))
  case mapPull =>
    intro hphase hnew hsome
    exact congrArg Host.Outcome.next ((startMap_begins hphase hnew).trans (if_neg hsome))
  case mapTimeout =>
    intro t hsince hphase hdue hnone
    exact congrArg Host.Outcome.next (mapTimeout_due hsince hphase hdue hnone)
  case charged =>
    intro c hphase hnew henough
    exact congrArg Host.Outcome.next (storeCharged_enough hphase hnew henough)
  case ready =>
    intro hphase hnew hstore hruns hidle
    exact congrArg Host.Outcome.next (becomeReady_complete hphase hnew hstore hruns hidle)
  case save =>
    intro t hplan hdue hruns
    exact congrArg Host.Outcome.next (savePlan_due hplan hdue hruns)

end

/-! ### The resequencer

Order, holding and refusal in a flow's context (O49), and the contexts themselves (O50). -/

namespace Sys2Proof.Machine

/-! ### The held packets that follow the one delivered (R111) -/

/-- The context `x`, whose NEXT is `n`, delivers `rest` of its held packets, in sequence from NEXT, and is left as `y`, where none is the next one. -/
structure Drained (n : Nat) (x : Reseq) (rest : List Req) (y : Reseq) : Prop where
  perm : (rest ++ y.held).Perm x.held
  sequence : rest.map (·.pkt.fseq) = (List.range rest.length).map fun i => (n + i) % 65536
  context : y = { x with next := (n + rest.length) % 65536, held := y.held }
  noneNext : ∀ h ∈ y.held, h.pkt.fseq ≠ (n + rest.length) % 65536

/-- A context that does not hold its next packet delivers none. -/
theorem drained_nil {n : Nat} {x : Reseq} (hnext : x.next = n % 65536) (hnone : ∀ h ∈ x.held, h.pkt.fseq ≠ x.next) : Drained n x [] x where
  perm := .refl _
  sequence := rfl
  context := by simp [← hnext]
  noneNext := by simpa [← hnext] using hnone

/-- A held packet that is the next one goes first, and the rest follow it. -/
theorem Drained.cons {n : Nat} {x y : Reseq} {r : Req} {rest : List Req} (hr : r ∈ x.held) (hnext : r.pkt.fseq = n % 65536)
    (h : Drained (n + 1) { x with next := (n + 1) % 65536, held := x.held.erase r } rest y) : Drained n x (r :: rest) y where
  perm := (h.perm.cons r).trans (List.perm_cons_erase hr).symm
  sequence := by
    simp only [List.map_cons, List.length_cons, List.range_succ_eq_map, List.map_map, hnext, h.sequence, Nat.add_zero, List.cons.injEq, true_and]
    exact List.map_congr_left fun i _ => congrArg (· % 65536) (by omega)
  context := by
    rw [List.length_cons, ← Nat.add_assoc, Nat.add_right_comm]
    exact h.context
  noneNext := by
    rw [List.length_cons, ← Nat.add_assoc, Nat.add_right_comm]
    exact h.noneNext

/-- With fuel for every held packet, all that are in sequence are delivered. -/
theorem drainHeld_drained {n fuel : Nat} {x : Reseq} (hnext : x.next = n % 65536) (hfuel : x.held.length ≤ fuel) :
    Drained n x (drainHeld fuel x).1 (drainHeld fuel x).2 := by
  induction fuel generalizing n x with
  | zero =>
    have hnil : x.held = [] := List.length_eq_zero_iff.mp (Nat.le_zero.mp hfuel)
    exact drained_nil hnext (by simp [hnil])
  | succ fuel ih =>
    rw [drainHeld]
    split
    · rename_i r hfind
      have hr : r ∈ x.held := List.mem_of_find?_eq_some hfind
      have hseq : r.pkt.fseq = n % 65536 := by simpa [hnext] using List.find?_some hfind
      have hstep : (x.next + 1) % 65536 = (n + 1) % 65536 := by omega
      rw [hstep]
      exact (ih rfl (by rw [List.length_erase_of_mem hr]; omega)).cons hr hseq
    · rename_i hfind
      exact drained_nil hnext (by simpa using List.find?_eq_none.mp hfind)

/-! ### A packet by its distance from NEXT (R111) -/

theorem gap_sixteen {a b : Nat} (ha : a < 65536) (hb : b < 65536) : gap 16 a b = (a + 65536 - b) % 65536 := by
  simp only [gap, Nat.reducePow, Nat.mod_eq_of_lt ha, Nat.mod_eq_of_lt hb]

section Distance

variable {s : State} {k : Nat × Nat × Nat × Nat} {x : Reseq} {r : Req}

theorem orderIn_next (h : gap 16 r.pkt.fseq x.next = 0) :
    orderIn s k x r = (.deliver r (drainHeld x.held.length { x with next := (x.next + 1) % 65536, lastAt := s.now }).1,
      setReseq s k (drainHeld x.held.length { x with next := (x.next + 1) % 65536, lastAt := s.now }).2) :=
  if_pos h

theorem orderIn_far (h : 256 ≤ gap 16 r.pkt.fseq x.next) (h' : gap 16 r.pkt.fseq x.next ≤ 32767) :
    orderIn s k x r = (.refuse kRESEQ_WINDOW, setReseq s k { x with lastAt := s.now }) := by
  have hnext : gap 16 r.pkt.fseq x.next ≠ 0 := by omega
  exact (if_neg hnext).trans ((if_neg (Nat.not_le.mpr h)).trans (if_pos h'))

theorem orderIn_delivered (h : 32768 ≤ gap 16 r.pkt.fseq x.next) : orderIn s k x r = (.deliver r [], setReseq s k { x with lastAt := s.now }) := by
  have hnext : gap 16 r.pkt.fseq x.next ≠ 0 := by omega
  have hahead : ¬ gap 16 r.pkt.fseq x.next ≤ 255 := by omega
  exact (if_neg hnext).trans ((if_neg hahead).trans (if_neg (Nat.not_le.mpr h)))

section Ahead

variable (h : 1 ≤ gap 16 r.pkt.fseq x.next) (h' : gap 16 r.pkt.fseq x.next ≤ 255)
include h h'

theorem orderIn_heldCopy (hcopy : ∃ y ∈ x.held, y.pkt.fseq = r.pkt.fseq) : orderIn s k x r = (.hold, setReseq s k { x with lastAt := s.now }) :=
  (if_neg (Nat.ne_zero_of_lt h)).trans ((if_pos h').trans (if_pos (by simpa using hcopy)))

variable (hnew : ∀ y ∈ x.held, y.pkt.fseq ≠ r.pkt.fseq)
include hnew

theorem orderIn_room (hroom : reseqUsed s k.1 + cellsOf r.pkt ≤ reseqCells s k.1) :
    orderIn s k x r = (.hold, setReseq s k { x with held := x.held ++ [r], lastAt := s.now }) :=
  (if_neg (Nat.ne_zero_of_lt h)).trans ((if_pos h').trans ((if_neg (by simpa using hnew)).trans (if_neg hroom.not_gt)))

theorem orderIn_noRoom (hfull : reseqCells s k.1 < reseqUsed s k.1 + cellsOf r.pkt) :
    orderIn s k x r = (.refuse kRESEQ_WINDOW, setEvt (setReseq s k { x with lastAt := s.now }) (aQUEUE_CFG k.1) 27) :=
  (if_neg (Nat.ne_zero_of_lt h)).trans ((if_pos h').trans ((if_neg (by simpa using hnew)).trans (if_pos hfull)))

end Ahead

/-- Whatever becomes of the packet, its context alone is written. -/
theorem orderIn_reseq : ∃ y, (orderIn s k x r).2.net.reseq = tset s.net.reseq k y := by
  unfold orderIn
  dsimp only
  repeat' split
  all_goals exact ⟨_, rfl⟩

end Distance

end Sys2Proof.Machine

section
open Sys2Proof Sys2Proof.Machine

/-- Settles O49: the distance is `gap` of FSEQ and NEXT, and each range of it is one branch of `orderIn`; what is delivered with distance 0 is `Drained`. -/
theorem resequencerDeliversInOrder : Obligations.ResequencerDeliversInOrder := by
  unfold Obligations.ResequencerDeliversInOrder
  intro s k x r d hseq hnext hd
  rw [← gap_sixteen hseq hnext] at hd
  subst hd
  refine ⟨?next, ?ahead, orderIn_far, orderIn_delivered⟩
  case next =>
    intro h
    have hdrained := drainHeld_drained (n := x.next + 1) (x := { x with next := (x.next + 1) % 65536, lastAt := s.now }) rfl le_rfl
    refine ⟨_, _, (orderIn_next h).trans ?_, hdrained.perm, hdrained.sequence, hdrained.noneNext⟩
    exact congrArg (fun y => (Order.deliver r _, setReseq s k y)) hdrained.context
  case ahead =>
    intro h h'
    exact ⟨orderIn_heldCopy h h', orderIn_room h h', fun hnew hfull => congrArg Prod.fst (orderIn_noRoom h h' hnew hfull)⟩

end

/-! ### The contexts of the resequencer

When one is made and when it goes (O50). -/

namespace Sys2Proof.Machine

/-! ### The keys of a table -/

section Keys

variable {κ α : Type} [DecidableEq κ]

theorem keys_tset_of_mem {t : Table κ α} {k : κ} (a : α) (h : k ∈ t.map Prod.fst) : (tset t k a).map Prod.fst = t.map Prod.fst := by
  induction t with
  | nil => cases h
  | cons e r ih =>
    obtain ⟨j, b⟩ := e
    by_cases hj : j = k
    · simp [tset, hj]
    · have hr : k ∈ r.map Prod.fst := (List.mem_cons.mp h).resolve_left (Ne.symm hj)
      simp only [tset, if_neg hj, List.map_cons, ih hr]

theorem keys_tset_of_not_mem {t : Table κ α} {k : κ} (a : α) (h : k ∉ t.map Prod.fst) : (tset t k a).map Prod.fst = t.map Prod.fst ++ [k] := by
  induction t with
  | nil => rfl
  | cons e r ih =>
    obtain ⟨j, b⟩ := e
    obtain ⟨hj, hr⟩ := not_or.mp (mt List.mem_cons.mpr h)
    simp only [tset, if_neg (Ne.symm hj), List.map_cons, ih hr, List.cons_append]

end Keys

/-! ### A packet and the contexts of its flow (R112; log entry 34) -/

/-- How many contexts a quarter has is a matter of their keys. -/
theorem reseqIn_length (s : State) (n : Nat) : (reseqIn s n).length = ((s.net.reseq.map Prod.fst).filter fun k => k.1 = n).length := by
  rw [reseqIn, List.filter_map, List.length_map]
  rfl

section Flow

variable {s : State} {n : Nat} {r : Req}

theorem mem_keys_of_reseqKey {p : Packet} {k : Nat × Nat × Nat × Nat} (h : reseqKey s p = some k) : k ∈ s.net.reseq.map Prod.fst := by
  obtain ⟨e, hfind, rfl⟩ := Option.map_eq_some_iff.mp h
  exact List.mem_map_of_mem (List.mem_of_find?_eq_some hfind)

theorem not_mem_keys_of_reseqKey {p : Packet} (h : reseqKey s p = none) (m : Nat) : (m, p.src, p.dst, p.flow) ∉ s.net.reseq.map Prod.fst := by
  have hnone := List.find?_eq_none.mp (Option.map_eq_none_iff.mp h)
  intro hmem
  obtain ⟨e, he, hkey⟩ := List.mem_map.mp hmem
  exact hnone e he (by simp [hkey])

theorem resequence_found {k : Nat × Nat × Nat × Nat} (h : reseqKey s r.pkt = some k) :
    resequence s n r = orderIn s k (tgetD s.net.reseq k { next := r.pkt.fseq }) r := by
  simp only [resequence, h]

section NoContext

variable (h : reseqKey s r.pkt = none)
include h

theorem resequence_refused (hno : hasFlag r.pkt fFHEAD = false ∨ 65536 ≤ (reseqIn s n).length) : resequence s n r = (.refuse kRESEQ_NO_CONTEXT, s) := by
  simp only [resequence, h]
  exact if_pos (by simpa using hno)

theorem resequence_created (hhead : hasFlag r.pkt fFHEAD = true) (hfree : (reseqIn s n).length < 65536) :
    resequence s n r = orderIn s (n, r.pkt.src, r.pkt.dst, r.pkt.flow) { next := r.pkt.fseq } r := by
  simp only [resequence, h]
  exact if_neg (by simp [hhead, hfree])

end NoContext

/-- A new context's first packet is in order. -/
theorem orderIn_first (s : State) (k : Nat × Nat × Nat × Nat) (r : Req) :
    orderIn s k { next := r.pkt.fseq } r = (.deliver r [], setReseq s k { next := (r.pkt.fseq + 1) % 65536, lastAt := s.now }) :=
  orderIn_next (by simp only [gap]; omega)

/-- A packet of a flow with a context makes none; without one it makes at most one, in its quarter, where fewer than 65,536 stand. -/
theorem resequence_keys (s : State) (n : Nat) (r : Req) :
    (resequence s n r).2.net.reseq.map Prod.fst = s.net.reseq.map Prod.fst ∨
    (reseqIn s n).length < 65536 ∧
      (resequence s n r).2.net.reseq.map Prod.fst = s.net.reseq.map Prod.fst ++ [(n, r.pkt.src, r.pkt.dst, r.pkt.flow)] := by
  cases hkey : reseqKey s r.pkt with
  | some k =>
    left
    rw [resequence_found hkey]
    obtain ⟨y, hy⟩ := orderIn_reseq (s := s) (k := k) (x := tgetD s.net.reseq k { next := r.pkt.fseq }) (r := r)
    rw [hy, keys_tset_of_mem y (mem_keys_of_reseqKey hkey)]
  | none =>
    by_cases hno : hasFlag r.pkt fFHEAD = false ∨ 65536 ≤ (reseqIn s n).length
    · exact .inl (by rw [resequence_refused hkey hno])
    · obtain ⟨hhead, hfree⟩ := not_or.mp hno
      rw [Bool.not_eq_false] at hhead
      rw [Nat.not_le] at hfree
      refine .inr ⟨hfree, ?_⟩
      rw [resequence_created hkey hhead hfree, orderIn_first]
      exact keys_tset_of_not_mem _ (not_mem_keys_of_reseqKey hkey n)

/-- No quarter comes to more than 65,536 contexts. -/
theorem reseqIn_resequence_le (s : State) (n m : Nat) (r : Req) (h : (reseqIn s m).length ≤ 65536) :
    (reseqIn (resequence s n r).2 m).length ≤ 65536 := by
  rw [reseqIn_length] at h ⊢
  rcases resequence_keys s n r with hkeys | ⟨hfree, hkeys⟩
  · rwa [hkeys]
  · rw [hkeys, List.filter_append, List.length_append]
    by_cases hm : n = m
    · subst hm
      rw [reseqIn_length] at hfree
      simpa using hfree
    · simpa [hm] using h

end Flow

/-! ### The row -/

theorem exec_reseqContextIdle {s : State} {q src dst flow : Nat} {x : Reseq} (h : tget s.net.reseq (q, src, dst, flow) = some x) :
    exec (.reseqContextIdle q src dst flow) s =
      .next (if x.held = [] && due s x.lastAt (us 100) then { s with net := { s.net with reseq := tdel s.net.reseq (q, src, dst, flow) } } else s) := by
  change execReseqContextIdle q src dst flow s = _
  simp only [execReseqContextIdle, h]

/-- A context that holds nothing goes after 100 us without traffic. -/
theorem exec_reseqContextIdle_due {s : State} {q src dst flow : Nat} {x : Reseq} (h : tget s.net.reseq (q, src, dst, flow) = some x)
    (hempty : x.held = []) (hdue : due s x.lastAt (us 100) = true) :
    exec (.reseqContextIdle q src dst flow) s = .next { s with net := { s.net with reseq := tdel s.net.reseq (q, src, dst, flow) } } :=
  (exec_reseqContextIdle h).trans (congrArg Host.Outcome.next (if_pos (by simp [hempty, hdue])))

end Sys2Proof.Machine

section
open Sys2Proof Sys2Proof.Machine

/-- Settles O50: without a context a packet is refused or makes its own, the keys of the table say how many there are, and the timer's row looks its context up. -/
theorem resequencerContextsComeAndGo : Obligations.ResequencerContextsComeAndGo := by
  unfold Obligations.ResequencerContextsComeAndGo
  refine ⟨?none, ?found, ?bound, ?idle⟩
  case none =>
    intro s n r hkey
    exact ⟨fun hhead => resequence_refused hkey (.inl hhead), fun hfull => resequence_refused hkey (.inr hfull),
      fun hhead hfree _ => (resequence_created hkey hhead hfree).trans (orderIn_first _ _ _)⟩
  case found =>
    intro s n r k x hkey hx
    have horder : resequence s n r = orderIn s k x r := by rw [resequence_found hkey, tgetD, hx, Option.getD_some]
    obtain ⟨y, hy⟩ := orderIn_reseq (s := s) (k := k) (x := x) (r := r)
    have hkeys := congrArg List.length (keys_tset_of_mem y (mem_keys_of_reseqKey hkey))
    rw [List.length_map, List.length_map] at hkeys
    exact ⟨horder, by rw [horder, hy, hkeys]⟩
  case bound =>
    intro s n m r hle _
    exact reseqIn_resequence_le s n m r hle
  case idle =>
    intro s q src dst flow x hx
    refine ⟨exec_reseqContextIdle_due hx, fun hstays => ?_⟩
    have hnot : ¬ (decide (x.held = []) && due s x.lastAt (us 100)) = true := by
      rcases hstays with hheld | hearly
      · simp [hheld]
      · simp [hearly]
    exact (exec_reseqContextIdle hx).trans (congrArg Host.Outcome.next (if_neg hnot))

end

/-! ### Packets that come to their service

The answers to the module's own messages (O1), command space (O3) and the requests of SIEVE (O8). -/

namespace Sys2Proof.Machine

/-- The row of a packet's kind answers with what its service gives. -/
theorem arrive_served {kind : Bool} {s u v : State} {t : Ns} {q : Nat} {p : Packet} (hkind : kind = true) (hs : served s q p = some (t, u))
    (hv : serveOp u (arrived t q p) = v) : arrive kind s q p = finish s q p v :=
  (if_pos hkind).trans ((receive_served hs).trans (congrArg (finish s q p) hv))

/-! ### Answers to the module's own messages (R91, R97, R98, R105, R107) -/

theorem takeAckPacket_wellFormed {s : State} {p : Packet} (h : entriesOk p = true) :
    takeAckPacket s p = (entriesIn p).foldl (fun st e => takeAckEntry st p.src e) s :=
  if_neg (by simp [h])

theorem takeNakPacket_wellFormed {s : State} {p : Packet} (h : entriesOk p = true) :
    takeNakPacket s p = (entriesIn p).foldl (fun st e => takeNakEntry st p.src e) s :=
  if_neg (by simp [h])

/-- A response that asks for no re-issue completes its message. -/
theorem takeRsp_completes {s : State} {q : Nat} {p : Packet} {k : Nat × Nat} {m : OwnMsg} (hown : ownOf (ackRack s q p) p.src p.msg = some (k, m))
    (hgood : rspMalformed p = false) (hfinal : isRClass p.status = false) :
    takeRsp s q p = finishOwn (ackRack s q p) k m
      { code := p.status, detail := if p.status = kSUCCESS then 0 else field p.payload 4 4
        hint := if p.status = kSUCCESS then 0 else field p.payload 0 2 } := by
  simp only [takeRsp, hgood, hown, hfinal, Bool.false_eq_true, if_false]

/-- A new data packet that agrees with those received is kept; the last one missing completes the message. -/
theorem takeRspData_new {s : State} {q : Nat} {p : Packet} {k : Nat × Nat} {m : OwnMsg} (hown : ownOf (ackRack s q p) p.src p.msg = some (k, m))
    (hnew : thas m.got p.pidx = false) (hidx : p.pidx ≤ p.pcnt) (hagree : ∀ g ∈ m.got, sameAnswer g.2 p = true) :
    takeRspData s q p =
      if p.pcnt < (tset m.got p.pidx p).length then
        finishOwn (ackRack s q p) k { m with got := tset m.got p.pidx p }
          { code := (deliveryCode (tset m.got p.pidx p)).1, detail := (deliveryCode (tset m.got p.pidx p)).2 }
      else { ackRack s q p with net := { (ackRack s q p).net with own := tset (ackRack s q p).net.own k { m with got := tset m.got p.pidx p } } } := by
  have hsame : ¬ (m.got.any fun g => !sameAnswer g.2 p) = true := by simpa using hagree
  have hfresh : ¬ (thas m.got p.pidx || decide (p.pcnt < p.pidx)) = true := by simpa [hnew] using hidx
  simp only [takeRspData, hown, if_neg hsame, if_neg hfresh]

/-! ### Command space (R89, R119, R492) -/

/-- A LOAD of command space that reads a host mailbox. -/
theorem serveCommandLoad_host {s : State} {t : Ns} {q m off : Nat} {p : Packet} {d : List Byte} (hgood : memFieldCheck s q p = none)
    (hbox : hostBoxOf p.addr = some (m, off)) (hload : hostLoad s m off q p = .inl d) :
    serveCommandLoad s (arrived t q p) = respondData s p { data := d } := by
  simp only [serveCommandLoad, arrived, hgood, hbox, hload]

/-- A command's STORE is a STORE to command space. -/
theorem commandStore_of_entered {s : State} {q : Nat} {p : Packet} (h : commandEntered s q p = true) : commandStore p = true := by
  obtain ⟨-, -, hop, hspace⟩ := serveCommandStore_entered (t := 0) h
  simp [commandStore, hop, hspace]

section CommandSpace

variable {s u : State} {t : Ns} {q : Nat} {p : Packet} {kind : Bool} (hs : served s q p = some (t, u)) (he : commandEntered u q p = true)
  (hkind : kind = true)
include hs he hkind

/-- Under each of its rows a doorbell that nothing refuses acts and is answered. -/
theorem arrive_doorbell {c : Nat} (hc : doorbellChannel p.addr = some c) (hr : doorbellRefusal u c p = none) :
    arrive kind s q p = finish s q p (respondOk (if dbOp p = 0 then ring (openDedup u p) c p
      else if dbOp p = 1 then resumeBell (openDedup u p) c else abortChannel (openDedup u p) c kSUCCESS) q p []) :=
  arrive_served hkind hs ((serveCommandStore_entered he).1.trans (attemptCommand_doorbell he hc hr))

/-- Under each of its rows a STORE to a host mailbox that takes it is answered. -/
theorem arrive_hostStore {m off : Nat} {v : State} (hbox : hostBoxOf p.addr = some (m, off)) (hstore : hostStore u m off q p = .inl v) :
    arrive kind s q p = finish s q p (respondOk (openDedup v p) q p []) :=
  arrive_served hkind hs ((serveCommandStore_entered he).1.trans (attemptCommand_host he hbox hstore))

end CommandSpace

/-! ### Acceptance of a SIEVE request (R101, R272, R280) -/

/-- A SIEVE request that passes its checks and finds room is accepted. -/
theorem serveSieve_entered {s v : State} {t : Ns} {q n need : Nat} {p : Packet} (h : sieveEntered s q p = some (n, need, v)) :
    serveSieve s (arrived t q p) = acceptSieve v (entrant t q p) n need := by
  unfold sieveEntered at h
  obtain ⟨hpass, h⟩ := Option.ite_none_left_eq_some.mp h
  simp only [Bool.or_eq_true, not_or, Bool.not_eq_true, Option.isSome_eq_false_iff, Option.isNone_iff_eq_none] at hpass
  obtain ⟨⟨⟨⟨hnew, hgood⟩, haligned⟩, hfilter⟩, hjob⟩ := hpass
  split at h
  · cases h
  · rename_i hwin
    obtain ⟨hroom, h⟩ := Option.ite_none_left_eq_some.mp h
    simp only [Bool.or_eq_true, decide_eq_true_eq, not_or, Bool.not_eq_true] at hroom
    obtain ⟨⟨hinside, hstaging⟩, hdedup⟩ := hroom
    cases h
    simp only [serveSieve, arrived, hnew, hgood, hfilter, hwin, hinside, hdedup, Bool.false_eq_true, if_false]
    exact (if_neg (Bool.eq_false_iff.mp haligned)).trans ((if_neg (Bool.eq_false_iff.mp hjob)).trans (if_neg hstaging))

@[simp] theorem warnStaging_sieve (s : State) : (warnStaging s).sieve = s.sieve := by
  unfold warnStaging
  split <;> rfl

/-- A request that nothing of its flow goes before is entered among the running ones. -/
theorem acceptSieve_entered {s : State} {w : Waiter} {n need : Nat} (horder : w.req.order = 0)
    (hfirst : (s.pool.waiters.any (fun x => flowBefore x.req.pkt w.req.pkt)
      || s.pool.pendingFlow.any (fun e => e.1.1 = w.req.pkt.src && e.1.2.1 = w.req.pkt.flow && hasFlag w.req.pkt fORDERED
        && earlierSeq e.1.2.2 w.req.pkt.fseq)) = false) :
    tget (acceptSieve s w n need).sieve.reqs (w.req.pkt.src, w.req.pkt.msg) =
      some { req := { w.req with order := s.pool.accepted + 1 }, quarter := n, sfn := sfnOf w.req.pkt, staging := need } := by
  simp only [acceptSieve, hfirst, Bool.false_and, Bool.false_eq_true, if_false]
  split
  · simp only [tget_tset_same, accept_req s w horder]
  · simp only [warnStaging_sieve, tget_tset_same, accept_req s w horder]

/-- Under the row of its function a SIEVE request that passes its checks is accepted. -/
theorem arrive_sieve {kind : Bool} {s u v : State} {t : Ns} {q n need : Nat} {p : Packet} (hs : served s q p = some (t, u)) (hop : p.op = opSIEVE)
    (he : sieveEntered u q p = some (n, need, v)) (hkind : kind = true) :
    arrive kind s q p = finish s q p (acceptSieve v (entrant t q p) n need) :=
  arrive_served hkind hs ((serveOp_sieve hop).trans (serveSieve_entered he))

end Sys2Proof.Machine

section
open Sys2Proof Sys2Proof.Machine

/-- Settles O1: each of the four rows serves its packet by its operation, and the operation's own lemma gives the effect. -/
theorem answersToOwnMessagesAct : Obligations.AnswersToOwnMessagesAct := by
  unfold Obligations.AnswersToOwnMessagesAct
  intro s u t q p hs
  refine ⟨?ack, ?nak, ?rsp, ?data⟩
  case ack =>
    intro hop hgood
    exact congrArg Host.Outcome.next (arrive_served (decide_eq_true hop) hs ((serveOp_ack hop).trans (takeAckPacket_wellFormed hgood)))
  case nak =>
    intro hop hgood
    exact congrArg Host.Outcome.next (arrive_served (decide_eq_true hop) hs ((serveOp_nak hop).trans (takeNakPacket_wellFormed hgood)))
  case rsp =>
    intro k m hop hown hgood hfinal
    exact congrArg Host.Outcome.next (arrive_served (decide_eq_true hop) hs ((serveOp_rsp hop).trans (takeRsp_completes hown hgood hfinal)))
  case data =>
    intro k m hop hown hnew hidx hagree
    exact congrArg Host.Outcome.next (arrive_served (decide_eq_true hop) hs ((serveOp_rspData hop).trans (takeRspData_new hown hnew hidx hagree)))

/-- Settles O3: a STORE that enters command space is attempted at its address, a doorbell or a host mailbox; the kind of each row is what its condition says. -/
theorem commandSpaceStoresComplete : Obligations.CommandSpaceStoresComplete := by
  unfold Obligations.CommandSpaceStoresComplete
  intro s u t q p hs
  refine ⟨?load, fun he => ⟨?doorbell, ?host⟩⟩
  case load =>
    intro m off d hop hspace hgood hbox hload
    exact congrArg Host.Outcome.next (arrive_served (decide_eq_true hop) hs ((serveOp_commandLoad hop hspace).trans (serveCommandLoad_host hgood hbox hload)))
  case doorbell =>
    intro c hc hr
    have hstore := commandStore_of_entered he
    have hbell {k : Nat} (hk : dbOp p = k) : bellOf p k = true := by simp [bellOf, hstore, hc, hk]
    refine ⟨congrArg Host.Outcome.next (arrive_doorbell hs he hstore hc hr), fun h => ?_, fun h => ?_, fun h => ?_⟩
    · refine congrArg Host.Outcome.next ((arrive_doorbell hs he (hbell h) hc hr).trans ?_)
      rw [if_pos h]
    · refine congrArg Host.Outcome.next ((arrive_doorbell hs he (hbell h) hc hr).trans ?_)
      rw [if_neg (by omega), if_pos h]
    · refine congrArg Host.Outcome.next ((arrive_doorbell hs he (hbell h) hc hr).trans ?_)
      rw [if_neg (by omega), if_neg (by omega)]
  case host =>
    intro m off v hbox htake
    have hstore : boxStore p = true := by simp [boxStore, commandStore_of_entered he, hbox]
    constructor
    · intro hslot
      exact congrArg Host.Outcome.next (arrive_hostStore hs he (by simp [bellStore, hstore, hslot]) hbox htake)
    · intro hbell
      exact congrArg Host.Outcome.next (arrive_hostStore hs he (by simp [bellStore, hstore, hbell]) hbox htake)

/-- Settles O8: the six rows differ in the function their request names alone; a request that nothing goes before is found among the running ones. -/
theorem sieveRequestsAreAccepted : Obligations.SieveRequestsAreAccepted := by
  unfold Obligations.SieveRequestsAreAccepted
  intro s u v t q n need p hs hop he
  have row {f : Nat} (hf : sfnOf p = f) : arrive (p.op = opSIEVE && sfnOf p = f) s q p = finish s q p (acceptSieve v (entrant t q p) n need) :=
    arrive_sieve hs hop he (by simp [hop, hf])
  refine ⟨?gatherMem, ?scatter, ?setop, ?filter, ?dispatch, ?combine, ?entered⟩
  case gatherMem => exact fun hf => congrArg Host.Outcome.next (row hf)
  case scatter => exact fun hf => congrArg Host.Outcome.next (row hf)
  case setop => exact fun hf => congrArg Host.Outcome.next (row hf)
  case filter => exact fun hf => congrArg Host.Outcome.next (row hf)
  case dispatch => exact fun hf => congrArg Host.Outcome.next (row hf)
  case combine => exact fun hf => congrArg Host.Outcome.next (row hf)
  case entered => exact acceptSieve_entered (w := entrant t q p) rfl

end

/-! ### Queues, the tally and the clock

What a port sends and discards, how its gates move, what the tally exports and what an IEEE 1588 message does to the clock (O26). -/

namespace Sys2Proof.Machine

/-! ### Queues (R99, R379, R383, R384) -/

/-- At a packet boundary the head of the chosen queue goes; the virtual time moves for a queue that is not strict. -/
theorem transmitSelect_chosen {s : State} {q k : Nat} {x : QPkt} {b : Bool} (hfree : atBoundary s q = true) (hchosen : chooseQueue s q = some (k, x, b)) :
    transmitSelect s q =
      let u := toStream (if regField s (aQUEUE_PARAM k) 8 1 = 1 then s else setSched s q { sched s q with v := (outQ s k).fin }) q k x
      let v := bumpBy u (cLPORT_TX_BYTES q) (packetSize x.pkt)
      admitReserves (popHead (capture
        (if b then setEvt (bump v (cLPORT_GATE_OVERRUN q)) (aQUEUE_CFG (quarterOf q)) 28 else v)
        q (k % 16) (if b then 7 else if x.marked then 6 else 1) x.colour x.pkt) k) (quarterOf q) := by
  simp only [transmitSelect, hfree, hchosen, Bool.not_true, Bool.false_eq_true, if_false]

/-- The answer to a gate commit leaves the gates as they stand. -/
theorem gateDone_keeps (s : State) :
    (gateDone s).pool = s.pool ∧ (gateDone s).net = s.net ∧ (gateDone s).regs = s.regs ∧ (gateDone s).queues.gates = s.queues.gates := by
  unfold gateDone
  split
  · split <;> simp
  · simp

theorem portGate_congr {s t : State} (h : t.queues.gates = s.queues.gates) (q : Nat) : portGate t q = portGate s q := by
  rw [portGate, portGate, h]

/-- A gate move leaves the port at the entry of its schedule's place in the cycle, and pool, network and registers as they were. -/
theorem gateMove_entry (s : State) (q : Nat) :
    (gateMove s q).pool = s.pool ∧ (gateMove s q).net = s.net ∧ (gateMove s q).regs = s.regs ∧ (portGate (gateMove s q) q).cur = gateNow s q ∧
      (portGate (gateMove s q) q).idx =
        (gateNow s q).entries.length - (gateFrom (gatePlace (gateNow s q) (timeNow s)) (gateNow s q).entries).length := by
  unfold gateMove
  dsimp only
  generalize hg : PortGate.mk (gateNow s q) _ _ _ = g
  obtain ⟨hpool, hnet, hregs, hgates⟩ := gateDone_keeps { s with queues := { s.queues with gates := tset s.queues.gates q g } }
  have hport : portGate (gateDone { s with queues := { s.queues with gates := tset s.queues.gates q g } }) q = g :=
    (portGate_congr hgates q).trans (tgetD_tset_same _ _ _ _)
  refine ⟨hpool, hnet, hregs, ?_, ?_⟩
  · rw [hport, ← hg]
  · rw [hport, ← hg]

theorem recoverRate_due {s : State} {n dst : Nat} {r : RateEntry} (hr : tget s.queues.rates (n, dst) = some r) (hdue : due s r.markAt (us 50) = true) :
    recoverRate s n dst =
      if lineRate s (egressPort s dst) ≤ r.rate + 2000 then { s with queues := { s.queues with rates := tdel s.queues.rates (n, dst) } }
      else { s with queues := { s.queues with rates := tset s.queues.rates (n, dst) { r with rate := r.rate + 2000, markAt := s.now } } } := by
  simp only [recoverRate, hr, hdue, Bool.not_true, Bool.false_eq_true, if_false]

/-! ### The clock (R389; log entry 113) -/

/-- An unlocked clock steps by the offset and is locked. -/
theorem discipline_unlocked {s : State} {offset : Int} (h : s.clock.locked = false) :
    (discipline s offset).clock = stepClock s.clock offset ∧ (discipline s offset).pool = s.pool ∧ (discipline s offset).net = s.net := by
  have hstep : discipline s offset =
      if offset < 0 then setEvt { s with clock := stepClock s.clock offset } aTIME_STATUS 1 else { s with clock := stepClock s.clock offset } :=
    if_pos (by simp [h])
  rw [hstep]
  split <;> exact ⟨rfl, rfl, rfl⟩

/-- A locked clock that is at most 1 s behind is slewed. -/
theorem discipline_locked {s : State} {offset : Int} (h : s.clock.locked = true) (hnear : -1000000000 ≤ offset) :
    discipline s offset = { s with clock := { s.clock with offset := offset, slew := -offset } } :=
  if_neg (by simp [h, hnear])

end Sys2Proof.Machine

section
open Sys2Proof Sys2Proof.Machine

/-- Settles O26: under its conditions each event takes the branch that its own lemma states, and its row answers with that state. -/
theorem queueTimersAndClockAct : Obligations.QueueTimersAndClockAct := by
  unfold Obligations.QueueTimersAndClockAct
  intro s q n
  refine ⟨?transmit, ?residence, rfl, ?gate, ?idle, ?rate, ?tally, ?ptp⟩
  case transmit =>
    rintro _ k x b _ _ rfl hfree hchosen rfl rfl
    exact congrArg Host.Outcome.next (transmitSelect_chosen hfree hchosen)
  case residence =>
    intro hport k hk
    exact congrArg Host.Outcome.next ((if_neg hport).trans (if_pos hk))
  case gate => exact ⟨_, rfl, gateMove_entry s q⟩
  case idle =>
    intro src dst flow x hx hempty hdue
    exact exec_reseqContextIdle_due hx hempty hdue
  case rate =>
    intro dst r hr hdue
    exact congrArg Host.Outcome.next (recoverRate_due hr hdue)
  case tally =>
    rintro _ _ hexports rfl rfl
    exact congrArg Host.Outcome.next (if_pos hexports)
  case ptp =>
    intro m hvalid hphase
    have hrow : exec (.ptpMessage m) s = .next (discipline s m.offset) := congrArg Host.Outcome.next (if_pos (by simp [hvalid, hphase]))
    constructor
    · intro hunlocked
      obtain ⟨hclock, hpool, hnet⟩ := discipline_unlocked (offset := m.offset) hunlocked
      exact ⟨_, hrow, congrArg Clock.locked hclock, congrArg Clock.offset hclock, congrArg Clock.counter hclock, hpool, hnet⟩
    · intro hlocked hnear
      rw [hrow, discipline_locked hlocked hnear]

end

/-! ### Timers of the transport

Acknowledgement, retransmission, abandonment and the end of what is kept for a message (O27). -/

namespace Sys2Proof.Machine

theorem retxExpiry_due {s : State} {dst msg pidx : Nat} {rsp : Bool} {x : Sent} (hx : tget s.net.sent (dst, msg, pidx, rsp) = some x)
    (hdue : retxDue s x = true) (hnot : tooLong s x = false) : retxExpiry s dst msg pidx rsp = retransmit s (dst, msg, pidx, rsp) x := by
  simp only [retxExpiry, hx]
  exact if_pos (by simp [hdue, hnot])

section Abandon

variable {s : State} {dst msg pidx : Nat} {x : Sent} (hlong : tooLong s x = true)
include hlong

/-- A packet of an own request that is given up ends its message (R97). -/
theorem abandon_request {k : Nat × Nat} {m : OwnMsg} (hx : tget s.net.sent (dst, msg, pidx, false) = some x) (hown : ownOf s dst msg = some (k, m)) :
    abandon s dst msg pidx false = finishOwn s k m { code := kTRANSPORT_TIMEOUT, detail := 1, timeout := true } := by
  simp only [abandon, hx, hlong, hown, Bool.not_true, Bool.false_eq_true, if_false]

/-- A packet of a response that is given up is forgotten (R97). -/
theorem abandon_response (hx : tget s.net.sent (dst, msg, pidx, true) = some x) :
    abandon s dst msg pidx true = { s with net := { s.net with sent := tdel s.net.sent (dst, msg, pidx, true) } } := by
  simp only [abandon, hx, hlong, Bool.not_true, Bool.false_eq_true, if_false, if_true]

end Abandon

/-- The bitmap of a message that stays incomplete goes 12 ms after its last packet (R92). -/
theorem expireAssembly_due {s : State} {n src msg : Nat} {a : Assembly} (ha : tget s.net.assembly (n, src, msg) = some a)
    (hmissing : a.got.length ≤ a.first.pcnt) (hdue : due s a.lastAt (ms 12) = true) :
    expireAssembly s n src msg = endMessage (bump s (cASSEMBLY_TIMEOUT_COUNT n)) a.first := by
  simp only [expireAssembly, ha]
  exact if_pos ⟨hmissing, hdue⟩

theorem expireDedup_over {s : State} {src msg : Nat} {d : Dedup} (hd : tget s.net.dedup (src, msg) = some d) (hover : dedupOver s d = true) :
    expireDedup s src msg = { s with net := { s.net with dedup := tdel s.net.dedup (src, msg) } } := by
  simp only [expireDedup, hd, hover, if_true]

/-- A write that was transmitted again is reported once nothing holds its report back (R100). -/
theorem reportLate_free {s : State} {dst msg c : Nat} {m : OwnMsg} (hm : tget s.net.own (dst, msg) = some m) (hwaits : m.waiting = some c)
    (hfree : reportHeld s m = false) :
    reportLate s dst msg = closeOwn s (dst, msg) m { code := c, timeout := decide (c = kTRANSPORT_TIMEOUT) } := by
  simp only [reportLate, hm, hwaits, hfree, Bool.false_eq_true, if_false]

end Sys2Proof.Machine

section
open Sys2Proof Sys2Proof.Machine

/-- Settles O27: a timer finds its entry, and where it is due the row answers with the branch that its own lemma states. -/
theorem transportTimersAct : Obligations.TransportTimersAct := by
  unfold Obligations.TransportTimersAct
  intro s q src dst msg pidx
  refine ⟨rfl, ?retx, ?abandon, ?assembly, ?dedup, ?report⟩
  case retx =>
    intro rsp x hx hdue hnot
    exact congrArg (fun u => Host.Outcome.next (settle u)) (retxExpiry_due hx hdue hnot)
  case abandon =>
    intro rsp x hx hlong
    constructor
    · rintro k m rfl hown
      exact congrArg (fun u => Host.Outcome.next (settle u)) (abandon_request hlong hx hown)
    · rintro rfl
      exact congrArg (fun u => Host.Outcome.next (settle u)) (abandon_response hlong hx)
  case assembly =>
    intro a ha hmissing hdue
    exact congrArg (fun u => Host.Outcome.next (settle u)) (expireAssembly_due ha hmissing hdue)
  case dedup =>
    intro d hd hover
    exact congrArg (fun u => Host.Outcome.next (settle u)) (expireDedup_over hd hover)
  case report =>
    intro m c hm hwaits hfree
    exact congrArg (fun u => Host.Outcome.next (settle u)) (reportLate_free hm hwaits hfree)

end

/-! ### Writes at their home

A write over the lines that it touches is one run of bytes in pool memory, and outside its pieces and their checks nothing changes (O54). -/

namespace Sys2Proof.Machine

/-! ### Runs of bytes in memory (R3, R119) -/

theorem memBytes_append (m : Memory) (a n k : Nat) : memBytes m a (n + k) = memBytes m a n ++ memBytes m (a + n) k := by
  simp only [memBytes, List.range_add, List.map_append, List.map_map, Function.comp_def, Nat.add_assoc]

@[simp] theorem memBytes_length (m : Memory) (a n : Nat) : (memBytes m a n).length = n := by
  simp [memBytes]

/-- A run of bytes that two memories read alike. -/
theorem memBytes_congr {m m' : Memory} {a n : Nat} (h : ∀ i, i < n → memRead m (a + i) = memRead m' (a + i)) : memBytes m a n = memBytes m' a n :=
  List.map_congr_left fun i hi => h i (List.mem_range.mp hi)

/-- A run of bytes written is read back. -/
theorem memBytes_memStore (m : Memory) (a : Nat) (bs : List Byte) (h : Memory.wf m = true) : memBytes (memStore m a bs) a bs.length = bs := by
  refine List.ext_getElem (memBytes_length _ _ _) fun i hi hb => ?_
  simp only [memBytes, List.getElem_map, List.getElem_range, memRead_memStore_inside bs m a i h hb, List.getD_eq_getElem _ _ hb]

theorem memStore_append (m : Memory) (a : Nat) (xs ys : List Byte) : memStore m a (xs ++ ys) = memStore (memStore m a xs) (a + xs.length) ys := by
  induction xs generalizing m a with
  | nil => rfl
  | cons x xs ih => simp only [List.cons_append, memStore, ih, List.length_cons, Nat.add_assoc, Nat.add_comm 1]

/-! ### The parts of a piece -/

theorem mem_linesOf {a n l : Nat} (h : l ∈ linesOf a n) : 0 < n ∧ a / 128 ≤ l ∧ l ≤ (a + n - 1) / 128 := by
  unfold linesOf at h
  split at h
  · cases h
  · obtain ⟨i, hi, rfl⟩ := List.mem_map.mp h
    have := List.mem_range.mp hi
    omega

/-- A part of an access lies within its piece, in one of the piece's lines. -/
theorem mem_partsOf {ps : List Piece} {pos : Nat} {x : Part} (h : x ∈ partsOf ps pos) :
    ∃ p ∈ ps, x.line ∈ linesOf p.pa p.len ∧ x.leaf = p.leaf ∧ p.pa ≤ x.line * 128 + x.off ∧ x.line * 128 + x.off + x.len ≤ p.pa + p.len := by
  induction ps generalizing pos with
  | nil => cases h
  | cons p r ih =>
    rcases List.mem_append.mp h with h | h
    · obtain ⟨l, hl, rfl⟩ := List.mem_map.mp h
      have := mem_linesOf hl
      exact ⟨p, List.mem_cons_self, hl, rfl, by simp only; omega, by simp only; omega⟩
    · obtain ⟨q, hq, hx⟩ := ih h
      exact ⟨q, List.mem_cons_of_mem _ hq, hx⟩

/-- Parts that follow one another without a gap, from place `pos` to place `e` of a run that starts at `base`. -/
def Tiles (base : Nat) : Nat → List Part → Nat → Prop
  | pos, [], e => pos = e
  | pos, x :: r, e => x.pos = pos ∧ x.line * 128 + x.off = base + pos ∧ Tiles base (pos + x.len) r e

theorem Tiles.le {base pos e : Nat} {ps : List Part} (h : Tiles base pos ps e) : pos ≤ e := by
  induction ps generalizing pos with
  | nil => exact Nat.le_of_eq h
  | cons x r ih => exact Nat.le_trans (Nat.le_add_right _ _) (ih h.2.2)

/-- The part of a piece in one of the piece's lines. -/
def linePart (p : Piece) (l : Nat) : Part :=
  { line := l, off := max p.pa (l * 128) - l * 128, len := min (p.pa + p.len) (l * 128 + 128) - max p.pa (l * 128)
    pos := max p.pa (l * 128) - p.pa, leaf := p.leaf }

theorem partsOf_single (p : Piece) : partsOf [p] 0 = (linesOf p.pa p.len).map (linePart p) := by
  simp only [partsOf, pieceParts, List.append_nil, Nat.zero_add]
  rfl

/-- The place of a piece at which a line begins, held between the piece's start and its end. -/
def lineStart (p : Piece) (l : Nat) : Nat := max p.pa (min (p.pa + p.len) (l * 128)) - p.pa

/-- From any line of a piece on, its parts reach the piece's end. -/
theorem tiles_lines (p : Piece) {l k : Nat} (hlen : 0 < p.len) (hl : p.pa / 128 ≤ l) (hk : l + k = (p.pa + p.len - 1) / 128 + 1) :
    Tiles p.pa (lineStart p l) ((List.range' l k).map (linePart p)) p.len := by
  induction k generalizing l with
  | zero =>
    simp only [List.range'_zero, List.map_nil, Tiles, lineStart]
    omega
  | succ k ih =>
    have next := ih (l := l + 1) (by omega) (by omega)
    have hstart : lineStart p (l + 1) = lineStart p l + (linePart p l).len := by
      simp only [lineStart, linePart]
      omega
    rw [hstart] at next
    refine ⟨?_, ?_, next⟩ <;>
    · simp only [lineStart, linePart]
      omega

/-- The parts of one piece follow one another over its whole run. -/
theorem tiles_partsOf (p : Piece) : Tiles p.pa 0 (partsOf [p] 0) p.len := by
  rw [partsOf_single]
  by_cases hlen : p.len = 0
  · simp [linesOf, hlen, Tiles]
  · have h := tiles_lines p (l := p.pa / 128) (k := (p.pa + p.len - 1) / 128 + 1 - p.pa / 128) (by omega) (Nat.le_refl _) (by omega)
    have hstart : lineStart p (p.pa / 128) = 0 := by
      unfold lineStart
      omega
    rw [hstart] at h
    rwa [linesOf, if_neg hlen, List.range_eq_range', List.map_add_range', Nat.add_zero]

/-! ### What a write does to memory (R122, R123, R126) -/

/-- Parts that follow one another are written as one run of bytes. -/
theorem Tiles.store {base pos e : Nat} {ps : List Part} (h : Tiles base pos ps e) (m : Memory) {d : List Byte} (hd : e ≤ d.length) :
    ps.foldl (fun m x => partMem m x ((d.drop x.pos).take x.len) false) m = memStore m (base + pos) ((d.drop pos).take (e - pos)) := by
  induction ps generalizing pos m with
  | nil =>
    obtain rfl : pos = e := h
    simp [memStore]
  | cons x r ih =>
    obtain ⟨rfl, haddr, hr⟩ := h
    have hle := hr.le
    have hlen : ((d.drop x.pos).take x.len).length = x.len := by
      rw [List.length_take, List.length_drop]
      omega
    have hsplit : (d.drop x.pos).take (e - x.pos) = (d.drop x.pos).take x.len ++ (d.drop (x.pos + x.len)).take (e - (x.pos + x.len)) := by
      rw [show e - x.pos = x.len + (e - (x.pos + x.len)) by omega, List.take_add, List.drop_drop]
    rw [List.foldl_cons, ih hr, hsplit, memStore_append, hlen, Nat.add_assoc]
    simp only [partMem, haddr, Bool.false_eq_true, if_false]

/-- Parts that follow one another read together are one run of bytes. -/
theorem Tiles.bytes {base pos e : Nat} {ps : List Part} (h : Tiles base pos ps e) (s : State) :
    ps.flatMap (partBytes s) = memBytes s.pool.mem (base + pos) (e - pos) := by
  induction ps generalizing pos with
  | nil =>
    obtain rfl : pos = e := h
    simp [memBytes]
  | cons x r ih =>
    obtain ⟨rfl, haddr, hr⟩ := h
    have hle := hr.le
    rw [List.flatMap_cons, ih hr, show e - x.pos = x.len + (e - (x.pos + x.len)) by omega, memBytes_append, Nat.add_assoc, partBytes, getBytes, haddr]

/-- A write to one piece that rewrites no check stores its payload as one run of bytes. -/
theorem writeParts_piece_mem (s : State) {p : Piece} {d : List Byte} (clr : Bool) (hd : d.length = p.len) :
    (writeParts s (partsOf [p] 0) d clr [] false).pool.mem = memStore s.pool.mem p.pa d := by
  have h := (tiles_partsOf p).store s.pool.mem hd.ge
  rw [Nat.add_zero, Nat.sub_zero, List.drop_zero, List.take_of_length_le hd.le] at h
  simpa only [writeParts_mem, Bool.false_and] using h

/-- A write leaves every byte outside its parts, and outside the checks it rewrites, as it was. -/
theorem writeParts_outside (s : State) {ps : List Part} (d : List Byte) (clr : Bool) (bad : List Nat) {check : Bool} {a : Nat}
    (hout : ∀ x ∈ ps, a < x.line * 128 + x.off ∨ x.line * 128 + x.off + x.len ≤ a)
    (hcheck : ∀ x ∈ ps, (check && leafE2e x.leaf) = true → a < x.line * 128 + 124 ∨ x.line * 128 + 128 ≤ a) :
    memRead (writeParts s ps d clr bad check).pool.mem a = memRead s.pool.mem a := by
  rw [writeParts_mem]
  generalize s.pool.mem = m
  induction ps generalizing m with
  | nil => rfl
  | cons x r ih =>
    rw [List.foldl_cons, ih (fun y hy => hout y (List.mem_cons_of_mem _ hy)) (fun y hy => hcheck y (List.mem_cons_of_mem _ hy))]
    exact partMem_outside m x _ _ a (List.length_take_le _ _) (hout x List.mem_cons_self) (hcheck x List.mem_cons_self)

/-- A write keeps memory's canonical form. -/
theorem writeParts_memoryGood {s : State} (ps : List Part) (d : List Byte) (clr : Bool) (bad : List Nat) (check : Bool) (h : MemoryGood s) :
    MemoryGood (writeParts s ps d clr bad check) := by
  rw [MemoryGood, writeParts_mem]
  rw [MemoryGood] at h
  generalize s.pool.mem = m at h
  induction ps generalizing m with
  | nil => exact h
  | cons x r ih => exact ih _ (partMem_wf _ _ _ _ h)

end Sys2Proof.Machine

section
open Sys2Proof Sys2Proof.Machine

/-- Settles O54: the write to one piece is one run of bytes stored in memory; a write to several changes memory part by part, each part within its piece. -/
theorem writesChangeTheirBytesAlone : Obligations.WritesChangeTheirBytesAlone := by
  unfold Obligations.WritesChangeTheirBytesAlone
  refine ⟨?piece, ?pieces⟩
  case piece =>
    rintro s _ p d clr hgood hd rfl
    have hmem := writeParts_piece_mem s clr hd
    refine ⟨?inside, ?outside, ?back, writeParts_memoryGood _ d clr [] false hgood⟩
    case inside =>
      intro i hi
      rw [hmem, memRead_memStore_inside d _ _ i hgood (hd ▸ hi)]
    case outside =>
      intro a ha
      rw [hmem, memRead_memStore_outside d _ _ a (hd ▸ ha)]
    case back => rw [(tiles_partsOf p).bytes, hmem, Nat.add_zero, Nat.sub_zero, ← hd, memBytes_memStore _ _ d hgood]
  case pieces =>
    rintro s _ ps d clr check bad rfl
    refine ⟨?_, writeParts_memoryGood _ d clr bad check⟩
    intro a hout hcheck
    refine writeParts_outside s d clr bad (fun x hx => ?_) fun x hx hc => ?_
    · obtain ⟨p, hp, -, -, hlo, hhi⟩ := mem_partsOf hx
      have := hout p hp
      omega
    · obtain ⟨p, hp, hline, hleaf, -, -⟩ := mem_partsOf hx
      obtain ⟨hchecked, he2e⟩ := Bool.and_eq_true_iff.mp hc
      exact hcheck hchecked p hp (hleaf ▸ he2e) x.line hline

end

/-! ### Atomic operations at their home

The value that an atomic operation leaves over its operand (O55). -/

namespace Sys2Proof.Machine

theorem two_pow_bytes (n : Nat) : 2 ^ (8 * n) = 256 ^ n := Nat.pow_mul 2 8 n

/-- A part's bytes are read back where its check, if it rewrites one, lies behind them (R126). -/
theorem partMem_inside {m : Memory} {x : Part} {d : List Byte} {crc : Bool} (hm : Memory.wf m = true) (hcrc : crc = true → x.off + d.length ≤ 124) :
    memBytes (partMem m x d crc) (x.line * 128 + x.off) d.length = d := by
  have hstore := memBytes_memStore m (x.line * 128 + x.off) d hm
  unfold partMem
  dsimp only
  split
  · rename_i hc
    have := hcrc hc
    exact (memBytes_congr fun i hi => memRead_memStore_outside _ _ _ _ (by omega)).trans hstore
  · exact hstore

theorem applyAtomic_memoryGood {s : State} (x : Part) (aop n a swap : Nat) (h : MemoryGood s) : MemoryGood (applyAtomic s x aop n a swap).2 := by
  rw [MemoryGood, (applyAtomic_mem s x aop n a swap).2]
  exact partMem_wf _ _ _ _ h

/-- The operand of an atomic operation then holds the new value, cut to its width. -/
theorem applyAtomic_operand {s : State} {x : Part} {aop n a swap new : Nat} (hgood : MemoryGood s) (hcheck : leafE2e x.leaf = true → x.off + n ≤ 124)
    (hnew : atomicResult aop (8 * n) (unle (getBytes s (x.line * 128 + x.off) n)) a swap = some new) :
    unle (getBytes (applyAtomic s x aop n a swap).2 (x.line * 128 + x.off) n) = new % 2 ^ (8 * n) := by
  have hin := partMem_inside (x := x) (d := le n new) (crc := leafE2e x.leaf) hgood (by rwa [le_length])
  rw [le_length] at hin
  rw [getBytes, (applyAtomic_mem s x aop n a swap).2, hnew, Option.getD_some, hin, unle_le, two_pow_bytes]

end Sys2Proof.Machine

section
open Sys2Proof Sys2Proof.Machine

/-- Settles O55: the operand is read back as the new value, which Table 5-3 gives by the AOP, and the part that is written is the operand alone. -/
theorem atomicsReplaceTheirOperand : Obligations.AtomicsReplaceTheirOperand := by
  unfold Obligations.AtomicsReplaceTheirOperand
  rintro s x n a swap old o addr aop v r - hlen hgood hcheck rfl hold ho rfl hv
  have hlt : old < 2 ^ (8 * n) := by
    have := unle_lt (getBytes s (x.line * 128 + x.off) n)
    rwa [getBytes, memBytes_length, ← two_pow_bytes, ← getBytes, ← hold] at this
  have hmod : old % 2 ^ (8 * n) = old := Nat.mod_eq_of_lt hlt
  have hpos : 0 < 2 ^ (8 * n) := Nat.two_pow_pos _
  have holt : o < 2 ^ (8 * n) := ho ▸ Nat.mod_lt a hpos
  have cut {new : Nat} (h : atomicResult aop (8 * n) old a swap = some new) : v = new % 2 ^ (8 * n) :=
    hv.trans (applyAtomic_operand hgood hcheck (hold ▸ h))
  have whole {new : Nat} (h : atomicResult aop (8 * n) old a swap = some new) (hnew : new < 2 ^ (8 * n)) : v = new :=
    (cut h).trans (Nat.mod_eq_of_lt hnew)
  refine ⟨(applyAtomic_mem s x aop n a swap).1.trans hold.symm, applyAtomic_memoryGood x aop n a swap hgood, ?outside, ?add, ?swap, ?compareSwap,
    ?min, ?max, ?signedMin, ?signedMax, ?and, ?or, ?xor, ?float⟩
  case outside =>
    intro b hout hcrc
    rw [(applyAtomic_mem s x aop n a swap).2]
    exact partMem_outside _ x _ _ b (by rw [le_length, hlen]) (hlen ▸ hout) hcrc
  case add =>
    rintro rfl
    exact whole (by simp only [atomicResult, hmod, ← ho]) (Nat.mod_lt _ hpos)
  case swap =>
    rintro rfl
    exact whole (by simp only [atomicResult, ← ho]) holt
  case compareSwap =>
    rintro rfl
    refine whole (by simp only [atomicResult, hmod, ← ho]) ?_
    split
    · exact Nat.mod_lt _ hpos
    · exact hlt
  case min =>
    rintro rfl
    exact whole (by simp only [atomicResult, hmod, ← ho]) (Nat.lt_of_le_of_lt (Nat.min_le_left _ _) hlt)
  case max =>
    rintro rfl
    exact whole (by simp only [atomicResult, hmod, ← ho]) (Nat.max_lt.mpr ⟨hlt, holt⟩)
  case signedMin =>
    rintro rfl
    by_cases hless : toSigned (8 * n) o < toSigned (8 * n) old
    · rw [whole (by simp only [atomicResult, hmod, ← ho, if_pos hless]) holt, min_eq_right hless.le]
    · rw [whole (by simp only [atomicResult, hmod, ← ho, if_neg hless]) hlt, min_eq_left (not_lt.mp hless)]
  case signedMax =>
    rintro rfl
    by_cases hless : toSigned (8 * n) old < toSigned (8 * n) o
    · rw [whole (by simp only [atomicResult, hmod, ← ho, if_pos hless]) holt, max_eq_right hless.le]
    · rw [whole (by simp only [atomicResult, hmod, ← ho, if_neg hless]) hlt, max_eq_left (not_lt.mp hless)]
  case and =>
    rintro rfl
    exact whole (by simp only [atomicResult, hmod, ← ho]) (Nat.and_lt_two_pow _ holt)
  case or =>
    rintro rfl
    exact whole (by simp only [atomicResult, hmod, ← ho]) (Nat.or_lt_two_pow hlt holt)
  case xor =>
    rintro rfl
    exact whole (by simp only [atomicResult, hmod, ← ho]) (Nat.xor_lt_two_pow hlt holt)
  case float =>
    rintro rfl
    have hwidth : (8 * n = 32) = (n = 4) := propext (by omega)
    exact cut (by simp only [atomicResult, hmod, ← ho, hwidth])

end

/-! ### Memory requests at their home

What a request that enters its home does when its access can be served now, and the rows (O2). -/

namespace Sys2Proof.Machine

/-! ### Reads and writes (R122, R126, R127, R129, R234) -/

theorem attemptLoad_now {s x : State} {w : Waiter} {l : List Piece} {ps : List Part}
    (h : access s w rightRead (accessVa s w) (loadSize w.req.pkt) false = .now l ps x) :
    attemptLoad s w = respondData (leaveWindow (countRead x (w.req.order = 0) ps) w) w.req.pkt (gatherData (countRead x (w.req.order = 0) ps) ps) := by
  simp only [attemptLoad, h]

/-- A STORE whose lines with a check are whole and right is applied, or answered poison where its backing is gone. -/
theorem attemptStore_now {s x : State} {w : Waiter} {l : List Piece} {ps : List Part}
    (h : access s w rightWrite (accessVa s w) (lenOf w.req.pkt) true = .now l ps x)
    (hchecked : ∀ y ∈ ps, leafE2e y.leaf = true → y.len = 128 ∧ lineCheck ((w.req.pkt.payload.drop y.pos).take 128) = true) :
    attemptStore s w =
      if goneIn x ps then
        if messageOver x w.req.pkt then leaveWindow x w
        else respondPoison (endMessage (leaveWindow (openDedup x w.req.pkt) w) w.req.pkt) w.req.pkt 0 0 kPOISONED_POOL_LOSS 0
      else writeDone (writeParts (expandAll x (accessJob x w) l) ps w.req.pkt.payload (hasFlag w.req.pkt fCLRPSN) [] false) w := by
  have hwhole : ¬ (ps.any fun y => leafE2e y.leaf && decide (y.len ≠ 128)) = true := by
    simpa using fun y hy he => (hchecked y hy he).1
  have hright : ¬ (ps.any fun y => leafE2e y.leaf && !lineCheck ((w.req.pkt.payload.drop y.pos).take 128)) = true := by
    simpa using fun y hy he => (hchecked y hy he).2
  simp only [attemptStore, h, if_neg hwhole, if_neg hright]

theorem attemptReduceWrite_now {s x : State} {w : Waiter} {l : List Piece} {ps : List Part}
    (h : access s w rightWrite (accessVa s w) (lenOf w.req.pkt) true = .now l ps x) (hback : goneIn x ps = false) :
    attemptReduceWrite s w =
      writeDone (writeParts (expandAll x (accessJob x w) l) ps w.req.pkt.payload false (maskLines w.req.pkt.oparg) true) w := by
  simp only [attemptReduceWrite, h, hback, Bool.false_eq_true, if_false]

/-! ### Atomics and FENCE (R124, R130, R148, R151) -/

theorem attemptAtomic_ranked {s : State} {w : Waiter} (hranked : rankedJob s w.req.pkt.job = true) (hheld : w.held = false) :
    attemptAtomic s w = holdRanked s w :=
  if_pos (by simp [hranked, hheld])

section Unranked

variable {s x : State} {w : Waiter} {l : List Piece} {y : Part} (hplain : rankedJob s w.req.pkt.job = false)
  (h : access s w rightAtomic (accessVa s w) (atomicBytes w.req.pkt) true = .now l [y] x) (hcheck : leafE2e y.leaf = true → y.off + y.len ≤ 124)
include hplain h hcheck

/-- A single ATOMIC whose operand is good replaces it and answers the old value. -/
theorem attemptAtomic_single (hsingle : atomicCmb w.req.pkt = false)
    (hgood : atomicBad (noteTray (leaveWindow (openDedup x w.req.pkt) w) [(w.req.pkt.src, w.req.pkt.msg)] y.line) y = none) :
    attemptAtomic s w =
      let u := noteTray (leaveWindow (openDedup x w.req.pkt) w) [(w.req.pkt.src, w.req.pkt.msg)] y.line
      let z := applyAtomic (expandAll u (accessJob u w) l) y (atomicOp w.req.pkt) (atomicBytes w.req.pkt)
        (field w.req.pkt.payload 0 8) (field w.req.pkt.payload 8 8)
      respondOk z.2 w.req.lport w.req.pkt (le 8 z.1) := by
  have hends : ¬ (leafE2e y.leaf && decide (124 < y.off + y.len)) = true := by simpa using hcheck
  simp only [attemptAtomic, hplain, runAtomic, h, hsingle, serveAtomic, if_neg hends, hgood, Bool.false_and, Bool.false_eq_true, if_false, oldBytes]

/-- A combined list none of whose copies is still without a result is applied and answered with every joiner's. -/
theorem attemptAtomic_list {w' : Waiter} {x' z : State} {acc : List (Nat × Nat)} (hlist : atomicCmb w.req.pkt = true) (haccept : accept x w = (w', x'))
    (happlied : applyList (noteTray (expandAll x' (accessJob x' w') l)
        ((w.req.pkt.src, w.req.pkt.msg) :: (joinersOf w.req.pkt.payload).map fun j => (j.src, j.msg)) y.line)
      w.req.pkt y w'.mine w'.done.length ((joinersOf w.req.pkt.payload).drop w'.done.length) w'.done = (none, acc, z)) :
    attemptAtomic s w = respondData (leaveWindow z w') w.req.pkt
      { data := (List.zipWith (fun j r => joinerBytes j r.1 r.2) (joinersOf w.req.pkt.payload) acc).flatten } := by
  have hends : ¬ (leafE2e y.leaf && decide (124 < y.off + y.len)) = true := by simpa using hcheck
  have hpkt : w'.req.pkt = w.req.pkt := by simpa only [haccept] using accept_pkt x w
  simp only [attemptAtomic, hplain, runAtomic, h, hlist, haccept, serveList, hpkt, if_neg hends, happlied, Bool.false_and, Bool.false_eq_true, if_false, if_true]

end Unranked

/-- A FENCE that finds nothing pending closes its epoch and is answered. -/
theorem attemptFence_clear {s : State} {w : Waiter} (hheld : w.held = false) (hepoch : epochRefusal s w.req.pkt (bits w.req.pkt.oparg 15 8) = none)
    (hclear : fencePending (closeEpoch s w.req.pkt) w.req.pkt w.req.order = false) :
    attemptFence s w = respondOk (closeEpoch s w.req.pkt) w.req.lport w.req.pkt [] := by
  simp only [attemptFence, hheld, hepoch, hclear, Bool.false_eq_true, if_false]

/-! ### The rows -/

/-- A request that enters its home is a waiter like any other, but with the packet as it arrived, and not held. -/
theorem memEntered_eq {s u : State} {t : Ns} {q : Nat} {p : Packet} {w : Waiter} (h : memEntered s t q p = some (w, u)) :
    (∃ x : Waiter, w = { x with req := arrived t q p, held := false }) ∧ waitsBehind u w = false := by
  obtain ⟨hreq, hheld, hfirst⟩ := memEntered_waiter h
  exact ⟨⟨w, by rw [← hreq, ← hheld]⟩, hfirst⟩

/-- The row of a packet's kind answers with what the attempt at its home gives. -/
theorem arrive_entered {kind : Bool} {s u v z : State} {t : Ns} {q : Nat} {p : Packet} {w : Waiter} {answer : State → State}
    (hs : served s q p = some (t, u)) (he : memEntered u t q p = some (w, v)) (hkind : kind = true)
    (hserve : serveOp u (arrived t q p) = answer (serveMem u (arrived t q p))) (hz : attemptMem v w = z) :
    arrive kind s q p = finish s q p (answer z) :=
  arrive_served hkind hs (hserve.trans (congrArg answer ((serveMem_entered he).trans hz)))

/-- The row ATOMIC answers with what the attempt gives, counted where the request joined an equal one that waits (R144, R166). -/
theorem exec_atomic_entered {s u v z : State} {t : Ns} {q : Nat} {p : Packet} {w : Waiter} (hs : served s q p = some (t, u))
    (he : memEntered u t q p = some (w, v)) (hop : p.op = opATOMIC) (hz : attemptAtomic v w = z) :
    exec (.atomic q p) s = .next (finish s q p (countJoined u z q p)) := by
  obtain ⟨⟨_, rfl⟩, hfirst⟩ := memEntered_eq he
  exact congrArg Host.Outcome.next (arrive_entered (answer := (countJoined u · q p)) hs he (decide_eq_true hop) (serveOp_atomic hop)
    ((attemptMem_atomic hop hfirst).trans hz))

end Sys2Proof.Machine

section
open Sys2Proof Sys2Proof.Machine

/-- Settles O2: a request that enters its home is attempted there as it arrived, and the attempt's own lemma gives the effect. -/
theorem memoryRequestsComplete : Obligations.MemoryRequestsComplete := by
  unfold Obligations.MemoryRequestsComplete
  intro s u v x t q p w l ps hs
  refine ⟨?load, ?store, ?single, ?list, ?ranked, ?fence, ?reduce⟩
  case load =>
    intro hop hspace he hnow
    obtain ⟨⟨_, rfl⟩, hfirst⟩ := memEntered_eq he
    exact congrArg Host.Outcome.next (arrive_entered (answer := (countJoined u · q p)) hs he (decide_eq_true hop) (serveOp_load hop hspace)
      ((attemptMem_load hop hfirst).trans (attemptLoad_now hnow)))
  case store =>
    intro hop hspace he hnow hchecked
    obtain ⟨⟨_, rfl⟩, hfirst⟩ := memEntered_eq he
    exact congrArg Host.Outcome.next (arrive_entered (answer := id) hs he (by simp [hop, hspace]) (serveOp_store hop hspace)
      ((attemptMem_store hop hfirst).trans (attemptStore_now hnow hchecked)))
  case single =>
    intro y hop he hplain hsingle hnow hcheck hgood
    obtain ⟨⟨_, rfl⟩, -⟩ := memEntered_eq he
    exact exec_atomic_entered hs he hop (attemptAtomic_single hplain hnow hcheck hsingle hgood)
  case list =>
    intro y w' x' acc z hop he hplain hlist hnow haccept hcheck happlied
    obtain ⟨⟨_, rfl⟩, -⟩ := memEntered_eq he
    exact exec_atomic_entered hs he hop (attemptAtomic_list hplain hnow hcheck hlist haccept happlied)
  case ranked =>
    intro hop he hranked
    obtain ⟨⟨_, rfl⟩, -⟩ := memEntered_eq he
    exact exec_atomic_entered hs he hop (attemptAtomic_ranked hranked rfl)
  case fence =>
    intro hop he hepoch hclear
    obtain ⟨⟨_, rfl⟩, hfirst⟩ := memEntered_eq he
    exact congrArg Host.Outcome.next (arrive_entered (answer := id) hs he (decide_eq_true hop) (serveOp_fence hop)
      ((attemptMem_fence hop hfirst).trans (attemptFence_clear rfl hepoch hclear)))
  case reduce =>
    intro hop he hnow hback
    obtain ⟨⟨_, rfl⟩, hfirst⟩ := memEntered_eq he
    exact congrArg Host.Outcome.next (arrive_entered (answer := id) hs he (decide_eq_true hop) (serveOp_reduceWrite hop)
      ((attemptMem_reduceWrite hop hfirst).trans (attemptReduceWrite_now hnow hback)))

end

/-! ### Job commands

What each job command does when nothing turns it away, and its row (O16). -/

namespace Sys2Proof.Machine

/-! ### Job sets and jobs (R121, R135, R136, R143) -/

theorem setPortJobs_accepted {u : State} (c : Caller) {q : Nat} {jobs : List Nat} (hq : q < 512) (hmany : jobs.length ≤ 64)
    (hjobs : badItem 4 2 (fun j => 65536 ≤ j) jobs = none) (hport : isLport u q = true) :
    setPortJobs u c q jobs = answerOk
      (((sortAsc (portJobs u q ++ jobs)).filter fun j => (portJobs u q).contains j ≠ jobs.contains j).foldl jobsetMoved
        { u with pool := { u.pool with portJobs := tset u.pool.portJobs q jobs } }) c mbSET_PORT_JOBS [] := by
  simp only [setPortJobs, if_neg hq.not_ge, if_neg hmany.not_gt, hjobs, hport, Bool.not_true, Bool.false_eq_true, if_false]

/-- The job that INSTALL_JOB's arguments describe (Table 5-6). -/
def installedJob (a : InstallJobArgs) : Job :=
  { ttRoot := a.ttRoot, pagerCap := a.pagerCap, pagerNode := a.pagerNode, faultSlots := a.faultSlots
    parkTimeout := a.parkTimeout, ranked := decide (a.ranked = 1), rankedSet := sortAsc a.rankedSet }

theorem installJob_accepted {u : State} (c : Caller) {a : InstallJobArgs} (hargs : installBad u a = none) (hnew : thas u.pool.jobs a.job = false) :
    installJob u c a =
      let v := jobsetMoved (setJob u a.job (installedJob a)) a.job
      answerOk (settle (noteLost v (v.pool.stacksLost ≠ []))) c mbINSTALL_JOB [] := by
  simp only [installJob, hargs, hnew, Bool.false_eq_true, if_false]
  rfl

theorem removeJob_installed {u : State} (c : Caller) {job : Nat} {j : Job} (hj : tget u.pool.jobs job = some j) :
    removeJob u c job =
      let v := failAll { u with pool := { u.pool with jobs := tdel u.pool.jobs job, xlate := u.pool.xlate.filter fun e => e.1.2.1 ≠ job } }
        (fun w => parks w.why && w.req.pkt.job = job) kJOB_UNKNOWN
      settle (startFence (jobsetMoved (releaseJobBeads (closeJobChannels ((ownedWindows v job).foldl forceRevoke v) job) job) job)
        { caller := some (c, mbREMOVE_JOB), probe := (jobLeaves u j).flatMap fun x => heldOfLeaf u x.1 x.2, spans := [(job, 0, 2 ^ 48)] }) := by
  simp only [removeJob, hj]

/-! ### Entries of translation tables (R132) -/

/-- Entries that no argument and none of themselves turns away are written. -/
theorem writeTt_accepted {u : State} (c : Caller) {a : WriteTtArgs} (hjob : thas u.pool.jobs a.job = true) (hlevel : a.level < 4)
    (hrange : a.first + a.entries.length ≤ 2 ^ levelBits a.level) (haligned : a.table % (8 * 2 ^ levelBits a.level) = 0)
    (hinside : a.table + 8 * 2 ^ levelBits a.level ≤ ttSize u) (hentries : ∀ e ∈ a.entries, e < 2 ^ 64 ∧ entryRefused u a.level e = false) :
    writeTt u c a = writeEntries u c mbWRITE_TT_ENTRIES a.level (a.entries.mapIdx fun i e => (a.table + 8 * (a.first + i), e)) none := by
  have htable : ¬ (a.table % (8 * 2 ^ levelBits a.level) ≠ 0 ∨ ttSize u < a.table + 8 * 2 ^ levelBits a.level) := by omega
  have hgood : (a.entries.findIdx? fun e => decide (2 ^ 64 ≤ e) || entryRefused u a.level e) = none :=
    List.findIdx?_eq_none_iff.mpr fun e he => by
      obtain ⟨hfits, htaken⟩ := hentries e he
      rw [htaken, decide_eq_false hfits.not_ge, Bool.or_self]
  simp only [writeTt, hjob, if_neg hlevel.not_ge, if_neg hrange.not_gt, if_neg htable, hgood, Bool.not_true, Bool.false_eq_true, if_false]

/-! ### Faults (R141, R574) -/

section Resolve

variable {u : State} (c : Caller) {a : ResolveFaultArgs} {j : Job} {f : PageFault} (hargs : resolveBad a = none)
  (hj : tget u.pool.jobs a.job = some j) (hf : tget j.faults a.fid = some f)
include hargs hj hf

/-- RETRY without a leaf closes the fault and runs its requests again. -/
theorem resolveFault_retry (hleaf : a.hasLeaf = 0) (hretry : a.outcome = 0) :
    resolveFault u c a = answerOk (settle (rerunAll (closeFault u a.job a.fid) (onFault a.job a.fid))) c mbRESOLVE_FAULT [] := by
  simp only [resolveFault, hargs, hj, hf, hleaf, hretry, zero_ne_one, if_false, if_true]

/-- The other outcomes close the fault and fail its requests. -/
theorem resolveFault_fail (hleaf : a.hasLeaf = 0) (hfail : a.outcome ≠ 0) :
    resolveFault u c a = answerOk (settle (failAll (closeFault u a.job a.fid) (onFault a.job a.fid)
      (if a.outcome = 1 then kADDRESS_INVALID else kACCESS_DENIED))) c mbRESOLVE_FAULT [] := by
  simp only [resolveFault, hargs, hj, hf, hleaf, if_neg hfail, zero_ne_one, if_false]

/-- RETRY with a leaf writes it over the LEAF entry that covers the page. -/
theorem resolveFault_leaf {off e : Nat} (hleaf : a.hasLeaf = 1) (htaken : entryRefused u (3 - f.psize) a.leaf = false)
    (hentry : coveringEntry u a.job f.page (3 - f.psize) = some (off, e)) (hkind : ttKind e = 2) :
    resolveFault u c a = writeEntries u c mbRESOLVE_FAULT (3 - f.psize) [(off, a.leaf)] (some (a.job, a.fid)) := by
  simp only [resolveFault, hargs, hj, hf, hleaf, resolveLeaf, htaken, hentry, hkind, Bool.false_eq_true, if_false, if_true]

end Resolve

end Sys2Proof.Machine

section
open Sys2Proof Sys2Proof.Machine

/-- Settles O16: each command that the gate lets go runs in `startCmd s c`, where its checks pass and its own lemma gives the effect. -/
theorem jobCommandsComplete : Obligations.JobCommandsComplete := by
  unfold Obligations.JobCommandsComplete
  rintro s _ c rfl
  refine ⟨?set, ?install, ?remove, ?write, ?resolve⟩
  case set =>
    intro q jobs hg hq hmany hjobs hport
    exact next_mboxRun_go hg (setPortJobs_accepted c hq hmany hjobs hport)
  case install =>
    rintro a _ _ hg hargs hnew rfl rfl
    exact next_mboxRun_go hg (installJob_accepted c hargs hnew)
  case remove =>
    rintro job j _ hg hj rfl
    exact next_mboxRun_go hg (removeJob_installed c hj)
  case write =>
    intro a hg hjob hlevel hrange haligned hinside hentries
    exact next_mboxRun_go hg (writeTt_accepted c hjob hlevel hrange haligned hinside hentries)
  case resolve =>
    intro a j f hg hargs hj hf
    refine ⟨?retry, ?fail, ?leaf⟩
    case retry =>
      intro hleaf hretry
      exact next_mboxRun_go hg (resolveFault_retry c hargs hj hf hleaf hretry)
    case fail =>
      intro hleaf hfail
      exact next_mboxRun_go hg (resolveFault_fail c hargs hj hf hleaf hfail)
    case leaf =>
      intro off e hleaf htaken hentry hkind
      exact next_mboxRun_go hg (resolveFault_leaf c hargs hj hf hleaf htaken hentry hkind)

end

/-! ### Waiting requests

Timers of parked requests, ranked epochs, combining entries, lines and translation fences (O28). -/

namespace Sys2Proof.Machine

/-! ### Parked requests (R139, R142; log entry 101) -/

theorem faultTimeout_due {s : State} {job fid : Nat} {j : Job} {f : PageFault} (hj : tget s.pool.jobs job = some j) (hf : tget j.faults fid = some f)
    (hdue : due s f.opened (j.parkTimeout * us 100) = true) :
    faultTimeout s job fid = failAll (closeFault
      (bump s (cFAULT_TIMEOUT_COUNT (((s.pool.waiters.find? (onFault job fid)).map (·.quarter)).getD 0))) job fid) (onFault job fid) kFAULT_TIMEOUT := by
  simp only [faultTimeout, hj, hf, hdue, Bool.not_true, Bool.false_eq_true, if_false]

theorem flowExpiry_due {s : State} {src flow fseq job : Nat} {t : Ns} (hpending : tget s.pool.pendingFlow (src, flow, fseq) = some (t, job))
    (hdue : due s t (parkTimeout s job) = true) :
    flowExpiry s src (myNode s) flow fseq = { s with pool := { s.pool with pendingFlow := tdel s.pool.pendingFlow (src, flow, fseq) } } := by
  simp only [flowExpiry, hpending]
  exact if_pos (by simp [hdue])

/-! ### Ranked epochs (R153) -/

theorem epochTimeout_due {s : State} {job r : Nat} {j : Job} {t : Ns} {l : List Nat} (hj : tget s.pool.jobs job = some j)
    (hepoch : tget j.epochs r = some (some t, l)) (hdue : due s t (j.parkTimeout * us 100) = true) (hmissing : unclosed j r ≠ []) :
    epochTimeout s job r = rankedRecords (applyEpoch s job r) job r (sortAsc (unclosed j r)) := by
  simp only [epochTimeout, hj, hepoch]
  exact if_pos (by simp [hdue, hmissing])

/-! ### Combining entries, lines and fences (R135, R147, R198) -/

theorem sendCombined_unsent {s : State} {i : Nat} {e : Combine} (he : tget s.pool.combine i = some e) (hunsent : e.sent = false) :
    sendCombined s i = sendOwn (setCombine s i { e with sent := true }) (.combinedAtomic i) (combinedPacket e) := by
  simp only [sendCombined, he, hunsent, Bool.false_eq_true, if_false]

theorem exec_combinedAtomicSend_unsent {s : State} {dst i : Nat} {e : Combine} (he : tget s.pool.combine i = some e) (hdst : e.head.dst = dst)
    (hunsent : e.sent = false) (hop : e.head.op = opATOMIC) :
    exec (.combinedAtomicSend dst i) s = .next (sendOwn (setCombine s i { e with sent := true }) (.combinedAtomic i) (combinedPacket e)) := by
  refine congrArg Host.Outcome.next ?_
  simp only [he]
  exact (if_pos (by simp [hdst, hunsent, hop])).trans (sendCombined_unsent he hunsent)

/-- The first request that waits for a line at rest runs. -/
theorem releaseLine_atRest {s : State} {h : Nat} {w : Waiter} {r : List Waiter} (hrest : underWay s h = false)
    (hfirst : sortBy (fun w => w.req.order) (s.pool.waiters.filter fun w => w.why = .line h) = w :: r) :
    releaseLine s h = transactionOver (rerun s w) h := by
  simp only [releaseLine, hrest, hfirst, Bool.false_eq_true, if_false]

theorem fenceDone_free {s : State} {n : Nat} {f : Fence} (hf : tget s.pool.fences n = some f) (hprobed : probeDone s f.probe = true)
    (hunused : beadsUse s f.spans = false) : fenceDone s n = fenceOver { s with pool := { s.pool with fences := tdel s.pool.fences n } } f := by
  simp only [fenceDone, hf, hprobed, hunused, Bool.not_false, Bool.and_self, if_true]

end Sys2Proof.Machine

section
open Sys2Proof Sys2Proof.Machine

/-- Settles O28: each timer finds what it waits for due, and its own lemma gives the effect. -/
theorem waitingRequestsAreReleased : Obligations.WaitingRequestsAreReleased := by
  unfold Obligations.WaitingRequestsAreReleased
  intro s
  refine ⟨?fault, ?flow, ?parked, ?apply, ?late, ?combined, ?line, ?fence⟩
  case fault =>
    intro job fid j f hj hf hdue
    exact congrArg (fun u => Host.Outcome.next (settle u)) (faultTimeout_due hj hf hdue)
  case flow =>
    intro src flow fseq t job hpending hdue
    exact congrArg (fun u => Host.Outcome.next (settle u)) (flowExpiry_due hpending hdue)
  case parked => exact fun q src msg => ⟨rfl, rfl⟩
  case apply =>
    intro job r hready
    exact congrArg Host.Outcome.next (if_pos hready)
  case late =>
    intro job r j t l hj hepoch hdue hmissing
    exact congrArg (fun u => Host.Outcome.next (settle u)) (epochTimeout_due hj hepoch hdue hmissing)
  case combined =>
    intro dst i e he hdst hunsent hop
    exact exec_combinedAtomicSend_unsent he hdst hunsent hop
  case line =>
    intro h w r hrest hfirst
    exact congrArg (fun u => Host.Outcome.next (settle u)) (releaseLine_atRest hrest hfirst)
  case fence =>
    intro n f hf hprobed hunused
    exact congrArg (fun u => Host.Outcome.next (settle u)) (fenceDone_free hf hprobed hunused)

end

/-! ### Window packets

WOPEN and WREVOKE at their service (O5): what each does when nothing turns it away, and its row. -/

namespace Sys2Proof.Machine

theorem newHere_iff {s : State} {p : Packet} : newHere s p = true ↔ dedupOf s p = none ∧ dedupFull s = false := by simp [newHere]

section Service

variable {s v : State} {t : Ns} {q c : Nat} {p : Packet} (hfresh : dedupOf s p = none) (hroom : dedupFull s = false)
include hfresh hroom

/-- A WOPEN for which a window is to be had is answered its capability (R171, R172). -/
theorem serveWopen_opened (hgood : wopenMalformed p = false) (haligned : p.addr % 128 = 0) (hjob : thas s.pool.jobs p.job = true)
    (hopen : openWindowAt (openDedup s p) (quarterOf q) (wopenAsk p) = (.cap c, v)) :
    serveWopen s (arrived t q p) = respondOk v q p (le 8 c) := by
  simp only [serveWopen, arrived, hfresh, hgood, if_neg (not_not_intro haligned), hjob, hroom, hopen, Bool.not_true, Bool.false_eq_true, if_false]

variable (hgood : ¬ (p.addr ≠ 0 ∨ p.oparg ≠ 0 ∨ lenOf p ≠ 0 ∨ p.pcnt ≠ 0))
include hgood

/-- A WREVOKE of an OPEN window waits for the drain, and the window's generation moves (R174, R177). -/
theorem serveWrevoke_start (hcase : revokeCase s p.cap (some p.job) = .start) :
    serveWrevoke s (arrived t q p) = startRevoke (modWindow (accept s (entrant t q p)).2 (capIndex p.cap)
      fun x => { x with waitReq := x.waitReq ++ [(accept s (entrant t q p)).1.req] }) (capIndex p.cap) := by
  simp only [serveWrevoke, arrived, hfresh, if_neg hgood, hroom, hcase, Bool.false_eq_true, if_false, entrant]

/-- A WREVOKE of a window whose revoke is under way waits for the drain (R178). -/
theorem serveWrevoke_join (hcase : revokeCase s p.cap (some p.job) = .join) :
    serveWrevoke s (arrived t q p) = modWindow (accept s (entrant t q p)).2 (capIndex p.cap)
      fun x => { x with waitReq := x.waitReq ++ [(accept s (entrant t q p)).1.req] } := by
  simp only [serveWrevoke, arrived, hfresh, if_neg hgood, hroom, hcase, Bool.false_eq_true, if_false, entrant]

/-- A WREVOKE of a window already revoked is answered at once (R174). -/
theorem serveWrevoke_done (hcase : revokeCase s p.cap (some p.job) = .done) :
    serveWrevoke s (arrived t q p) = respondOk (openDedup s p) q p [] := by
  simp only [serveWrevoke, arrived, hfresh, if_neg hgood, hroom, hcase, Bool.false_eq_true, if_false]

end Service

end Sys2Proof.Machine

section
open Sys2Proof Sys2Proof.Machine

/-- Settles O5: each of the two rows serves its packet by its operation; what the revoke meets decides among the cases of WREVOKE. -/
theorem windowPacketsComplete : Obligations.WindowPacketsComplete := by
  unfold Obligations.WindowPacketsComplete
  intro s u t q p hs hnew
  obtain ⟨hfresh, hroom⟩ := newHere_iff.mp hnew
  refine ⟨?wopen, ?wrevoke⟩
  case wopen =>
    intro c v hop hgood haligned hjob hopen
    exact congrArg Host.Outcome.next (arrive_served (decide_eq_true hop) hs
      ((serveOp_wopen hop).trans (serveWopen_opened hfresh hroom hgood haligned hjob hopen)))
  case wrevoke =>
    intro hop haddr hoparg hlen hpcnt
    have hgood : ¬ (p.addr ≠ 0 ∨ p.oparg ≠ 0 ∨ lenOf p ≠ 0 ∨ p.pcnt ≠ 0) := by omega
    have row {v : State} (hv : serveWrevoke u (arrived t q p) = v) : exec (.wrevoke q p) s = .next (finish s q p v) :=
      congrArg Host.Outcome.next (arrive_served (decide_eq_true hop) hs ((serveOp_wrevoke hop).trans hv))
    refine ⟨?start, ?join, ?done⟩
    case start => exact fun hcase => row (serveWrevoke_start hfresh hroom hgood hcase)
    case join => exact fun hcase => row (serveWrevoke_join hfresh hroom hgood hcase)
    case done => exact fun hcase => row (serveWrevoke_done hfresh hroom hgood hcase)

end

/-! ### Window and agent commands

What each window or agent command does when nothing turns it away, and its row (O15). -/

namespace Sys2Proof.Machine

/-! ### Windows (R171 to R174, R180, R182) -/

/-- What an OPEN_WINDOW asks for, as a WOPEN would (R182). -/
def mailboxAsk (a : OpenWindowArgs) : OpenAsk :=
  { job := a.job, rights := a.rights, base := a.base, length := a.length, evtCap := a.evtCap, evtNode := a.evtNode, evtLog2 := a.evtLog2, via := true }

theorem mailboxOpen_opened {u w : State} (c : Caller) {a : OpenWindowArgs} {v : Nat} (hrights : a.rights < 32)
    (hgood : openMalformed (mailboxAsk a) = false) (haligned : a.base % 128 = 0) (hjob : thas u.pool.jobs a.job = true)
    (hopen : openWindowAt u (callerQuarter u c) (mailboxAsk a) = (.cap v, w)) : mailboxOpen u c a = answerOk w c mbOPEN_WINDOW (le 8 v) := by
  simp only [mailboxAsk] at hgood hopen
  simp only [mailboxOpen, if_neg hrights.not_ge, hgood, if_neg (not_not_intro haligned), hjob, hopen, Bool.not_true, Bool.false_eq_true, if_false]

section Revoke

variable {u : State} {c : Caller} {cap : Nat} (hown : ownJob u c (windowAt u (capIndex cap)).ownerJob = true)
include hown

theorem mailboxRevoke_start (hcase : revokeCase u cap none = .start) :
    mailboxRevoke u c cap = settle (startRevoke (waitDrain u c (capIndex cap)) (capIndex cap)) := by
  simp only [mailboxRevoke, hcase, hown, Bool.not_true, Bool.false_eq_true, if_false]

theorem mailboxRevoke_join (hcase : revokeCase u cap none = .join) : mailboxRevoke u c cap = waitDrain u c (capIndex cap) := by
  simp only [mailboxRevoke, hcase, hown, Bool.not_true, Bool.false_eq_true, if_false]

theorem mailboxRevoke_done (hcase : revokeCase u cap none = .done) : mailboxRevoke u c cap = answerOk u c mbREVOKE_WINDOW [] := by
  simp only [mailboxRevoke, hcase, hown, Bool.not_true, Bool.false_eq_true, if_false]

end Revoke

section Force

variable {u : State} {c : Caller} {i : Nat} (hfm : callerClass c = .fm) (hi : i < 2 ^ 20)
include hfm hi

theorem mailboxForce_open (hstate : (windowAt u i).state = .open_) : mailboxForce u c i = settle (startRevoke (waitDrain u c i) i) := by
  simp only [mailboxForce, if_neg (not_not_intro hfm), if_neg hi.not_ge, hstate]

theorem mailboxForce_revoked (hstate : (windowAt u i).state = .revoked) : mailboxForce u c i = answerOk u c mbREVOKE_WINDOW [] := by
  simp only [mailboxForce, if_neg (not_not_intro hfm), if_neg hi.not_ge, hstate]

end Force

theorem mailboxQuery_own {u : State} {c : Caller} {i : Nat} (hi : i < 2 ^ 20) (hown : ownJob u c (windowAt u i).ownerJob = true) :
    mailboxQuery u c i = answerOk u c mbQUERY_WINDOW
      (descriptorBytes (windowAt u i) ++ le 4 (windowAt u i).inflight ++ le 4 (windowAt u i).violations ++ le 4 (windowAt u i).evSeq) := by
  simp only [mailboxQuery, if_neg hi.not_ge, hown, Bool.not_true, Bool.false_eq_true, if_false]

theorem setQuota_accepted (u : State) (c : Caller) {job quota : Nat} (hjob : job < 65536) (hquota : quota ≤ 1048576) :
    setQuota u c job quota = answerOk { u with win := { u.win with quota := tset u.win.quota job quota } } c mbSET_WINDOW_QUOTA [] := by
  simp only [setQuota, if_neg hjob.not_ge, if_neg hquota.not_gt]

/-! ### Agents (R188, R208) -/

@[simp] theorem agentOf_setAgent_same (s : State) (a : Nat) (x : Agent) : agentOf (setAgent s a x) a = x := tgetD_tset_same _ _ _ _

@[simp] theorem lport_startCmd (s : State) (c : Caller) (q : Nat) : lport (startCmd s c) q = lport s q := by simp only [lport, startCmd_links]

@[simp] theorem agentOf_answerOk (s : State) (c : Caller) (op : Nat) (b : List Byte) (a : Nat) : agentOf (answerOk s c op b) a = agentOf s a := by
  simp only [agentOf, answerOk_coh]

/-- The agent that ATTACH_AGENT enters (R188). -/
def attachedAgent (s : State) (n snp credits : Nat) : Agent :=
  { state := .attached, node := (lport s (agentPort n)).partnerNode, snpCap := snp, creqCredits := credits }

theorem attachAgent_accepted {u : State} (c : Caller) {n snp credits : Nat} (hn : n < 64) (hsnp : 64 ≤ snp) (hsnp' : snp ≤ 1024) (hcredits : 1 ≤ credits)
    (hcredits' : credits ≤ 256) (hmay : mayAttach u n = true) :
    attachAgent u c n snp credits = answerOk (setAgent u n (attachedAgent u n snp credits)) c mbATTACH_AGENT [] := by
  have hsnpRange : ¬ (snp < 64 ∨ 1024 < snp) := by omega
  have hcreditRange : ¬ (credits = 0 ∨ 256 < credits) := by omega
  simp only [attachAgent, if_neg hn.not_ge, if_neg hsnpRange, if_neg hcreditRange, hmay, Bool.not_true, Bool.false_eq_true, if_false, attachedAgent]

/-- An attached agent is DETACHING; with FORCE it is reclaimed, else its lines are taken back. -/
theorem detachAgent_attached {u : State} (c : Caller) {n force : Nat} (hn : n < 64) (hforce : force ≤ 1) (hstate : (agentOf u n).state = .attached) :
    detachAgent u c n force =
      let v := setAgent u n { agentOf u n with state := .detaching, detach := (agentOf u n).detach ++ [c] }
      settle (if force = 1 then startReclaim v n else probeAgent v n) := by
  simp only [detachAgent, if_neg hn.not_ge, if_neg hforce.not_gt, hstate, reduceCtorEq, false_and, or_self, if_false]

end Sys2Proof.Machine

section
open Sys2Proof Sys2Proof.Machine

/-- Settles O15: each command that the gate lets go runs in `startCmd s c`, where its checks pass and its own lemma gives the effect. -/
theorem windowAndAgentCommandsComplete : Obligations.WindowAndAgentCommandsComplete := by
  unfold Obligations.WindowAndAgentCommandsComplete
  rintro s _ c rfl
  refine ⟨?open_, ?revoke, ?force, ?query, ?quota, ?attach, ?detach⟩
  case open_ =>
    intro a v w hg hrights hgood haligned hjob hopen
    exact next_mboxRun_go hg (mailboxOpen_opened c hrights hgood haligned hjob hopen)
  case revoke =>
    intro cap hg hown
    exact ⟨fun hcase => next_mboxRun_go hg (mailboxRevoke_start hown hcase), fun hcase => next_mboxRun_go hg (mailboxRevoke_join hown hcase),
      fun hcase => next_mboxRun_go hg (mailboxRevoke_done hown hcase)⟩
  case force =>
    intro i hg hfm hi
    exact ⟨fun hstate => next_mboxRun_go hg (mailboxForce_open hfm hi hstate), fun hstate => next_mboxRun_go hg (mailboxForce_revoked hfm hi hstate)⟩
  case query =>
    intro i hg hi hown
    exact next_mboxRun_go hg (mailboxQuery_own hi hown)
  case quota =>
    intro job quota hg hjob hquota
    refine ⟨_, next_mboxRun_go hg (setQuota_accepted _ c hjob hquota), ?_, ?_, ?_, answerOk_of_gate hg (startCmd_supply s c) rfl rfl⟩
    · simp only [answerOk_win, tget_tset_same]
    · simp only [answerOk_win, startCmd_win]
    · simp only [answerOk_pool, startCmd_pool]
  case attach =>
    intro n snp credits hg hn hsnp hsnp' hcredits hcredits' hmay
    refine ⟨_, next_mboxRun_go hg (attachAgent_accepted c hn hsnp hsnp' hcredits hcredits' hmay), answerOk_of_gate hg (startCmd_supply s c) rfl rfl, ?_, ?_, ?_⟩
    · simp only [agentOf_answerOk, agentOf_setAgent_same, attachedAgent, lport_startCmd]
    · simp only [answerOk_coh, setAgent, startCmd_coh]
    · simp only [answerOk_pool, setAgent, startCmd_pool]
  case detach =>
    intro n hg hn hstate
    exact ⟨next_mboxRun_go hg (detachAgent_attached c hn zero_le_one hstate), next_mboxRun_go hg (detachAgent_attached c hn le_rfl hstate)⟩

end

/-! ### Timers of windows, agents and the near tier

What each of these events does when what it waits for has come about (O29). -/

namespace Sys2Proof.Machine

/-! ### Marks, write-backs and flushes (R220, R222, R223) -/

theorem sendMark_waiting {s : State} {page : Nat} {ls : List Nat} {t : Ns} (h : tget s.pool.toMark page = some (ls, t)) :
    sendMark s page =
      let u := { s with pool := { s.pool with toMark := tdel s.pool.toMark page } }
      trayStore (bump u (cNEAR_MARKS_SENT (lineQuarter u (page * 512)))) (.mark page ls) (nodeOf (page * 65536)) 3 0x1000 (pageMask page ls) := by
  simp only [sendMark, h]

/-- A quarter that reaches its start threshold begins to write lines back, and goes on until it is 10 points below. -/
theorem cleanQuarter_start {s : State} {n : Nat} (habove : dirtyAbove s n (cleanStart s) = true) (hidle : n ∉ s.pool.cleaning) (htrim : n ∉ s.pool.trimming) :
    cleanQuarter s n =
      let u := { s with pool := { s.pool with cleaning := s.pool.cleaning ++ [n] } }
      let v := (cleanBatch u n ((cleanStart u - 10) * budgetShare u / 100)).foldl writeBack u
      if (cleanStart v - 10) * budgetShare v < 100 * (dirtyLines v n).length then v
      else { v with pool := { v.pool with cleaning := v.pool.cleaning.filter (· ≠ n) } } := by
  have hstarts : (decide (n ∈ s.pool.cleaning) || dirtyAbove s n (cleanStart s) && !decide (n ∈ s.pool.trimming)) = true := by simp [habove, htrim]
  simp only [cleanQuarter, hstarts, if_true, if_neg hidle]

theorem endFlush_called {s : State} {f : Flush} {c : Caller} (hover : s.pool.flushes.find? (flushOver s) = some f) (hcaller : f.caller = some c) :
    endFlush s = answerOk { s with pool := { s.pool with flushes := s.pool.flushes.erase f } } c mbFLUSH_NEAR_TIER (le 8 (f.count - f.lines.length)) := by
  simp only [endFlush, hover, hcaller]

/-! ### Trays and lost ranges (R233, R235) -/

theorem trayBack_reachable {s : State} {n : Nat} (haway : n ∈ s.pool.unreachable)
    (hback : trayReachable { s with pool := { s.pool with unreachable := s.pool.unreachable.filter (· ≠ n) } } n = true) :
    trayBack s n =
      flushAdvance (rerunAll { s with pool := { s.pool with unreachable := s.pool.unreachable.filter (· ≠ n) } } (fun w => w.why = .tray n)) := by
  simp only [trayBack, if_pos haway, hback, if_true]

/-- The record that tells a job's pager that its pool range is gone (R235). -/
def poolFatalRecord (s : State) (job : Nat) (j : Job) : EventRec :=
  { etype := ePOOL_FATAL, sev := sevFATAL, uclass := 15, node := myNode s, time := timeNow s, seq := j.fatalSeq + 1, arg0 := job, arg1 := flag j.lostStack }

theorem reportPoolFatal_unsent {s : State} {job : Nat} {j : Job} (hj : tget s.pool.jobs job = some j) (hlost : j.lostAt.isSome = true)
    (hunsent : j.fatalSent = false) :
    reportPoolFatal s job = raise (sendRecord (setJob s job { j with fatalSent := true, fatalSeq := j.fatalSeq + 1 })
      (.poolFatal job) j.pagerNode j.pagerCap (64 * j.faultSlots) (eventBytes (poolFatalRecord s job j))) (poolFatalRecord s job j) := by
  have hreports : ¬ (j.lostAt.isNone || j.fatalSent) = true := by simpa [hunsent] using Option.isSome_iff_ne_none.mp hlost
  simp only [reportPoolFatal, hj, if_neg hreports, poolFatalRecord]

end Sys2Proof.Machine

section
open Sys2Proof Sys2Proof.Machine

/-- Settles O29: each timer finds what it waits for; its row, or its own lemma where the meaning has more than the one condition, gives the effect. -/
theorem windowAgentAndTierTimersAct : Obligations.WindowAgentAndTierTimersAct := by
  unfold Obligations.WindowAgentAndTierTimersAct
  intro s i a
  refine ⟨?drain, ?reseed, ?snoop, ?scan, ?gone, ?probe, ?mark, ?threshold, ?budget, ?flush, ?stack, ?tray, ?fatal⟩
  case drain =>
    intro hmay
    exact ⟨congrArg Host.Outcome.next (if_pos hmay), fun hheld => congrArg Host.Outcome.next (if_pos (by simp [hmay, hheld]))⟩
  case reseed => exact fun hruns => congrArg Host.Outcome.next (if_pos hruns)
  case snoop =>
    intro h hlate hstate
    exact congrArg Host.Outcome.next (if_pos (by simp [hlate, hstate]))
  case scan => exact fun hstate => congrArg Host.Outcome.next (if_pos hstate)
  case gone =>
    intro hstate hquiet
    exact congrArg Host.Outcome.next ((if_pos hstate).trans (congrArg settle (if_pos hquiet)))
  case probe =>
    intro hstate hbusy
    exact congrArg Host.Outcome.next ((if_pos hstate).trans (congrArg settle (if_neg (Bool.eq_false_iff.mp hbusy))))
  case mark => exact fun page ls t hwaits => congrArg Host.Outcome.next (sendMark_waiting hwaits)
  case threshold =>
    rintro _ _ habove hidle htrim rfl rfl
    exact congrArg Host.Outcome.next (cleanQuarter_start habove hidle htrim)
  case budget => exact fun hbelow => congrArg Host.Outcome.next (if_neg (Bool.eq_false_iff.mp hbelow))
  case flush =>
    rintro f c _ rfl hover hcaller
    exact congrArg (fun u => Host.Outcome.next (settle u)) (endFlush_called hover hcaller)
  case stack => exact fun hi => congrArg Host.Outcome.next (if_pos hi)
  case tray =>
    rintro _ rfl haway hback
    exact congrArg (fun u => Host.Outcome.next (settle u)) (trayBack_reachable haway hback)
  case fatal =>
    rintro j _ hj hlost hunsent rfl
    exact congrArg Host.Outcome.next (reportPoolFatal_unsent hj hlost hunsent)

end

/-! ### The coherence domain

Requests and answers of agents: what a CREQ does that its agent may send, how an answer ends its snoop, and their rows (O6). -/

namespace Sys2Proof.Machine

/-! ### A CREQ at its home (R188, R191, R192) -/

/-- A CREQ that its agent may send gives its line up where it is WB_DIRTY or EVICT_CLEAN, and asks for one otherwise. -/
theorem serveCreq_checked {s : State} {q : Nat} {p : Packet} (t : Ns) (h : creqChecked s q p = true) :
    serveCreq s (arrived t q p) = if 3 ≤ ckind p then creqGiveUp s (entrant t q p) else creqRead s (entrant t q p) := by
  simp only [creqChecked, Bool.and_eq_true, Bool.or_eq_true, Bool.not_eq_true', decide_eq_true_eq] at h
  obtain ⟨⟨⟨⟨hgood, hsrc⟩, hattached⟩, hcredit⟩, haligned⟩ := h
  have hformed : ¬ (creqMalformed p || decide (p.src ≠ (lport s q).partnerNode)) = true := by simp [hgood, hsrc]
  have hattempt : attemptCreq s (entrant t q p) = if 3 ≤ ckind p then creqGiveUp s (entrant t q p) else creqRead s (entrant t q p) :=
    (if_neg (by simp [entrant, arrived, creqAgent, hattached])).trans ((if_neg Bool.false_ne_true).trans (if_pos (.inl hattached)))
  exact (if_neg hformed).trans ((if_neg fun h => hcredit.not_ge h.2).trans ((if_neg (by simp only [arrived]; omega)).trans hattempt))

theorem serveCreq_read {s : State} {q : Nat} {p : Packet} (t : Ns) (h : creqChecked s q p = true) (hkind : ckind p < 3) :
    serveCreq s (arrived t q p) = creqRead s (entrant t q p) :=
  (serveCreq_checked t h).trans (if_neg hkind.not_ge)

theorem serveCreq_giveUp {s : State} {q : Nat} {p : Packet} (t : Ns) (h : creqChecked s q p = true) (hkind : 3 ≤ ckind p) :
    serveCreq s (arrived t q p) = creqGiveUp s (entrant t q p) :=
  (serveCreq_checked t h).trans (if_pos hkind)

/-- A CREQ whose line is to be had meets the line's directory entry (Table 7-6). -/
theorem creqRead_line {s v : State} {q h : Nat} {p : Packet} {y : Part} (t : Ns) (hline : creqLine s q p = some (h, y, v)) :
    creqRead s (entrant t q p) = creqOnEntry v (entrant t q p) h y.line y.leaf := by
  unfold creqLine at hline
  split at hline
  case h_2 => cases hline
  case h_1 l x hreach =>
  split at hline
  case h_2 => cases hline
  case h_1 y' ys hparts =>
  obtain ⟨hright, hline⟩ := Option.ite_none_left_eq_some.mp hline
  split at hline
  case h_1 => cases hline
  case h_2 x' hplace =>
  obtain ⟨halive, hline⟩ := Option.ite_none_left_eq_some.mp hline
  simp only [Bool.or_eq_true, not_or] at halive
  obtain ⟨hlive, himage⟩ := halive
  dsimp only at hline
  split at hline
  case h_1 => cases hline
  case h_2 h' hhln =>
  obtain ⟨hcached, hline⟩ := Option.ite_none_left_eq_some.mp hline
  cases hline
  have honLine : creqOnLine x (entrant t q p) y = creqOnEntry (lookupDir (countRead (expandPage x' p.job p.addr y.leaf) true [y]) h) (entrant t q p) h y.line y.leaf := by
    simp only [creqOnLine, entrant, arrived, hplace, if_neg hlive, if_neg himage, decide_true, hhln, if_neg hcached]
  simp only [creqRead, entrant, arrived, hreach, hparts]
  exact (if_neg hright).trans honLine

/-! ### Lines given up (Table 7-6) -/

section GiveUp

variable {s : State} {q l o : Nat} {p : Packet} (t : Ns) (hl : lineOfHln s p.addr = some l) (hfree : lineBusy s l p.addr 0 = false)
  (howned : dirState (lookupDir s p.addr) p.addr = some (.owned o))
include hl hfree howned

/-- WB_DIRTY of an owned line: the owner's data goes to memory and the entry is freed, another agent's data is stale. -/
theorem creqGiveUp_wbDirty (hkind : ckind p = 3) :
    creqGiveUp s (entrant t q p) =
      if o = q / 8 then crspTo (setDir (takeAgentData (lookupDir s p.addr) p.addr l (bit p.oparg 4) p.payload) p.addr none) (arrived t q p) p.addr 1
      else crspTo (bump (lookupDir s p.addr) (cDIR_WB_STALE (p.addr / 2 ^ 27))) (arrived t q p) p.addr 2 := by
  simp only [creqGiveUp, entrant, arrived, creqAgent, hl, hfree, howned, hkind, Bool.false_eq_true, if_false, if_true]

/-- EVICT_CLEAN of an owned line is answered EV_ACK; the owner's entry is freed. -/
theorem creqGiveUp_evictClean (hkind : ckind p = 4) :
    creqGiveUp s (entrant t q p) =
      crspTo (if o = q / 8 then setDir (lookupDir s p.addr) p.addr none else lookupDir s p.addr) (arrived t q p) p.addr 3 := by
  have hother : ckind p ≠ 3 := by omega
  simp only [creqGiveUp, entrant, arrived, creqAgent, hl, hfree, howned, hother, Bool.false_eq_true, if_false]
  split <;> rfl

end GiveUp

/-! ### Answers to snoops (R194, R195, R198, R199) -/

/-- Of an attached or detaching agent no answer comes late (R209). -/
theorem agent_not_away {s : State} {a : Nat} (h : (agentOf s a).state = .attached ∨ (agentOf s a).state = .detaching) :
    ¬ ((agentOf s a).state = .reclaiming ∨ (agentOf s a).state = .none) := by
  rcases h with h | h <;> simp [h]

section Answer

variable {s : State} {q h : Nat} {p : Packet} (hstate : (agentOf s (q / 8)).state = .attached ∨ (agentOf s (q / 8)).state = .detaching)
  (hsnoop : snoopOf s (q / 8) p = some h) (hgood : cohAnswerOk s q p = true)

include hstate hsnoop hgood

/-- SNP_I ends its snoop; it is stale where the line was asked to be shared. -/
theorem takeCrsp_dropped (hlen : lenOf p = 0) (hkind : p.oparg = 8) :
    takeCrsp s q p = snoopAnswered (if askedToShare s h then bump s (cDIR_STALE_SNOOP (h / 2 ^ 27)) else s) (q / 8) p.msg h false := by
  simp [takeCrsp, if_neg (agent_not_away hstate), hsnoop, hgood, hlen, hkind]

/-- SNP_S ends a snoop that asked to share; the agent keeps its copy. -/
theorem takeCrsp_kept (hlen : lenOf p = 0) (hkind : p.oparg = 9) (hshare : askedToShare s h = true) :
    takeCrsp s q p = snoopAnswered s (q / 8) p.msg h true := by
  simp [takeCrsp, if_neg (agent_not_away hstate), hsnoop, hgood, hlen, hkind, hshare]

/-- A CDAT ends its snoop once memory has its data. -/
theorem takeCdat_answered {l : Nat} (hlen : lenOf p = 128) (hoparg : p.oparg < 32)
    (hkind : p.oparg % 16 = 8 ∨ p.oparg % 16 = 9 ∧ askedToShare s h = true) (hl : lineOfHln s h = some l) :
    takeCdat s q p = snoopAnswered (takeAgentData s h l (bit p.oparg 4) p.payload) (q / 8) p.msg h (decide (p.oparg % 16 = 9)) := by
  have hwell : ¬ (!cohAnswerOk s q p || decide (lenOf p ≠ 128 ∨ 32 ≤ p.oparg)
      || !(decide (p.oparg % 16 = 8) || decide (p.oparg % 16 = 9) && askedToShare s h)) = true := by
    simp only [hgood, hlen, hoparg.not_ge, ne_eq, not_true_eq_false, or_self, decide_false, Bool.not_true, Bool.or_self, Bool.false_or,
      Bool.not_eq_true', Bool.not_eq_false, Bool.or_eq_true, Bool.and_eq_true, decide_eq_true_eq]
    exact hkind
  simp only [takeCdat, if_neg (agent_not_away hstate), hsnoop, if_neg hwell, hl]

end Answer

end Sys2Proof.Machine

section
open Sys2Proof Sys2Proof.Machine

/-- Settles O6: each row serves its packet by its operation; a CREQ asks for its line or gives it up by its kind, and an answer finds the snoop it names. -/
theorem coherenceRequestsMeetTheDirectory : Obligations.CoherenceRequestsMeetTheDirectory := by
  unfold Obligations.CoherenceRequestsMeetTheDirectory
  intro s u v t q h p hs
  refine ⟨?asks, ?givesUp, ?answers⟩
  case asks =>
    intro y hop hchecked hline
    have row {k : Nat} (hk : ckind p = k) (hread : k < 3) : arrive (p.op = opCREQ && ckind p = k) s q p =
        finish s q p (creqOnEntry v (entrant t q p) h y.line y.leaf) :=
      arrive_served (by simp [hop, hk]) hs ((serveOp_creq hop).trans ((serveCreq_read t hchecked (hk ▸ hread)).trans (creqRead_line t hline)))
    exact ⟨fun hk => congrArg Host.Outcome.next (row hk (by decide)), fun hk => congrArg Host.Outcome.next (row hk (by decide)),
      fun hk => congrArg Host.Outcome.next (row hk (by decide))⟩
  case givesUp =>
    intro l o hop hchecked hl hfree howned
    have row {k : Nat} {w : State} (hk : ckind p = k) (hgive : 3 ≤ k) (hw : creqGiveUp u (entrant t q p) = w) :
        arrive (p.op = opCREQ && ckind p = k) s q p = finish s q p w :=
      arrive_served (by simp [hop, hk]) hs ((serveOp_creq hop).trans ((serveCreq_giveUp t hchecked (hk ▸ hgive)).trans hw))
    exact ⟨fun hk => congrArg Host.Outcome.next (row hk le_rfl (creqGiveUp_wbDirty t hl hfree howned hk)),
      fun hk => congrArg Host.Outcome.next (row hk (by decide) (creqGiveUp_evictClean t hl hfree howned hk))⟩
  case answers =>
    intro hstate hsnoop hgood
    refine ⟨?dropped, ?kept, ?data⟩
    case dropped =>
      intro hop hlen hkind
      exact congrArg Host.Outcome.next (arrive_served (decide_eq_true hop) hs ((serveOp_crsp hop).trans (takeCrsp_dropped hstate hsnoop hgood hlen hkind)))
    case kept =>
      intro hop hlen hkind hshare
      exact congrArg Host.Outcome.next (arrive_served (decide_eq_true hop) hs ((serveOp_crsp hop).trans (takeCrsp_kept hstate hsnoop hgood hlen hkind hshare)))
    case data =>
      intro l hop hlen hoparg hkind hl
      exact congrArg Host.Outcome.next (arrive_served (decide_eq_true hop) hs
        ((serveOp_cdat hop).trans (takeCdat_answered hstate hsnoop hgood hlen hoparg hkind hl)))

end

/-! ### Commands of the near tier

What each near-tier or publishing command does when nothing turns it away, and its row (O17). -/

namespace Sys2Proof.Machine

/-! ### Trays (R234) -/

theorem declareLost_tray {u : State} (c : Caller) {tray : Nat} {e : NodeEntry} (htray : tray < 0x4000) (hnode : tget u.map.comp.nodes tray = some e)
    (hkind : e.kind = 2) :
    declareLost u c tray = answerOk (settle (flushAdvance (rerunAll (loseTray u tray) (onTray tray)))) c mbDECLARE_TRAY_LOST [] := by
  simp only [declareLost, if_neg htray.not_ge, hnode, if_neg (not_not_intro hkind)]

/-! ### Publish regions (R206, R229) -/

/-- The publish region that CREATE_PUBLISH_REGION's arguments describe. -/
def createdRegion (a : PublishArgs) : Region :=
  { job := a.job, span := spanBytes a.span, view := a.view, vword := a.vword, version := a.version, pubs := a.pubs }

/-- A region of an installed job over a page table, clear of the job's other regions, is entered; a fence takes its lines back. -/
theorem createRegion_accepted {u : State} (c : Caller) {a : PublishArgs} {off e : Nat} (hjob : thas u.pool.jobs a.job = true) (hargs : regionBad a = none)
    (hclear : ∀ g ∈ u.pool.regions, g.job = a.job → overlap a.view (spanBytes a.span) g.view g.span = false) (hroom : u.pool.regions.length < 65536)
    (hentry : coveringEntry u a.job a.view (spanLevel (spanBytes a.span)) = some (off, e)) (hkind : ttKind e = 1) :
    createRegion u c a = startFence { u with pool := { u.pool with regions := u.pool.regions ++ [createdRegion a] } }
      { caller := some (c, mbCREATE_PUBLISH_REGION), probe := heldUnder u (spanLevel (spanBytes a.span)) e } := by
  have hnone : ¬ (u.pool.regions.any fun g => g.job = a.job && overlap a.view (spanBytes a.span) g.view g.span) = true := by simpa using hclear
  simp only [createRegion, hjob, hargs, if_neg hnone, if_neg hroom.not_ge, hentry, if_neg (not_not_intro hkind), createdRegion,
    Bool.not_true, Bool.false_eq_true, if_false]

theorem deleteRegion_entered {u : State} (c : Caller) {job view : Nat} (h : ∃ g ∈ u.pool.regions, g.job = job ∧ g.view = view) :
    deleteRegion u c job view = answerOk
      { u with pool := { u.pool with regions := u.pool.regions.filter fun g => !(g.job = job && g.view = view) } } c mbDELETE_PUBLISH_REGION [] :=
  if_pos (by simpa using h)

/-! ### Restored pages (R228) -/

/-- Valid images are held for the compressed blocks that their pages name. -/
theorem restorePages_accepted {u : State} (c : Caller) {job va : Nat} {images : List (List Byte)} {bs : List Nat} (hjob : thas u.pool.jobs job = true)
    (haligned : va % 4096 = 0) (hrange : va + 4096 * images.length ≤ 2 ^ 48) (hvalid : ∀ x ∈ images, (decodeImage x).isSome = true)
    (hblocks : (List.range images.length).map (fun i => compressedBlock u job (va + 4096 * i)) = bs.map some) :
    restorePages u c job va images = answerOk ((bs.zip images).foldl holdImage u) c mbRESTORE_PAGES [] := by
  have hargs : ¬ (va % 4096 ≠ 0 ∨ 2 ^ 48 < va + 4096 * images.length) := by omega
  have hgood : (images.zip (imageOffsets 16 images)).find? (fun x => (decodeImage x.1).isNone) = none :=
    List.find?_eq_none.mpr fun x hx => by simpa [← Option.isSome_iff_ne_none] using hvalid x.1 (List.of_mem_zip hx).1
  have hplaced : ¬ ((bs.map some).any fun b => b.isNone) = true := by simp
  have hids : (bs.map some).filterMap id = bs := by simp
  simp only [restorePages, hjob, if_neg hargs, hgood, hblocks, if_neg hplaced, hids, Bool.not_true, Bool.false_eq_true, if_false]

end Sys2Proof.Machine

section
open Sys2Proof Sys2Proof.Machine

/-- Settles O17: each command that the gate lets go runs in `startCmd s c`, where its checks pass and its own lemma gives the effect. -/
theorem nearTierCommandsComplete : Obligations.NearTierCommandsComplete := by
  unfold Obligations.NearTierCommandsComplete
  rintro s _ c rfl
  refine ⟨?flush, ?tray, ?create, ?delete, ?restore⟩
  case flush => exact fun hg => next_mboxRun_go hg rfl
  case tray =>
    intro tray e hg htray hnode hkind
    exact next_mboxRun_go hg (declareLost_tray c htray hnode hkind)
  case create =>
    intro a off e hg hjob hargs hclear hroom hentry hkind
    exact next_mboxRun_go hg (createRegion_accepted c hjob hargs hclear hroom hentry hkind)
  case delete =>
    intro job view hg hentered
    refine ⟨_, next_mboxRun_go hg (deleteRegion_entered c hentered), answerOk_of_gate hg (startCmd_supply s c) rfl rfl, ?_, ?_⟩
    · simp only [answerOk_pool, startCmd_pool]
    · simp only [answerOk_coh, startCmd_coh]
  case restore =>
    intro job va images bs hg hjob haligned hrange hvalid _ hblocks
    exact next_mboxRun_go hg (restorePages_accepted c hjob haligned hrange hvalid hblocks)

end

/-! ### Publish and gather

PUBLISH and GATHER at their service (O7): each is attempted as it arrived, and its attempt completes where nothing fails or holds it. -/

namespace Sys2Proof.Machine

/-! ### PUBLISH (R101, R121, R230) -/

/-- A PUBLISH that enters its home is attempted as it arrived, through its window where it names one, with nothing of its flow in its way. -/
theorem servePublish_entered {s v : State} {t : Ns} {q : Nat} {p : Packet} {w : Waiter} (h : publishEntered s t q p = some (w, v)) :
    servePublish s (arrived t q p) = attemptPublish v w ∧ w.req = arrived t q p ∧ flowBlocked v p = false := by
  unfold publishEntered at h
  obtain ⟨hpass, h⟩ := Option.ite_none_left_eq_some.mp h
  simp only [Bool.or_eq_true, Bool.not_eq_true', not_or, Bool.not_eq_true, Bool.not_eq_false] at hpass
  obtain ⟨⟨hnew, hcopy⟩, hgood⟩ := hpass
  obtain ⟨hfresh, hroom⟩ := newHere_iff.mp hnew
  change servePublish s { pkt := p, lport := q, at_ := t } = _ ∧ _
  simp only [servePublish, hfresh, hcopy, hgood, hroom, Bool.false_eq_true, if_false]
  by_cases hwindow : p.oparg = 1
  case pos =>
    simp only [hwindow, if_true] at h ⊢
    obtain ⟨hregion, h⟩ := Option.ite_none_left_eq_some.mp h
    simp only [entrant, arrived] at hregion
    simp only [if_neg hregion]
    split at h
    case h_2 => cases h
    case h_1 u hcheck =>
    obtain ⟨hfirst, h⟩ := Option.ite_none_left_eq_some.mp h
    cases h
    exact ⟨by simp only [hcheck, entrant, arrived], rfl, Bool.eq_false_iff.mpr hfirst⟩
  case neg =>
    simp only [hwindow, if_false] at h ⊢
    obtain ⟨hpass, h⟩ := Option.ite_none_left_eq_some.mp h
    simp only [Bool.or_eq_true, not_or, Bool.not_eq_true] at hpass
    obtain ⟨hjob, hfirst⟩ := hpass
    cases h
    exact ⟨by simp only [hjob, Bool.false_eq_true, if_false, entrant, arrived], rfl, hfirst⟩

/-- A PUBLISH by one of the publishers, or through a window, of a free and aligned span over page tables, at the current version, publishes (R230, R231). -/
theorem attemptPublish_now {s x y : State} {w : Waiter} {g : Region} {vo ve so se : Nat} {l : List Piece}
    (hfirst : flowBlocked s w.req.pkt = false) (hregion : regionOf s w = some g) (hmay : w.win.isSome = true ∨ w.req.pkt.job ∈ g.pubs)
    (haligned : field w.req.pkt.payload 8 6 % g.span = 0)
    (hclear : ∀ z ∈ s.pool.regions, z.job = g.job → overlap (field w.req.pkt.payload 8 6) g.span z.view z.span = false)
    (hview : coveringEntry s g.job g.view (spanLevel g.span) = some (vo, ve))
    (hstage : coveringEntry s g.job (field w.req.pkt.payload 8 6) (spanLevel g.span) = some (so, se))
    (hviewTable : ttKind ve = 1) (hstageTable : ttKind se = 1) (hversion : field w.req.pkt.payload 0 8 = g.version)
    (hreach : reach s w.quarter g.job w.req.pkt.job rightWrite g.vword 8 = (.ok l, x))
    (hfree : linesHold x w.req.order true (partsOf l 0) = (none, y)) :
    attemptPublish s w = publishNow (expandAll y g.job l) w g (field w.req.pkt.payload 8 6) vo ve so se (partsOf l 0) := by
  have hallowed : ¬ (w.win.isNone && !decide (w.req.pkt.job ∈ g.pubs)) = true := by
    rcases hmay with h | h <;> simp [h, Option.isNone_eq_false_iff.mpr]
  have hnone : ¬ (s.pool.regions.any fun z => z.job = g.job && overlap (field w.req.pkt.payload 8 6) g.span z.view z.span) = true := by
    simpa using hclear
  have htables : ¬ (ttKind ve ≠ 1 ∨ ttKind se ≠ 1) := by omega
  simp only [attemptPublish, hfirst, hregion, if_neg hallowed, if_neg (not_not_intro haligned), if_neg hnone, hview, hstage, if_neg htables,
    if_neg (not_not_intro hversion), hreach, hfree, Bool.false_eq_true, if_false]

/-! ### GATHER (R271, R274 to R276) -/

/-- A GATHER that enters its home is attempted as it arrived, through its window where it names one, with nothing of its flow in its way. -/
theorem serveGather_entered {s v : State} {t : Ns} {q : Nat} {p : Packet} {w : Waiter} (h : gatherEntered s t q p = some (w, v)) :
    serveGather s (arrived t q p) = attemptGather v w ∧ w.req = arrived t q p ∧ flowBlocked v p = false := by
  unfold gatherEntered at h
  obtain ⟨hpass, h⟩ := Option.ite_none_left_eq_some.mp h
  simp only [Bool.or_eq_true, decide_eq_true_eq, not_or, Bool.not_eq_true] at hpass
  obtain ⟨hgood, haligned⟩ := hpass
  change serveGather s { pkt := p, lport := q, at_ := t } = _ ∧ _
  simp only [serveGather, hgood, if_neg haligned, Bool.false_eq_true, if_false]
  by_cases hwindow : p.oparg % 4 = 1
  case pos =>
    simp only [hwindow, if_true] at h ⊢
    split at h
    case h_2 => cases h
    case h_1 u hcheck =>
    obtain ⟨hpass, h⟩ := Option.ite_none_left_eq_some.mp h
    simp only [Bool.or_eq_true, not_or, Bool.not_eq_true] at hpass
    obtain ⟨hcopy, hfirst⟩ := hpass
    cases h
    exact ⟨by simp only [hcheck, gatherOnce, hcopy, Bool.false_eq_true, if_false, entrant, arrived], rfl, hfirst⟩
  case neg =>
    simp only [hwindow, if_false] at h ⊢
    obtain ⟨hpass, h⟩ := Option.ite_none_left_eq_some.mp h
    simp only [Bool.or_eq_true, not_or, Bool.not_eq_true] at hpass
    obtain ⟨⟨hjob, hcopy⟩, hfirst⟩ := hpass
    cases h
    exact ⟨by simp only [hjob, gatherOnce, hcopy, Bool.false_eq_true, if_false, entrant, arrived], rfl, hfirst⟩

/-- A GATHER whose records can all be read counts them and answers them (R275, R276). -/
theorem attemptGather_now {s x : State} {w : Waiter} {t : List (Nat × List Part)} (hfirst : flowBlocked s w.req.pkt = false)
    (hreach : gatherReach s w (firstUses 0 (gaList w.req.pkt) []) = .ok (t, x)) :
    attemptGather s w =
      let y := countRead x (w.req.order = 0) (t.flatMap (·.2))
      let y := bumpBy (bumpBy (bump y (cSIEVE_REQUESTS w.quarter)) (cSIEVE_RECORDS w.quarter) (gaList w.req.pkt).length) (cSIEVE_OUT w.quarter)
        (if gaUniq w.req.pkt then t.length else (gaList w.req.pkt).length)
      respondData (leaveWindow y w) w.req.pkt (gatherData y (gatherParts w.req.pkt t)) := by
  simp only [attemptGather, hfirst, hreach, Bool.false_eq_true, if_false]

end Sys2Proof.Machine

section
open Sys2Proof Sys2Proof.Machine

/-- Settles O7: each of the two rows serves its packet by its operation, which attempts it as it arrived, and the attempt's own lemma gives the effect. -/
theorem publishAndGatherComplete : Obligations.PublishAndGatherComplete := by
  unfold Obligations.PublishAndGatherComplete
  intro s u v x t q p w hs
  refine ⟨?publish, ?gather⟩
  case publish =>
    intro g vo ve so se l y hop hentered hregion hmay haligned hclear hview hstage hviewTable hstageTable hversion hreach hfree
    obtain ⟨hserve, hreq, hfirst⟩ := servePublish_entered hentered
    have hpkt : w.req.pkt = p := by rw [hreq]; rfl
    have horder : w.req.order = 0 := by rw [hreq]; rfl
    subst hpkt
    exact congrArg Host.Outcome.next (arrive_served (decide_eq_true hop) hs ((serveOp_publish hop).trans (hserve.trans
      (attemptPublish_now hfirst hregion hmay haligned hclear hview hstage hviewTable hstageTable hversion hreach (horder ▸ hfree)))))
  case gather =>
    intro r hop hentered hreach
    obtain ⟨hserve, hreq, hfirst⟩ := serveGather_entered hentered
    have hpkt : w.req.pkt = p := by rw [hreq]; rfl
    have horder : w.req.order = 0 := by rw [hreq]; rfl
    subst hpkt
    have hgather := attemptGather_now hfirst hreach
    simp only [horder, decide_true] at hgather
    exact congrArg Host.Outcome.next (arrive_served (decide_eq_true hop) hs ((serveOp_gather hop).trans (hserve.trans hgather)))

end

/-! ### Lines and images

A line is read back from its body (R226, R227), and a block from the image that is made of it (R228, O42): the words of mode and width codes are read back code by code, the other header fields at their offsets, and the bodies one after another. -/

namespace Sys2Proof.Machine

/-! ### Signed differences (R226) -/

theorem toSigned_eq_bmod {w : Nat} (hw : 0 < w) (n : Nat) : toSigned w n = (n : Int).bmod (2 ^ w) := by
  have hhalf : 2 ^ w = 2 * 2 ^ (w - 1) := by rw [← pow_succ', Nat.sub_add_cancel hw]
  rw [toSigned, Int.bmod_def, ← Int.natCast_mod]
  split <;> split <;> omega

/-- A signed number is read back from the low bits of its form where it fits them. -/
theorem toSigned_low {v w n : Nat} (hv : 0 < v) (hvw : v ≤ w) (hlow : -(2 ^ (v - 1) : Nat) ≤ toSigned w n)
    (hhigh : toSigned w n ≤ (2 ^ (v - 1) : Nat) - 1) : toSigned v (n % 2 ^ v) = toSigned w n := by
  have hhalf : 2 ^ v = 2 * 2 ^ (v - 1) := by rw [← pow_succ', Nat.sub_add_cancel hv]
  calc toSigned v (n % 2 ^ v) = ((n : Int) % (2 ^ v : Nat)).bmod (2 ^ v) := by rw [toSigned_eq_bmod hv, Int.natCast_mod]
    _ = (n : Int).bmod (2 ^ v) := Int.emod_bmod _ _
    _ = ((n : Int).bmod (2 ^ w)).bmod (2 ^ v) := (Int.bmod_bmod_of_dvd (pow_dvd_pow 2 hvw)).symm
    _ = (toSigned w n).bmod (2 ^ v) := by rw [toSigned_eq_bmod (by omega)]
    _ = toSigned w n := Int.bmod_eq_of_le (by omega) (by omega)

/-- A word is the sum of its base and its signed distance from it. -/
theorem ofSigned_add_gap {w x b : Nat} (hw : 0 < w) (hx : x < 2 ^ w) : ofSigned w ((b : Int) + toSigned w (gap w x b)) = x := by
  have hsum : ((b : Int) + toSigned w (gap w x b)) % (2 ^ w : Nat) = ((b + gap w x b : Nat) : Int) % (2 ^ w : Nat) := by
    rw [toSigned_eq_bmod hw, Int.add_emod, Int.bmod_emod, ← Int.add_emod, Nat.cast_add]
  have hback : (b + gap w x b) % 2 ^ w = x := by
    have hb := Nat.mod_lt b (Nat.two_pow_pos w)
    rw [gap, Nat.add_mod_mod, Nat.mod_eq_of_lt hx, ← Nat.mod_add_mod, Nat.add_sub_cancel' (by omega), Nat.add_mod_right,
      Nat.mod_eq_of_lt hx]
  rw [ofSigned, hsum, ← Int.natCast_mod, hback, Int.toNat_natCast]

/-! ### Pieces of byte strings -/

/-- The bytes of a field that lies inside a string. -/
theorem le_field {d : List Byte} {off n : Nat} (h : off + n ≤ d.length) : le n (field d off n) = (d.drop off).take n := by
  have hlen : ((d.drop off).take n).length = n := by simp; omega
  have hle := le_unle ((d.drop off).take n)
  rw [hlen] at hle
  exact hle

/-- Pieces of one size that follow one another. -/
theorem flatMap_pieces {α : Type} (m n : Nat) (d : List α) : ((List.range n).flatMap fun j => (d.drop (m * j)).take m) = d.take (m * n) := by
  induction n with
  | zero => simp
  | succ n ih => rw [List.range_succ, List.flatMap_append, ih, List.flatMap_singleton, Nat.mul_succ, List.take_add]

/-- A field of one size among its like. -/
theorem field_flatMap_le {m k : Nat} {l : List Nat} (f : Nat → Nat) (h : k < l.length) :
    field (l.flatMap fun j => le m (f j)) (m * k) m = f l[k] % 256 ^ m := by
  induction l generalizing k with
  | nil => cases h
  | cons a r ih =>
    rw [List.flatMap_cons]
    cases k with
    | zero => exact field_le m (f a) _
    | succ k =>
      rw [field_skip _ _ _ _ _ (Nat.le_mul_of_pos_right m k.succ_pos), Nat.mul_succ, Nat.add_sub_cancel]
      exact ih (by simpa using h)

theorem flatten_chunks {α : Type} (n k : Nat) (l : List α) : (chunks n k l).flatten = l.take (n * k) := by
  fun_induction chunks n k l with
  | case1 => simp
  | case2 => simp
  | case3 l k _ ih => rw [List.flatten_cons, ih, Nat.mul_succ, Nat.add_comm, List.take_add]

section Chunks

variable {α : Type} {n k : Nat} {l : List α} (h : l.length = n * k)
include h

theorem chunks_length (hn : 0 < n) : (chunks n k l).length = k := by
  fun_induction chunks n k l with
  | case1 => rfl
  | case2 k _ => exact ((Nat.mul_eq_zero.mp h.symm).resolve_left hn.ne').symm
  | case3 l k _ ih => rw [List.length_cons, ih (by rw [List.length_drop, h, Nat.mul_succ, Nat.add_sub_cancel])]

theorem length_of_mem_chunks {x : List α} (hx : x ∈ chunks n k l) : x.length = n := by
  fun_induction chunks n k l with
  | case1 => cases hx
  | case2 => cases hx
  | case3 l k _ ih =>
    rw [Nat.mul_succ] at h
    rcases List.mem_cons.mp hx with rfl | hx
    · rw [List.length_take]; omega
    · exact ih (by rw [List.length_drop]; omega) hx

end Chunks

/-! ### The body of a line (R226, R227) -/

/-- The distance of a line's word from its first one. -/
def lineDelta (d : List Byte) (j : Nat) : Nat := gap 64 (field d (8 * (j + 1)) 8) (field d 0 8)

/-- The signed distances of a line's words fit `b` bytes. -/
def deltasFit (d : List Byte) (b : Nat) : Bool :=
  (List.range 15).all fun j =>
    decide (-(2 ^ (8 * b - 1) : Nat) ≤ toSigned 64 (lineDelta d j)) && decide (toSigned 64 (lineDelta d j) ≤ (2 ^ (8 * b - 1) : Nat) - 1)

/-- A line of zeros has no body, one whose distances fit a width is held as them, and any other is held as it is (R227). -/
theorem encodeMode_cases (d : List Byte) :
    (encodeMode d = (0, 0) ∧ d = zeros d.length) ∨ (∃ w < 3, encodeMode d = (1, w) ∧ deltasFit d (deltaBytes w) = true) ∨ encodeMode d = (2, 0) := by
  by_cases hzero : d.all (· = 0) = true
  case pos => exact .inl ⟨if_pos hzero, List.eq_replicate_iff.mpr ⟨rfl, by simpa using hzero⟩⟩
  case neg =>
    have hmode : encodeMode d =
        if deltasFit d 1 then (1, 0) else if deltasFit d 2 then (1, 1) else if deltasFit d 4 then (1, 2) else (2, 0) := if_neg hzero
    right
    rw [hmode]
    split_ifs with hone htwo hfour
    · exact .inl ⟨0, by decide, rfl, hone⟩
    · exact .inl ⟨1, by decide, rfl, htwo⟩
    · exact .inl ⟨2, by decide, rfl, hfour⟩
    · exact .inr rfl

theorem encodeLine_delta {d : List Byte} {w : Nat} (h : encodeMode d = (1, w)) :
    encodeLine d = le 8 (field d 0 8) ++ (List.range 15).flatMap fun j => le (deltaBytes w) (lineDelta d j) := by
  simp only [encodeLine, h, lineDelta]

/-- A line of words is its first word and the other fifteen. -/
theorem line_eq_words {d : List Byte} (h : d.length = 128) :
    le 8 (field d 0 8) ++ ((List.range 15).flatMap fun j => le 8 (field d (8 * (j + 1)) 8)) = d := by
  have hword : ∀ j < 16, le 8 (field d (8 * j) 8) = (d.drop (8 * j)).take 8 := fun j hj => le_field (by omega)
  calc le 8 (field d 0 8) ++ ((List.range 15).flatMap fun j => le 8 (field d (8 * (j + 1)) 8))
      = (List.range 16).flatMap fun j => le 8 (field d (8 * j) 8) := by
        rw [List.range_succ_eq_map (n := 15), List.flatMap_cons, List.flatMap_map, Nat.mul_zero]
    _ = (List.range 16).flatMap fun j => (d.drop (8 * j)).take 8 := List.flatMap_congr fun j hj => hword j (List.mem_range.mp hj)
    _ = d := by rw [flatMap_pieces, List.take_of_length_le (by omega)]

/-- A distance that fits its width is read back from it. -/
theorem toSigned_delta {d : List Byte} {w j : Nat} (hw : w < 3) (h : deltasFit d (deltaBytes w) = true) (hj : j < 15) :
    toSigned (8 * deltaBytes w) (lineDelta d j % 256 ^ deltaBytes w) = toSigned 64 (lineDelta d j) := by
  have hbytes : 0 < deltaBytes w ∧ deltaBytes w ≤ 8 := ⟨Nat.two_pow_pos w, by interval_cases w <;> decide⟩
  simp only [deltasFit, List.all_eq_true, List.mem_range, Bool.and_eq_true, decide_eq_true_eq] at h
  obtain ⟨hlow, hhigh⟩ := h j hj
  rw [show 256 = 2 ^ 8 from rfl, ← pow_mul]
  exact toSigned_low (by omega) (by omega) hlow hhigh

/-- A line held as distances is read back from them. -/
theorem decodeLine_delta {d : List Byte} {w : Nat} (hlen : d.length = 128) (hw : w < 3) (hmode : encodeMode d = (1, w))
    (hfit : deltasFit d (deltaBytes w) = true) : decodeLine 1 (deltaBytes w) (encodeLine d) = d := by
  have hfirst : field (encodeLine d) 0 8 = field d 0 8 := by
    rw [encodeLine_delta hmode, field_le, Nat.mod_eq_of_lt (field_lt d 0 8)]
  have hrest : ∀ j < 15, field (encodeLine d) (8 + deltaBytes w * j) (deltaBytes w) = lineDelta d j % 256 ^ deltaBytes w := fun j hj => by
    rw [encodeLine_delta hmode, field_skip _ _ _ _ _ (Nat.le_add_right _ _), Nat.add_sub_cancel_left,
      field_flatMap_le _ (by simpa using hj), List.getElem_range]
  have hword : ∀ j < 15, ofSigned 64 ((field d 0 8 : Int) + toSigned 64 (lineDelta d j)) = field d (8 * (j + 1)) 8 := fun j _ =>
    ofSigned_add_gap (by decide) (field_lt d _ 8)
  calc decodeLine 1 (deltaBytes w) (encodeLine d)
      = le 8 (field d 0 8) ++ ((List.range 15).flatMap fun j => le 8 (field d (8 * (j + 1)) 8)) := by
        simp only [decodeLine, hfirst, OfNat.one_ne_ofNat, if_false, if_true]
        refine congrArg _ (List.flatMap_congr fun j hj => ?_)
        have hj := List.mem_range.mp hj
        rw [hrest j hj, toSigned_delta hw hfit hj, hword j hj]
    _ = d := line_eq_words hlen

/-- A line is read back from its body. -/
theorem decodeLine_encodeLine {d : List Byte} (h : d.length = 128) :
    decodeLine (encodeMode d).1 (deltaBytes (encodeMode d).2) (encodeLine d) = d := by
  rcases encodeMode_cases d with ⟨hmode, hzero⟩ | ⟨w, hw, hmode, hfit⟩ | hmode
  · rw [hmode, hzero, h]; rfl
  · rw [hmode]; exact decodeLine_delta h hw hmode hfit
  · have hbody : encodeLine d = d := by simp only [encodeLine, hmode]
    rw [hmode, hbody]
    exact List.take_of_length_le h.le

/-- A line's body has the length of its mode and width (R226). -/
theorem encodeLine_length {d : List Byte} (h : d.length = 128) :
    (encodeLine d).length = lineBody (encodeMode d).1 (deltaBytes (encodeMode d).2) := by
  rcases encodeMode_cases d with ⟨hmode, -⟩ | ⟨w, -, hmode, -⟩ | hmode
  · simp only [encodeLine, hmode]; rfl
  · rw [encodeLine_delta hmode, hmode]
    simp [List.length_flatMap, lineBody]
    omega
  · simp only [encodeLine, hmode, h]; rfl

theorem encodeLine_length_le {d : List Byte} (h : d.length = 128) : (encodeLine d).length ≤ 128 := by
  rw [encodeLine_length h]
  rcases encodeMode_cases d with ⟨hmode, -⟩ | ⟨w, hw, hmode, -⟩ | hmode
  · rw [hmode]; decide
  · rw [hmode]; interval_cases w <;> decide
  · rw [hmode]; decide

/-- A line's codes are those an image may hold (R228). -/
theorem encodeMode_valid (d : List Byte) :
    (encodeMode d).1 < 3 ∧ (encodeMode d).2 < 3 ∧ ((encodeMode d).1 ≠ 1 → (encodeMode d).2 = 0) := by
  rcases encodeMode_cases d with ⟨hmode, -⟩ | ⟨w, hw, hmode, -⟩ | hmode
  · simp [hmode]
  · simp [hmode, hw]
  · simp [hmode]

/-! ### The CRC of a block (R86) -/

theorem crcBit_lt {poly c : Nat} (hpoly : poly < 2 ^ 32) (hc : c < 2 ^ 32) : crcBit poly c < 2 ^ 32 := by
  have hshift : c >>> 1 < 2 ^ 32 := Nat.lt_of_le_of_lt (Nat.shiftRight_le c 1) hc
  unfold crcBit
  split
  · exact Nat.xor_lt_two_pow hshift hpoly
  · exact hshift

theorem crcByte_lt {poly c : Nat} (hpoly : poly < 2 ^ 32) (hc : c < 2 ^ 32) (b : Byte) : crcByte poly c b < 2 ^ 32 := by
  have hfirst : c ^^^ b.toNat < 2 ^ 32 := Nat.xor_lt_two_pow hc (Nat.lt_trans b.isLt (by decide))
  unfold crcByte
  iterate 8 apply crcBit_lt hpoly
  exact hfirst

theorem crc32c_lt (d : List Byte) : crc32c d < 2 ^ 32 :=
  Nat.xor_lt_two_pow
    (List.foldlRecOn d (crcByte 0x82F63B78) (motive := (· < 2 ^ 32)) (by decide) fun _ hc b _ => crcByte_lt (by decide) hc b) (by decide)

/-! ### The parts of an image (R225, R226) -/

/-- The lines of a block. -/
def blockLines (d : List Byte) : List (List Byte) := chunks 128 32 d

/-- The bodies of a block's lines. -/
def blockBody (d : List Byte) : List Byte := (blockLines d).flatMap encodeLine

/-- The fields of an image's header: LMODE, DWIDTH, CLEN and PCRC, and the reserved ones. -/
def imageFields (d : List Byte) : List WireField :=
  [⟨0, 8, Nat.ofDigits 4 ((blockLines d).map fun x => (encodeMode x).1)⟩, ⟨8, 8, Nat.ofDigits 4 ((blockLines d).map fun x => (encodeMode x).2)⟩,
   ⟨0x10, 2, (blockBody d).length⟩, ⟨0x12, 2, 0⟩, ⟨0x14, 4, crc32c d⟩, ⟨0x18, 8, 0⟩]

theorem imageFields_laid (d : List Byte) : LaidFrom 0 (imageFields d) := by
  simp [imageFields, LaidFrom]

theorem wireBytes_imageFields_length (d : List Byte) : (wireBytes (imageFields d)).length = 32 := by
  simp [imageFields, wireBytes]

theorem padTo_of_le {n : Nat} {bs : List Byte} (h : bs.length ≤ n) : padTo n bs = bs ++ zeros (n - bs.length) := by
  rw [padTo, List.take_of_length_le h]

/-- An image is its header, the bodies, and zeros up to the end of its last sector. -/
theorem encodeImage_eq (d : List Byte) : ∃ k, encodeImage d = wireBytes (imageFields d) ++ (blockBody d ++ zeros k) := by
  have hpacked (f : Nat × Nat → Nat) : ((blockLines d).map encodeMode).foldr (fun m a => f m + 4 * a) 0 =
      Nat.ofDigits 4 ((blockLines d).map fun x => f (encodeMode x)) := by
    simp only [Nat.ofDigits_eq_foldr, List.foldr_map, Nat.cast_id]
  have himage : encodeImage d = padTo (ceilDiv (wireBytes (imageFields d) ++ blockBody d).length 128 * 128) (wireBytes (imageFields d) ++ blockBody d) := by
    simp only [imageFields, wireBytes, ← hpacked, List.flatMap_cons, List.flatMap_nil, List.append_nil]
    simp only [← List.append_assoc]
    rfl
  rw [himage, padTo_of_le (by unfold ceilDiv; omega), List.append_assoc]
  exact ⟨_, rfl⟩

/-- A header field is read back from the image. -/
theorem field_encodeImage {d : List Byte} {f : WireField} (hf : f ∈ imageFields d) : field (encodeImage d) f.off f.size = f.val % 256 ^ f.size := by
  obtain ⟨k, hk⟩ := encodeImage_eq d
  rw [hk]
  exact field_wireBytes (imageFields_laid d) hf _

/-- A code is read back from the word that packs it with others. -/
theorem ofDigits_getElem {b i : Nat} {l : List Nat} (hl : ∀ x ∈ l, x < b) (hi : i < l.length) : Nat.ofDigits b l / b ^ i % b = l[i] := by
  have hlt := hl _ (List.getElem_mem hi)
  rw [Nat.ofDigits_div_pow_eq_ofDigits_drop i (by omega) l hl, List.drop_eq_getElem_cons hi, Nat.ofDigits_cons, Nat.add_mul_mod_self_left,
    Nat.mod_eq_of_lt hlt]

section Image

variable {d : List Byte} (h : d.length = 4096)
include h

theorem blockLines_length : (blockLines d).length = 32 := chunks_length h (by decide)

theorem length_of_mem_blockLines {x : List Byte} (hx : x ∈ blockLines d) : x.length = 128 := length_of_mem_chunks h hx

theorem blockLines_flatten : (blockLines d).flatten = d := by
  rw [blockLines, flatten_chunks, List.take_of_length_le h.le]

/-- The codes of 32 lines fill a word, in which each is found at its place. -/
theorem packed_code {f : List Byte → Nat} (hf : ∀ x, f x < 4) {i : Nat} (hi : i < (blockLines d).length) :
    Nat.ofDigits 4 ((blockLines d).map f) % 256 ^ 8 / 4 ^ i % 4 = f (blockLines d)[i] := by
  have hcodes : ∀ x ∈ (blockLines d).map f, x < 4 := List.forall_mem_map.mpr fun x _ => hf x
  have hword : Nat.ofDigits 4 ((blockLines d).map f) < 256 ^ 8 := by
    have hlt := Nat.ofDigits_lt_base_pow_length (by decide) hcodes
    rwa [List.length_map, blockLines_length h] at hlt
  rw [Nat.mod_eq_of_lt hword, ofDigits_getElem hcodes (by simpa using hi), List.getElem_map]

theorem lineMode_encodeImage {i : Nat} (hi : i < (blockLines d).length) : lineMode (encodeImage d) i = (encodeMode (blockLines d)[i]).1 := by
  have hfield := field_encodeImage (d := d) (f := ⟨0, 8, _⟩) (List.mem_cons_self ..)
  rw [lineMode, hfield]
  exact packed_code h (fun x => by obtain ⟨hmode, -, -⟩ := encodeMode_valid x; omega) hi

theorem lineWidth_encodeImage {i : Nat} (hi : i < (blockLines d).length) : lineWidth (encodeImage d) i = (encodeMode (blockLines d)[i]).2 := by
  have hfield := field_encodeImage (d := d) (f := ⟨8, 8, _⟩) (List.mem_cons_of_mem _ (List.mem_cons_self ..))
  rw [lineWidth, hfield]
  exact packed_code h (fun x => by obtain ⟨-, hwidth, -⟩ := encodeMode_valid x; omega) hi

/-- CLEN counts the bodies' bytes. -/
theorem blockBody_length : (blockBody d).length = (bodySizes (encodeImage d)).foldl (· + ·) 0 := by
  have hsizes : bodySizes (encodeImage d) = (blockLines d).map fun x => (encodeLine x).length := by
    refine List.ext_getElem (by simp [bodySizes, blockLines_length h]) fun i _ hi => ?_
    have hi : i < (blockLines d).length := by simpa using hi
    simp only [bodySizes, List.getElem_map, List.getElem_range, lineMode_encodeImage h hi, lineWidth_encodeImage h hi,
      encodeLine_length (length_of_mem_blockLines h (List.getElem_mem hi))]
  rw [hsizes, ← List.sum_eq_foldl, blockBody, List.length_flatMap]

theorem blockBody_length_le : (blockBody d).length ≤ 4096 := by
  have hsum := List.sum_le_card_nsmul ((blockLines d).map fun x => (encodeLine x).length) 128
    (List.forall_mem_map.mpr fun x hx => encodeLine_length_le (length_of_mem_blockLines h hx))
  rw [List.length_map, blockLines_length h] at hsum
  rw [blockBody, List.length_flatMap]
  exact hsum

theorem field_clen : field (encodeImage d) 0x10 2 = (blockBody d).length := by
  rw [field_encodeImage (d := d) (f := ⟨0x10, 2, (blockBody d).length⟩) (by simp [imageFields])]
  have hle := blockBody_length_le h
  exact Nat.mod_eq_of_lt (show (blockBody d).length < 65536 by omega)

/-- The header of an image keeps the rules of R228. -/
theorem headerOk_encodeImage : headerOk (encodeImage d) = true := by
  have hreserved : field (encodeImage d) 0x12 2 = 0 := field_encodeImage (d := d) (f := ⟨0x12, 2, 0⟩) (by simp [imageFields])
  have hlast : field (encodeImage d) 0x18 8 = 0 := field_encodeImage (d := d) (f := ⟨0x18, 8, 0⟩) (by simp [imageFields])
  have hcodes : ∀ i < 32, lineMode (encodeImage d) i ≠ 3 ∧
      (if lineMode (encodeImage d) i = 1 then lineWidth (encodeImage d) i ≠ 3 else lineWidth (encodeImage d) i = 0) := fun i hi => by
    have hi : i < (blockLines d).length := (blockLines_length h).symm ▸ hi
    obtain ⟨hmode, hwidth, hnone⟩ := encodeMode_valid (blockLines d)[i]
    rw [lineMode_encodeImage h hi, lineWidth_encodeImage h hi]
    refine ⟨hmode.ne, ?_⟩
    split
    · exact hwidth.ne
    · exact hnone ‹_›
  simp only [headerOk, hreserved, hlast, field_clen h, blockBody_length h, decide_true, Bool.true_and, Bool.and_true, List.all_eq_true, List.mem_range]
  simpa using hcodes

end Image

/-! ### Reading an image back -/

/-- The lines whose codes an image holds are read back from their bodies, whatever bytes follow. -/
theorem decodeLines_encoded {img : List Byte} {ls : List (List Byte)} {i : Nat} (rest : List Byte) (hlen : ∀ x ∈ ls, x.length = 128)
    (hcodes : ∀ j, (hj : j < ls.length) → lineMode img (i + j) = (encodeMode ls[j]).1 ∧ lineWidth img (i + j) = (encodeMode ls[j]).2) :
    decodeLines img ls.length i (ls.flatMap encodeLine ++ rest) = ls.flatten := by
  induction ls generalizing i with
  | nil => rfl
  | cons x r ih =>
    obtain ⟨hx, hr⟩ := List.forall_mem_cons.mp hlen
    obtain ⟨hmode, hwidth⟩ := hcodes 0 (Nat.zero_lt_succ _)
    have hnext := ih (i := i + 1) hr fun j hj => by simpa [Nat.add_assoc, Nat.add_comm 1 j] using hcodes (j + 1) (Nat.succ_lt_succ hj)
    simp only [Nat.add_zero, List.getElem_cons_zero] at hmode hwidth
    simp only [List.length_cons, decodeLines, hmode, hwidth, ← encodeLine_length hx, List.flatMap_cons, List.append_assoc, List.take_left, List.drop_left,
      decodeLine_encodeLine hx, hnext, List.flatten_cons]

/-- The image of a block is valid and holds the block. -/
theorem decodeImage_encodeImage {d : List Byte} (h : d.length = 4096) : decodeImage (encodeImage d) = some d := by
  obtain ⟨k, hk⟩ := encodeImage_eq d
  have hwhole : 32 + field (encodeImage d) 0x10 2 ≤ (encodeImage d).length := by
    rw [field_clen h, hk, List.length_append, wireBytes_imageFields_length, List.length_append]
    omega
  have hlines : decodeLines (encodeImage d) 32 0 ((encodeImage d).drop 32) = d := by
    have hbody : (encodeImage d).drop 32 = blockBody d ++ zeros k := by rw [hk, List.drop_left' (wireBytes_imageFields_length d)]
    have hread := decodeLines_encoded (img := encodeImage d) (i := 0) (zeros k) (fun x hx => length_of_mem_blockLines h hx) fun j hj => by
      rw [Nat.zero_add]
      exact ⟨lineMode_encodeImage h hj, lineWidth_encodeImage h hj⟩
    rwa [blockLines_length h, blockLines_flatten h, ← blockBody, ← hbody] at hread
  have hcrc : field (encodeImage d) 0x14 4 = crc32c d := by
    rw [field_encodeImage (d := d) (f := ⟨0x14, 4, crc32c d⟩) (by simp [imageFields])]
    exact Nat.mod_eq_of_lt (crc32c_lt d)
  simp only [decodeImage, headerOk_encodeImage h, decide_eq_true hwhole, hlines, hcrc, Bool.and_self, if_true]

end Sys2Proof.Machine

section
open Sys2Proof Sys2Proof.Machine

/-- Settles O42: the header holds the codes of the 32 lines, so that each body is found where it lies and decoded as it was encoded. -/
theorem imagesDecodeAsEncoded : Obligations.ImagesDecodeAsEncoded := by
  unfold Obligations.ImagesDecodeAsEncoded
  exact fun d h => decodeImage_encodeImage h

end

/-! ### Trees of class-L reductions

A class-L record is a sum of its terms: flags joined by or, ALLNZ and EMPTY by and, and accumulators added modulo 2^640. Terms therefore commute, and a child's record merges as its terms would be accumulated (R255, R262, O43). -/

namespace Sys2Proof.Machine

/-! ### Terms commute (R255) -/

/-- The accumulator after a term. -/
def Term.addTo (acc : Int) : Term → Int
  | .fin a => wrapAcc (acc + a)
  | _ => acc

/-- What a term does to each field of a record. -/
theorem accumulate_eq (r : Elem) (t : Term) : accumulate r t =
    { r with acc := t.addTo r.acc, nan := r.nan || decide (t = .nan), pinf := r.pinf || decide (t = .inf false), ninf := r.ninf || decide (t = .inf true)
             allnz := r.allnz && decide (t = .zero true), empty := false } := by
  rcases t with _ | (_ | _) | _ | _ <;> simp [accumulate, Term.addTo]

/-- Accumulators add modulo 2^640, so a sum already reduced gives the same one. -/
theorem wrapAcc_wrapAcc_add (x y : Int) : wrapAcc (wrapAcc x + y) = wrapAcc (x + y) := Int.bmod_add_bmod

theorem wrapAcc_add_wrapAcc (x y : Int) : wrapAcc (x + wrapAcc y) = wrapAcc (x + y) := Int.add_bmod_bmod

theorem wrapAcc_wrapAcc (x : Int) : wrapAcc (wrapAcc x) = wrapAcc x := Int.bmod_bmod

theorem Term.addTo_comm (acc : Int) (t u : Term) : u.addTo (t.addTo acc) = t.addTo (u.addTo acc) := by
  cases t with
  | fin a =>
    cases u with
    | fin b => simp only [Term.addTo, wrapAcc_wrapAcc_add, Int.add_right_comm]
    | _ => rfl
  | _ => rfl

theorem accumulate_rightCommutative : RightCommutative accumulate := by
  constructor
  intro r t u
  simp only [accumulate_eq, Term.addTo_comm r.acc t u, Bool.or_right_comm _ (decide (t = _)), Bool.and_right_comm _ (decide (t = _))]

/-- The record of some terms is the same in every order. -/
theorem foldl_accumulate_perm {ts us : List Term} (h : ts.Perm us) (r : Elem) : ts.foldl accumulate r = us.foldl accumulate r :=
  h.foldl_eq (rcomm := accumulate_rightCommutative) r

/-! ### Merging children's records (R262) -/

/-- The accumulator of a record holds a 640-bit two's-complement integer (R253). -/
def Wrapped (r : Elem) : Prop := wrapAcc r.acc = r.acc

theorem wrapped_fresh : Wrapped {} := Int.zero_bmod

theorem wrapped_accumulate {r : Elem} (t : Term) (h : Wrapped r) : Wrapped (accumulate r t) := by
  rw [accumulate_eq]
  cases t with
  | fin a => exact wrapAcc_wrapAcc _
  | _ => exact h

theorem wrapped_foldl_accumulate {r : Elem} (ts : List Term) (h : Wrapped r) : Wrapped (ts.foldl accumulate r) := by
  induction ts generalizing r with
  | nil => exact h
  | cons t ts ih => exact ih (wrapped_accumulate t h)

section Merge

variable {cop fmt : Nat} (hcls : carryClass cop fmt = .l)
include hcls

/-- Merging the record of no terms changes nothing. -/
theorem mergeElem_fresh {r : Elem} (h : Wrapped r) : mergeElem cop fmt r {} = r := by
  have hacc : wrapAcc (r.acc + 0) = r.acc := by rw [Int.add_zero, h]
  simp only [mergeElem, hcls, if_true, hacc, Bool.or_false, Bool.and_true]

/-- A term of a child's record may be left to the parent. -/
theorem mergeElem_accumulate (r x : Elem) (t : Term) : mergeElem cop fmt r (accumulate x t) = accumulate (mergeElem cop fmt r x) t := by
  have hacc : wrapAcc (r.acc + t.addTo x.acc) = t.addTo (wrapAcc (r.acc + x.acc)) := by
    cases t with
    | fin a => simp only [Term.addTo, wrapAcc_add_wrapAcc, wrapAcc_wrapAcc_add, Int.add_assoc]
    | _ => rfl
  simp only [accumulate_eq, mergeElem, hcls, if_true, hacc, Bool.or_assoc, Bool.and_assoc, Bool.and_false]

/-- A child's record merges as its terms would be accumulated here. -/
theorem mergeElem_foldl_accumulate {r : Elem} (ts : List Term) (h : Wrapped r) :
    mergeElem cop fmt r (ts.foldl accumulate {}) = ts.foldl accumulate r := by
  induction ts using List.reverseRecOn with
  | nil => exact mergeElem_fresh hcls h
  | append_singleton ts t ih => simp only [List.foldl_append, List.foldl_cons, List.foldl_nil, mergeElem_accumulate hcls, ih]

/-- The children's records merge to the record of all their terms, child by child. -/
theorem foldl_mergeElem {r : Elem} (parts : List (List Term)) (h : Wrapped r) :
    (parts.map fun ts => ts.foldl accumulate {}).foldl (mergeElem cop fmt) r = parts.flatten.foldl accumulate r := by
  induction parts generalizing r with
  | nil => rfl
  | cons ts parts ih =>
    rw [List.map_cons, List.foldl_cons, mergeElem_foldl_accumulate hcls ts h, ih (wrapped_foldl_accumulate ts h), List.flatten_cons, List.foldl_append]

/-- However the terms are split over children, merging gives the record of all terms together. -/
theorem foldl_mergeElem_perm {parts : List (List Term)} {all : List Term} (h : parts.flatten.Perm all) :
    (parts.map fun ts => ts.foldl accumulate {}).foldl (mergeElem cop fmt) {} = all.foldl accumulate {} :=
  (foldl_mergeElem hcls parts wrapped_fresh).trans (foldl_accumulate_perm h {})

end Merge

end Sys2Proof.Machine

section
open Sys2Proof Sys2Proof.Machine

/-- Settles O43: terms commute, and a child's record merges as its terms would be accumulated, so that every tree gives the record of all terms. -/
theorem reductionTreesGiveOneResult : Obligations.ReductionTreesGiveOneResult := by
  unfold Obligations.ReductionTreesGiveOneResult
  refine ⟨?order, ?tree, ?result⟩
  case order => exact fun ts us h => foldl_accumulate_perm h {}
  case tree => exact fun cop fmt parts all hcls h => foldl_mergeElem_perm hcls h
  case result => exact fun cop fmt rfmt rz sat parts all hcls h => congrArg (resultElem cop fmt rfmt rz sat) (foldl_mergeElem_perm hcls h)

end

/-! ### Partial records

A record of a partial is read back as the element it is made of (Table 9-9, R262, R577, O44): the EFL byte flag by flag, and of class L the accumulator from its lowest byte that is not zero and the fewest bytes that hold the rest. -/

namespace Sys2Proof.Machine

/-! ### The EFL byte (Table 9-9) -/

/-- The EFL byte that six flags make. -/
def eflByte (nan pinf ninf allnz psn empty : Bool) : Nat := flag nan + 2 * flag pinf + 4 * flag ninf + 8 * flag allnz + 16 * flag psn + 32 * flag empty

theorem eflOf_l (r : Elem) : eflOf .l r = eflByte r.nan r.pinf r.ninf r.allnz r.psn r.empty := rfl

theorem eflOf_other {cls : CarryClass} (h : cls ≠ .l) (r : Elem) : eflOf cls r = eflByte r.nan false false false r.psn r.empty := by
  simp [eflOf, eflByte, h, flag]

section Flags

variable (nan pinf ninf allnz psn empty : Bool)

theorem eflByte_lt : eflByte nan pinf ninf allnz psn empty < 64 := by
  revert nan pinf ninf allnz psn empty
  decide

theorem toNat_eflByte : (BitVec.ofNat 8 (eflByte nan pinf ninf allnz psn empty)).toNat = eflByte nan pinf ninf allnz psn empty := by
  have hlt := eflByte_lt nan pinf ninf allnz psn empty
  exact Nat.mod_eq_of_lt (by omega)

@[simp] theorem bit_eflByte_nan : bit (eflByte nan pinf ninf allnz psn empty) 0 = nan := by
  revert nan pinf ninf allnz psn empty
  decide

@[simp] theorem bit_eflByte_pinf : bit (eflByte nan pinf ninf allnz psn empty) 1 = pinf := by
  revert nan pinf ninf allnz psn empty
  decide

@[simp] theorem bit_eflByte_ninf : bit (eflByte nan pinf ninf allnz psn empty) 2 = ninf := by
  revert nan pinf ninf allnz psn empty
  decide

@[simp] theorem bit_eflByte_allnz : bit (eflByte nan pinf ninf allnz psn empty) 3 = allnz := by
  revert nan pinf ninf allnz psn empty
  decide

@[simp] theorem bit_eflByte_psn : bit (eflByte nan pinf ninf allnz psn empty) 4 = psn := by
  revert nan pinf ninf allnz psn empty
  decide

@[simp] theorem bit_eflByte_empty : bit (eflByte nan pinf ninf allnz psn empty) 5 = empty := by
  revert nan pinf ninf allnz psn empty
  decide

end Flags

/-! ### Records read from the front of bytes -/

theorem le_one_append (v : Nat) (d : List Byte) : le 1 v ++ d = BitVec.ofNat 8 v :: d := rfl

/-- The fields of a class-L record: LO and NB, and NB bytes of the integer (Table 9-9). -/
theorem field_longRecord {lo : Nat} {body : List Byte} (tail : List Byte) (hlo : lo < 256) (hbody : body.length < 256) :
    let d := le 1 lo ++ (le 1 body.length ++ (body ++ tail))
    field d 0 1 = lo ∧ field d 1 1 = body.length ∧ field d 2 body.length = unle body ∧ d.drop (2 + body.length) = tail := by
  refine ⟨?_, ?_, ?_, ?_⟩
  · rw [field_le, pow_one, Nat.mod_eq_of_lt hlo]
  · rw [field_skip _ _ _ _ _ le_rfl, Nat.sub_self, field_le, pow_one, Nat.mod_eq_of_lt hbody]
  · rw [field_skip _ _ _ _ _ (by decide), field_skip _ _ _ _ _ le_rfl, field, Nat.sub_self, List.drop_zero, List.take_left]
  · rw [← List.append_assoc, ← List.append_assoc, List.drop_left' (by simp only [List.length_append, le_length])]

/-- A class-L record within its bounds is read as its flags and its integer, shifted up by LO bytes. -/
theorem readRecord_l (nan pinf ninf allnz psn empty : Bool) {lo : Nat} {body : List Byte} (tail : List Byte) (hlo : lo < 80) (hbody : lo + body.length ≤ 80) :
    readRecord .l (le 1 (eflByte nan pinf ninf allnz psn empty) ++ (le 1 lo ++ (le 1 body.length ++ (body ++ tail)))) =
      some ({ nan := nan, pinf := pinf, ninf := ninf, allnz := allnz, psn := psn, empty := empty
              acc := if body.length = 0 then 0 else toSigned (8 * body.length) (unle body) * ((256 ^ lo : Nat) : Int) }, tail) := by
  obtain ⟨hlow, hcount, hint, hrest⟩ := field_longRecord tail (show lo < 256 by omega) (show body.length < 256 by omega)
  have hlen : (le 1 lo ++ (le 1 body.length ++ (body ++ tail))).length = 2 + body.length + tail.length := by
    simp only [List.length_append, le_length]
    omega
  have hefl := eflByte_lt nan pinf ninf allnz psn empty
  have hlong : ¬ (2 + body.length + tail.length < 2) := by omega
  have hvalid : ¬ (80 ≤ lo ∨ 80 < lo + body.length ∨ 2 + body.length + tail.length < 2 + body.length) := by omega
  rw [le_one_append]
  simp only [readRecord, toNat_eflByte, if_neg hefl.not_ge, hlen, hlow, hcount, hint, hrest, if_neg hlong, if_neg hvalid, bit_eflByte_nan, bit_eflByte_pinf,
    bit_eflByte_ninf, bit_eflByte_allnz, bit_eflByte_psn, bit_eflByte_empty]

section Running

variable (nan psn empty : Bool) {val : Nat} (tail : List Byte) (hval : val < 2 ^ 64)
include hval

/-- A class-V record is read as its flags and its value. -/
theorem readRecord_v : readRecord .v (le 1 (eflByte nan false false false psn empty) ++ (le 8 val ++ tail)) =
    some ({ val := val, nan := nan, psn := psn, empty := empty, allnz := false }, tail) := by
  have hefl := eflByte_lt nan false false false psn empty
  have hfield : field (le 8 val ++ tail) 0 8 = val := by rw [field_le, Nat.mod_eq_of_lt (by omega)]
  have hrest : (le 8 val ++ tail).drop 8 = tail := List.drop_left' (le_length 8 val)
  have hlong : ¬ (le 8 val ++ tail).length < 8 := by simp only [List.length_append, le_length]; omega
  rw [le_one_append]
  simp only [readRecord, toNat_eflByte, if_neg hefl.not_ge, reduceCtorEq, if_false, decide_eq_false hlong, hfield, hrest, bit_eflByte_nan, bit_eflByte_pinf,
    bit_eflByte_ninf, bit_eflByte_allnz, bit_eflByte_psn, bit_eflByte_empty, Bool.or_self, Bool.false_eq_true]

/-- A class-A record is read as its flags, its value and its rank. -/
theorem readRecord_a {rank : Nat} (hrank : rank < 2 ^ 16) :
    readRecord .a (le 1 (eflByte nan false false false psn empty) ++ (le 8 val ++ (le 2 rank ++ tail))) =
      some ({ val := val, rank := rank, nan := nan, psn := psn, empty := empty, allnz := false }, tail) := by
  have hefl := eflByte_lt nan false false false psn empty
  have hfield : field (le 8 val ++ (le 2 rank ++ tail)) 0 8 = val := by rw [field_le, Nat.mod_eq_of_lt (by omega)]
  have hfieldRank : field (le 8 val ++ (le 2 rank ++ tail)) 8 2 = rank := by
    rw [field_skip _ _ _ _ _ le_rfl, Nat.sub_self, field_le, Nat.mod_eq_of_lt (by omega)]
  have hrest : (le 8 val ++ (le 2 rank ++ tail)).drop 10 = tail := by
    rw [← List.append_assoc, List.drop_left' (by simp only [List.length_append, le_length])]
  have hlong : ¬ (le 8 val ++ (le 2 rank ++ tail)).length < 10 := by simp only [List.length_append, le_length]; omega
  rw [le_one_append]
  simp only [readRecord, toNat_eflByte, if_neg hefl.not_ge, if_true, decide_eq_false hlong, hfield, hfieldRank, hrest, bit_eflByte_nan, bit_eflByte_pinf,
    bit_eflByte_ninf, bit_eflByte_allnz, bit_eflByte_psn, bit_eflByte_empty, Bool.or_self, Bool.false_eq_true, if_false]

end Running

/-! ### The canonical form of an accumulator (R262) -/

/-- The lowest byte that is not zero lies within the number, and divides it. -/
theorem lowByte_spec {m fuel i : Nat} (hm : m ≠ 0) (hlt : m < 256 ^ (i + fuel)) (hdvd : 256 ^ i ∣ m) :
    lowByte m fuel i < i + fuel ∧ 256 ^ lowByte m fuel i ∣ m := by
  induction fuel generalizing i with
  | zero => exact absurd (Nat.eq_zero_of_dvd_of_lt hdvd hlt) hm
  | succ fuel ih =>
    rw [lowByte]
    split
    case isTrue => exact ⟨by omega, hdvd⟩
    case isFalse hzero =>
      have hnext : 256 ^ (i + 1) ∣ m := by
        rw [pow_succ]
        exact (Nat.dvd_div_iff_mul_dvd hdvd).mp (Nat.dvd_of_mod_eq_zero (not_not.mp hzero))
      obtain ⟨hlow, hdvdLow⟩ := ih (i := i + 1) (Nat.succ_add_eq_add_succ i fuel ▸ hlt) hnext
      exact ⟨by omega, hdvdLow⟩

/-- A signed integer fits `n` bytes. -/
def FitsBytes (v : Int) (n : Nat) : Prop := -(2 ^ (8 * n) : Nat) ≤ 2 * v ∧ 2 * v < (2 ^ (8 * n) : Nat)

/-- The least count of bytes is one that the integer fits, and no more than any other within the fuel. -/
theorem signedBytes_spec {v : Int} {fuel n k : Nat} (hnk : n ≤ k) (hfuel : k < n + fuel) (hfits : FitsBytes v k) :
    n ≤ signedBytes v fuel n ∧ signedBytes v fuel n ≤ k ∧ FitsBytes v (signedBytes v fuel n) := by
  induction fuel generalizing n with
  | zero => omega
  | succ fuel ih =>
    rw [signedBytes]
    split
    case isTrue h => exact ⟨le_rfl, hnk, h⟩
    case isFalse h =>
      have hne : n ≠ k := fun e => h (e ▸ hfits)
      obtain ⟨hmin, hmax, hfit⟩ := ih (n := n + 1) (by omega) (by omega)
      exact ⟨by omega, hmax, hfit⟩

/-- A signed integer is read back from the bytes that hold it. -/
theorem toSigned_unle_le {v : Int} {n : Nat} (hn : 0 < n) (h : FitsBytes v n) : toSigned (8 * n) (unle (le n (ofSigned (8 * n) v))) = v := by
  obtain ⟨hlow, hhigh⟩ := h
  have hnonneg : 0 ≤ v % (2 ^ (8 * n) : Nat) := Int.emod_nonneg _ (by positivity)
  have hlt : ofSigned (8 * n) v < 256 ^ n := by
    have := Int.emod_lt_of_pos v (show (0 : Int) < (2 ^ (8 * n) : Nat) by positivity)
    rw [← two_pow_bytes, ofSigned]
    omega
  have heven : (2 ^ (8 * n) : Nat) = 2 * 2 ^ (8 * n - 1) := by rw [← pow_succ', Nat.sub_add_cancel (by omega)]
  rw [unle_le, Nat.mod_eq_of_lt hlt, toSigned_eq_bmod (by omega), ofSigned, Int.toNat_of_nonneg hnonneg, Int.emod_bmod]
  exact Int.bmod_eq_of_le (by omega) (by omega)

/-- An accumulator of 640 bits whose lowest LO bytes are zero fits the others. -/
theorem fitsBytes_shifted {acc : Int} {lo : Nat} (hlo : lo < 80) (hdvd : 256 ^ lo ∣ acc.natAbs) (hlow : -(2 ^ 639 : Int) ≤ acc) (hhigh : acc < (2 ^ 639 : Int)) :
    FitsBytes (acc / (256 ^ lo : Nat)) (80 - lo) := by
  have hexact : acc / (256 ^ lo : Nat) * (256 ^ lo : Nat) = acc := Int.ediv_mul_cancel (Int.natCast_dvd.mpr hdvd)
  have hsplit : 2 ^ (8 * (80 - lo)) * 256 ^ lo = 2 ^ 640 := by
    rw [two_pow_bytes, ← pow_add, Nat.sub_add_cancel hlo.le, ← two_pow_bytes]
  have hpos : (0 : Int) < (256 ^ lo : Nat) := by positivity
  constructor
  · exact le_of_mul_le_mul_right (by rw [neg_mul, ← Nat.cast_mul, hsplit, mul_assoc, hexact]; omega) hpos
  · exact lt_of_mul_lt_mul_right (by rw [← Nat.cast_mul, hsplit, mul_assoc, hexact]; omega) hpos.le

/-- A class-L record with the bytes of an integer that fits them is read as that integer, shifted up by LO bytes. -/
theorem readRecord_shifted (nan pinf ninf allnz psn empty : Bool) {v : Int} {lo nb : Nat} (tail : List Byte) (hlo : lo < 80) (hpos : 0 < nb)
    (hbound : lo + nb ≤ 80) (hfit : FitsBytes v nb) :
    readRecord .l (le 1 (eflByte nan pinf ninf allnz psn empty) ++ (le 1 lo ++ (le 1 nb ++ (le nb (ofSigned (8 * nb) v) ++ tail)))) =
      some ({ nan := nan, pinf := pinf, ninf := ninf, allnz := allnz, psn := psn, empty := empty, acc := v * ((256 ^ lo : Nat) : Int) }, tail) := by
  have hread := readRecord_l nan pinf ninf allnz psn empty (body := le nb (ofSigned (8 * nb) v)) tail hlo (by rwa [le_length])
  rwa [le_length, if_neg hpos.ne', toSigned_unle_le hpos hfit] at hread

/-- The record of a class-L element is read back as the element. -/
theorem readRecord_elemRecord_l {r : Elem} (tail : List Byte) (hval : r.val = 0) (hrank : r.rank = 0) (hlow : -(2 ^ 639 : Int) ≤ r.acc)
    (hhigh : r.acc < (2 ^ 639 : Int)) : readRecord .l (elemRecord .l r ++ tail) = some (r, tail) := by
  obtain ⟨acc, val, rank, nan, pinf, ninf, allnz, psn, empty⟩ := r
  dsimp only at hval hrank hlow hhigh
  subst hval hrank
  by_cases hzero : acc = 0
  case pos =>
    subst hzero
    exact readRecord_l nan pinf ninf allnz psn empty (lo := 0) (body := []) tail (by decide) (by decide)
  case neg =>
    obtain ⟨hlo, hdvd⟩ := lowByte_spec (m := acc.natAbs) (fuel := 80) (i := 0) (by omega) (by norm_num; omega) (by simp)
    rw [Nat.zero_add] at hlo
    obtain ⟨hpos, hbound, hfit⟩ := signedBytes_spec (fuel := 80) (n := 1) (by omega) (by omega) (fitsBytes_shifted hlo hdvd hlow hhigh)
    have hread := readRecord_shifted nan pinf ninf allnz psn empty tail hlo hpos (by omega) hfit
    rw [Int.ediv_mul_cancel (Int.natCast_dvd.mpr hdvd)] at hread
    simpa only [elemRecord, if_neg hzero, eflOf_l, List.append_assoc] using hread

end Sys2Proof.Machine

section
open Sys2Proof Sys2Proof.Machine

/-- Settles O44: the flags come back from their bits, and of class L the integer from the bytes between its lowest one that is not zero and its sign. -/
theorem partialRecordsReadBack : Obligations.PartialRecordsReadBack := by
  unfold Obligations.PartialRecordsReadBack
  refine ⟨?long, ?value, ?ranked⟩
  case long => exact fun r tail hval hrank hlow hhigh => readRecord_elemRecord_l tail hval hrank hlow hhigh
  case value =>
    intro r tail hval
    have hread := readRecord_v r.nan r.psn r.empty tail hval
    rwa [← eflOf_other (cls := .v) (by decide) r, ← List.append_assoc] at hread
  case ranked =>
    intro r tail hval hrank
    have hread := readRecord_a r.nan r.psn r.empty tail hval hrank
    rwa [← eflOf_other (cls := .a) (by decide) r, ← List.append_assoc, ← List.append_assoc] at hread

end

/-! ### Adder limbs and residues

The ten limbs of two accumulators are added with the carry that runs up through them (R253, R256), and a residue modulo 7 tells a right sum or product from one that is off by a power of two (R268, O56). -/

namespace Sys2Proof.Machine

/-! ### Limbs of the 640-bit form -/

/-- 640 bits are those below a limb, the limb, and those above it. -/
theorem two_pow_640_split {i : Nat} (hi : i < 10) : 2 ^ 640 = 2 ^ (64 * i) * (2 ^ 64 * 2 ^ (64 * (9 - i))) := by
  rw [← pow_add, ← pow_add]
  congr 1
  omega

/-- A limb of an accumulator is read from its 640 bits. -/
theorem limb_eq_ofSigned {i : Nat} (x : Int) (hi : i < 10) : limb x i = ofSigned 640 x / 2 ^ (64 * i) % 2 ^ 64 := by
  have hlow : x / (2 ^ (64 * i) : Nat) % (2 ^ 64 : Nat) = x % (2 ^ 640 : Nat) / (2 ^ (64 * i) : Nat) % (2 ^ 64 : Nat) := by
    have hsplit : x = x % (2 ^ 640 : Nat) + (2 ^ (64 * i) : Nat) * ((2 ^ 64 : Nat) * ((2 ^ (64 * (9 - i)) : Nat) * (x / (2 ^ 640 : Nat)))) := by
      rw [← mul_assoc, ← mul_assoc, ← Nat.cast_mul, ← Nat.cast_mul, mul_assoc, ← two_pow_640_split hi, Int.emod_add_mul_ediv]
    conv_lhs => rw [hsplit, Int.add_mul_ediv_left _ _ (by positivity), Int.add_mul_emod_self_left]
  have hbits : x % (2 ^ 640 : Nat) = (ofSigned 640 x : Int) := (Int.toNat_of_nonneg (Int.emod_nonneg _ (by positivity))).symm
  rw [limb, hlow, hbits, ← Int.natCast_ediv, ← Int.natCast_emod, Int.toNat_natCast]

/-- The 640 bits of a sum are the sum of those of its operands, modulo 2^640. -/
theorem ofSigned_wrapAcc_add (x y : Int) : ofSigned 640 (wrapAcc (x + y)) = (ofSigned 640 x + ofSigned 640 y) % 2 ^ 640 := by
  have hnonneg (v : Int) : 0 ≤ v % (2 ^ 640 : Nat) := Int.emod_nonneg _ (by positivity)
  have hsum : wrapAcc (x + y) % (2 ^ 640 : Nat) = (x % (2 ^ 640 : Nat) + y % (2 ^ 640 : Nat)) % (2 ^ 640 : Nat) := by
    rw [wrapAcc, Int.bmod_emod, Int.add_emod]
  rw [ofSigned, hsum, Int.toNat_emod (Int.add_nonneg (hnonneg x) (hnonneg y)) (by positivity), Int.toNat_add (hnonneg x) (hnonneg y), Int.toNat_natCast]
  rfl

/-! ### The carry into a limb (R253, R256) -/

/-- The quotient of a sum is the sum of the quotients and what the remainders carry. -/
theorem add_div_split (m n b : Nat) (hb : 0 < b) : (m + n) / b = m / b + n / b + (m % b + n % b) / b := by
  have hsplit : m + n = (m % b + n % b) + b * (m / b + n / b) := by
    have hm := Nat.mod_add_div m b
    have hn := Nat.mod_add_div n b
    rw [Nat.mul_add]
    omega
  conv_lhs => rw [hsplit, Nat.add_mul_div_left _ _ hb, Nat.add_comm]

/-- The carry into a limb is what the bits below it carry out. -/
theorem carry_eq {x y : Int} {c : Nat → Nat} (hzero : c 0 = 0) (hstep : ∀ i, c (i + 1) = (limbAdd (limb x i) (limb y i) (c i)).2) {i : Nat} (hi : i ≤ 10) :
    c i = (ofSigned 640 x % 2 ^ (64 * i) + ofSigned 640 y % 2 ^ (64 * i)) / 2 ^ (64 * i) := by
  induction i with
  | zero => simp [hzero, Nat.mod_one]
  | succ i ih =>
    have hb : 0 < 2 ^ (64 * i) := Nat.two_pow_pos _
    rw [hstep, limbAdd, limb_eq_ofSigned x (by omega), limb_eq_ofSigned y (by omega), ih (by omega), Nat.mul_succ, pow_add, Nat.mod_mul, Nat.mod_mul,
      ← Nat.div_div_eq_div_mul, Nat.add_add_add_comm, ← Nat.mul_add, Nat.add_mul_div_left _ _ hb, Nat.add_comm]

theorem carry_le_one {m n b : Nat} (hb : 0 < b) : (m % b + n % b) / b ≤ 1 := by
  have hm := Nat.mod_lt m hb
  have hn := Nat.mod_lt n hb
  exact Nat.le_of_lt_succ ((Nat.div_lt_iff_lt_mul hb).mpr (by omega))

/-- The limbs of the sum modulo 2^640, each with the carry of the one below it. -/
theorem limb_wrapAcc_add {x y : Int} {c : Nat → Nat} (hzero : c 0 = 0) (hstep : ∀ i, c (i + 1) = (limbAdd (limb x i) (limb y i) (c i)).2) {i : Nat}
    (hi : i < 10) : limb (wrapAcc (x + y)) i = (limbAdd (limb x i) (limb y i) (c i)).1 ∧ c i ≤ 1 := by
  have hb : 0 < 2 ^ (64 * i) := Nat.two_pow_pos _
  have hcarry := carry_eq hzero hstep hi.le
  refine ⟨?_, hcarry ▸ carry_le_one hb⟩
  rw [limbAdd, limb_eq_ofSigned _ hi, limb_eq_ofSigned x hi, limb_eq_ofSigned y hi, ofSigned_wrapAcc_add, two_pow_640_split hi,
    Nat.mod_mul_right_div_self, Nat.mod_mul_right_mod, add_div_split _ _ _ hb, ← hcarry]
  exact (((Nat.mod_modEq _ _).add (Nat.mod_modEq _ _)).add_right _).symm

/-! ### Residues modulo 7 (R268) -/

/-- No power of two is a multiple of 7, nor is twice one. -/
theorem two_pow_mod_seven (k : Nat) : 2 ^ k % 7 = 1 ∨ 2 ^ k % 7 = 2 ∨ 2 ^ k % 7 = 4 := by
  induction k with
  | zero => exact .inl rfl
  | succ k ih =>
    rw [pow_succ]
    omega

/-- A number that differs by a power of two has another residue. -/
theorem mod_seven_ne {r s k : Nat} (h : r = s + 2 ^ k ∨ r + 2 ^ k = s) : r % 7 ≠ s % 7 := by
  have hk := two_pow_mod_seven k
  omega

section Adder

variable (a b c : Nat)

/-- The residues of a limb's sum and carry are those of its operands: 2^64 is 2 modulo 7. -/
theorem limbAdd_residue : (a % 7 + b % 7 + c) % 7 = ((limbAdd a b c).1 % 7 + 2 * (limbAdd a b c).2) % 7 := by
  simp only [limbAdd]
  omega

theorem adderCheck_limbAdd : adderCheck a b c (limbAdd a b c) = true := decide_eq_true (limbAdd_residue a b c)

theorem adderCheck_flippedSum {k r : Nat} (h : r = (limbAdd a b c).1 + 2 ^ k ∨ r + 2 ^ k = (limbAdd a b c).1) :
    adderCheck a b c (r, (limbAdd a b c).2) = false := by
  have hne := mod_seven_ne h
  rw [adderCheck, limbAdd_residue]
  exact decide_eq_false (by dsimp only; omega)

theorem adderCheck_flippedCarry {e : Nat} (h : e = (limbAdd a b c).2 + 1 ∨ e + 1 = (limbAdd a b c).2) :
    adderCheck a b c ((limbAdd a b c).1, e) = false := by
  rw [adderCheck, limbAdd_residue]
  exact decide_eq_false (by dsimp only; omega)

end Adder

section Multiplier

variable (x y : Nat)

theorem multiplierCheck_eq (r : Nat) : multiplierCheck x y r = decide (x * y % 7 = r % 7) := by rw [multiplierCheck, ← Nat.mul_mod]

theorem multiplierCheck_product : multiplierCheck x y (x * y) = true := (multiplierCheck_eq x y _).trans (decide_eq_true rfl)

theorem multiplierCheck_flipped {k r : Nat} (h : r = x * y + 2 ^ k ∨ r + 2 ^ k = x * y) : multiplierCheck x y r = false :=
  (multiplierCheck_eq x y r).trans (decide_eq_false (mod_seven_ne h).symm)

end Multiplier

end Sys2Proof.Machine

section
open Sys2Proof Sys2Proof.Machine

/-- Settles O56: the carry into a limb is what the bits below it carry out; and a power of two has no residue 0 modulo 7. -/
theorem adderLimbsCheckTheirResidue : Obligations.AdderLimbsCheckTheirResidue := by
  unfold Obligations.AdderLimbsCheckTheirResidue
  refine ⟨?sum, ?adder, ?multiplier⟩
  case sum => exact fun x y c hzero hstep i hi => limb_wrapAcc_add hzero hstep hi
  case adder =>
    exact fun a b c => ⟨adderCheck_limbAdd a b c, fun k r h => adderCheck_flippedSum a b c h, fun e h => adderCheck_flippedCarry a b c h⟩
  case multiplier => exact fun x y => ⟨multiplierCheck_product x y, fun k r h => multiplierCheck_flipped x y h⟩

end

/-! ### Packets of reduction groups

REDUCE, the carry partials and the bead partial at their service (O9): what each does when nothing turns it away, and its row. -/

namespace Sys2Proof.Machine

theorem serveCarry_reduce {s : State} {r : Req} (hop : r.pkt.op = opREDUCE) : serveCarry s r = serveReduce s r := if_pos hop

theorem serveCarry_beadPartial {s : State} {r : Req} (hop : r.pkt.op = opPARTIAL) (hext : r.pkt.ext.length = 16) (hkind : field r.pkt.ext 0 1 = 2) :
    serveCarry s r = serveBeadPartial s r := by
  simp only [serveCarry, hop, hext, hkind, and_self, if_true, show opPARTIAL ≠ opREDUCE by decide, if_false]

theorem serveCarry_partial {s : State} {r : Req} (hop : r.pkt.op = opPARTIAL) (hkind : field r.pkt.ext 0 1 = 1) : serveCarry s r = servePartial s r := by
  simp only [serveCarry, hop, hkind, show opPARTIAL ≠ opREDUCE by decide, show 1 ≠ 2 by decide, and_false, if_false]

/-! ### REDUCE (R250, R259, R268) -/

/-- A contribution to the round now open is taken in or held, and one to a switch that only forwards goes up. -/
theorem serveReduce_accepted {s : State} {t : Ns} {q i : Nat} {p : Packet} {g : Group} {l : List (Nat × SliceIn)} (hgood : reduceMalformed p = false)
    (hg : groupOf s (rdRid p) = some g) (hjob : p.job = g.a.job) (hcop : rdCop p = g.a.cop) (hfmt : rdFmt p = g.a.fmt) (hcls : classOf g.a ≠ .attn)
    (hindex : contribIndex s g.a p.src (rdRank p) = some i) (hcover : reduceCover g.a p = some l)
    (hround : forwardsOnly s g.a = true ∨ roundCheck g (rdRound p) = .now) :
    serveReduce s (arrived t q p) =
      if forwardsOnly s g.a then forwardUp (bump (ackPacket s q p) (cCARRY_CONTRIB (quarterOf q))) g.a p
      else if enginesAway s (l.map fun x => engineOf (rdRid p) x.1) then holdInput s (arrived t q p)
      else takeIn (bump (ackPacket s q p) (cCARRY_CONTRIB (quarterOf q))) (rdRid p) i l := by
  have hmatch : ¬ (rdCop p ≠ g.a.cop ∨ rdFmt p ≠ g.a.fmt) := by simp [hcop, hfmt]
  simp only [serveReduce, arrived, hgood, hg, hindex, hcover, if_neg (not_not_intro hjob), if_neg hmatch, if_neg hcls, Bool.false_eq_true, if_false]
  rcases hround with hforward | hnow
  · simp only [hforward, if_true]
  · simp only [hnow]
    rfl

/-! ### Carry partials (R260, R266) -/

section Partial

variable {s : State} {t : Ns} {q i : Nat} {p : Packet} {g : Group} (hgood : partialMalformed p = false) (hg : groupOf s (pxRid p) = some g)
  (hjob : p.job = g.a.job) (hoparg : p.oparg = g.a.cop + g.a.fmt * 16)
include hgood hg hjob hoparg

/-- A DATA partial of the round now open is taken in, or held while an engine it needs is away (R260, R268). -/
theorem servePartial_data {l : List (Nat × SliceIn)} (hkind : pxKind p = 0) (hindex : inputIndex g.a 1 p.src 0 = some i) (hfp64 : classOf g.a ≠ .fp64)
    (hattn : classOf g.a ≠ .attn) (haligned : pxElem p % 32 = 0) (hinside : pxElem p / 32 + pxSlices p ≤ sliceCount g.a)
    (hround : roundCheck g (pxRound p) = .now) (hread : readSlices g.a (pxSlices p) (pxElem p / 32) p.payload = some l) :
    servePartial s (arrived t q p) = if enginesAway s (l.map fun x => engineOf (pxRid p) x.1) then holdInput s (arrived t q p)
      else takeIn (bump (ackPacket s q p) (cCARRY_CONTRIB (quarterOf q))) (pxRid p) i l := by
  have hfits : ¬ (classOf g.a = .fp64 ∨ classOf g.a = .attn ∨ pxElem p % 32 ≠ 0 ∨ sliceCount g.a < pxElem p / 32 + pxSlices p) := by
    simp [hfp64, hattn, haligned, hinside]
  simp only [servePartial, arrived, hgood, hg, if_neg (not_not_intro hjob), if_neg (not_not_intro hoparg), hkind, hindex, if_neg hfits, hround, hread,
    OfNat.zero_ne_ofNat, zero_ne_one, Bool.false_eq_true, if_false]
  rfl

/-- An ABT_UP of a child acts on its group (R266). -/
theorem servePartial_abtUp (hkind : pxKind p = 1) (hindex : inputIndex g.a 1 p.src 0 = some i) :
    servePartial s (arrived t q p) = takeAbtUp (ackPacket s q p) (pxRid p) (pxRound p) (pxAbseq p) := by
  simp only [servePartial, arrived, hgood, hg, if_neg (not_not_intro hjob), if_neg (not_not_intro hoparg), hkind, hindex, OfNat.one_ne_ofNat,
    Bool.false_eq_true, if_false, if_true]

/-- An ABT_DOWN of the parent acts on its group (R266). -/
theorem servePartial_abtDown (hkind : pxKind p = 2) (hroot : isRoot s g.a = false) (hparent : p.src = g.a.parent) :
    servePartial s (arrived t q p) = takeAbtDown (ackPacket s q p) (pxRid p) (pxRound p) (pxAbseq p) := by
  simp only [servePartial, arrived, hgood, hg, if_neg (not_not_intro hjob), if_neg (not_not_intro hoparg), hkind, hroot, hparent, ne_eq, not_true_eq_false,
    decide_false, Bool.or_self, Bool.false_eq_true, if_false, if_true]

/-- An ABT_DONE of a child acts on its group (R266). -/
theorem servePartial_abtDone (hkind : pxKind p = 3) (hindex : inputIndex g.a 1 p.src 0 = some i) :
    servePartial s (arrived t q p) = takeAbtDone (ackPacket s q p) (pxRid p) p.src (pxRound p) (pxAbseq p) := by
  simp only [servePartial, arrived, hgood, hg, if_neg (not_not_intro hjob), if_neg (not_not_intro hoparg), hkind, hindex, show 3 ≠ 2 by decide,
    OfNat.ofNat_ne_one, Bool.false_eq_true, if_false, if_true]

end Partial

/-! ### Bead partials (R360, R362) -/

/-- What a bead partial has to agree with its group in (R360). -/
structure FitsGroup (a : OpenReductionArgs) (p : Packet) : Prop where
  cls : classOf a = .attn
  input : ∃ x ∈ a.inputs, x.node = p.src
  block : bxBidx p < a.ntotal
  queries : bxQbase p + bxQn p ≤ a.qn
  width : dhOf (bxDhc p) = a.length
  size : lenOf p = bxQn p * (8 + 4 * dhOf (bxDhc p))
  format : p.oparg = 10 + 10 * 16

theorem FitsGroup.not_mismatch {a : OpenReductionArgs} {p : Packet} (h : FitsGroup a p) :
    ¬ (classOf a ≠ .attn ∨ p.oparg ≠ 10 + 10 * 16 ∨ (a.inputs.find? fun x => x.node = p.src).isNone ∨ a.ntotal ≤ bxBidx p
      ∨ a.qn < bxQbase p + bxQn p ∨ dhOf (bxDhc p) ≠ a.length ∨ lenOf p ≠ bxQn p * (8 + 4 * dhOf (bxDhc p))) := by
  obtain ⟨x, hx, hnode⟩ := h.input
  rintro (hcls | hformat | hinput | hblock | hqueries | hwidth | hsize)
  · exact hcls h.cls
  · exact hformat h.format
  · exact List.find?_eq_none.mp (Option.isNone_iff_eq_none.mp hinput) x hx (decide_eq_true hnode)
  · exact hblock.not_gt h.block
  · exact hqueries.not_ge h.queries
  · exact hwidth h.width
  · exact hsize h.size

/-- A query of a bead partial enters its group's staging, or is counted where it stands there already (R362). -/
def stageQuery (p : Packet) (s : State) (x : Nat × List Byte) : State :=
  match groupOf s (pxRid p) with
  | none => s
  | some g =>
    if thas g.attn (bxBidx p, x.1) then bump s (cCARRY_DUP (pxRid p % 4))
    else setGroup s (pxRid p) { g with attn := tset g.attn (bxBidx p, x.1) x.2, first := some (g.first.getD s.now) }

section BeadPartial

variable {s : State} {t : Ns} {q : Nat} {p : Packet} {g : Group} (hgood : beadPartialMalformed p = false) (hg : groupOf s (pxRid p) = some g)
  (hjob : p.job = g.a.job) (hfits : FitsGroup g.a p)
include hgood hg hjob hfits

/-- A bead partial that fits its group is forwarded, or staged in the round now open, or held while the group's engine is away (R268, R360). -/
theorem serveBeadPartial_fits (hround : forwardsOnly s g.a = true ∨ roundCheck g (bxRound p) = .now) :
    serveBeadPartial s (arrived t q p) =
      if forwardsOnly s g.a then forwardUp (bump (ackPacket s q p) (cCARRY_CONTRIB (quarterOf q))) g.a p
      else if enginesAway s [attnEngine (pxRid p)] then holdInput s (arrived t q p)
      else deliverAttn ((partialQueries p).foldl (stageQuery p) (bump (ackPacket s q p) (cCARRY_CONTRIB (quarterOf q)))) (pxRid p) := by
  unfold serveBeadPartial
  dsimp only [arrived]
  rw [hgood, if_neg Bool.false_ne_true, hg]
  dsimp only
  rw [if_neg (not_not_intro hjob), if_neg hfits.not_mismatch]
  rcases hround with hforward | hnow
  · simp only [hforward, if_true]
  · simp only [hnow]
    rfl

end BeadPartial

end Sys2Proof.Machine

section
open Sys2Proof Sys2Proof.Machine

/-- Settles O9: each of the six rows serves its packet by its operation and kind, and that kind's own lemma gives the effect. -/
theorem reductionPacketsAct : Obligations.ReductionPacketsAct := by
  unfold Obligations.ReductionPacketsAct
  intro s u t q p g hs hjob
  refine ⟨?reduce, ?carry, ?bead⟩
  case reduce =>
    intro i l hop hgood hg hcop hfmt hcls hindex hcover hround
    exact congrArg Host.Outcome.next (arrive_served (decide_eq_true hop) hs ((serveOp_carry (.inl hop)).trans ((serveCarry_reduce hop).trans
      (serveReduce_accepted hgood hg hjob hcop hfmt hcls hindex hcover hround))))
  case carry =>
    intro hop hext hgood hg hoparg
    have row {k : Nat} {v : State} (hkind : pxKind p = k) (hv : servePartial u (arrived t q p) = v) : arrive (carryKind p k) s q p = finish s q p v :=
      arrive_served (by simp [carryKind, hop, hext, hkind]) hs ((serveOp_carry (.inr hop)).trans ((serveCarry_partial hop hext).trans hv))
    refine ⟨?data, ?abtUp, ?abtDown, ?abtDone⟩
    case data =>
      intro i l hkind hindex hfp64 hattn haligned hinside hround hread
      exact congrArg Host.Outcome.next
        (row hkind (servePartial_data hgood hg hjob hoparg hkind hindex hfp64 hattn haligned hinside hround hread))
    case abtUp => exact fun i hkind hindex => congrArg Host.Outcome.next (row hkind (servePartial_abtUp hgood hg hjob hoparg hkind hindex))
    case abtDown =>
      exact fun hkind hroot hparent => congrArg Host.Outcome.next (row hkind (servePartial_abtDown hgood hg hjob hoparg hkind hroot hparent))
    case abtDone => exact fun i hkind hindex => congrArg Host.Outcome.next (row hkind (servePartial_abtDone hgood hg hjob hoparg hkind hindex))
  case bead =>
    intro hop hlen hext hgood hg hcls hinput hblock hqueries hwidth hsize hformat
    have row (hround : forwardsOnly u g.a = true ∨ roundCheck g (bxRound p) = .now) := arrive_served (kind := p.op = opPARTIAL && field p.ext 0 1 = 2)
      (by simp [hop, hext]) hs ((serveOp_carry (.inr hop)).trans ((serveCarry_beadPartial hop hlen hext).trans
        (serveBeadPartial_fits hgood hg hjob ⟨hcls, hinput, hblock, hqueries, hwidth, hsize, hformat⟩ hround)))
    refine ⟨fun hforward => ?_, fun hroot hround => ?_⟩
    · exact congrArg Host.Outcome.next ((row (.inl hforward)).trans (congrArg (finish s q p) (if_pos hforward)))
    · exact congrArg Host.Outcome.next ((row (.inr hround)).trans (congrArg (finish s q p) (if_neg (Bool.eq_false_iff.mp hroot))))

end

/-! ### Reduction groups and sieve programs

What each command on a reduction group or a sieve program does when nothing turns it away, and its row (O18). -/

namespace Sys2Proof.Machine

/-! ### Reduction groups (R240, R243, R244, R265) -/

/-- The staging warning is a register bit, and changes nothing else. -/
theorem warnStaging_only (s : State) : warnStaging s = { s with regs := (warnStaging s).regs } := by
  unfold warnStaging
  split <;> rfl

/-- OPEN_REDUCTION of a free RID, with arguments and inputs in range, room and staging, installs the group in its first round (R240, R243). -/
theorem openReduction_accepted {u : State} (c : Caller) {a : OpenReductionArgs} (hargs : openReductionBad u a = none) (hinputs : inputsBad a = none)
    (hclosed : thas u.carry.groups a.rid = false) (hrested : ∀ t, tget u.carry.closed a.rid = some t → t + ms 8 ≤ u.now)
    (hroom : u.carry.groups.length < 16384) (hstaging : stagingShort u a = none) :
    openReduction u c a = answerOk (warnStaging (setGroup { u with carry := { u.carry with failed := tdel u.carry.failed a.rid } } a.rid
      { a := a, round := a.round0 })) c mbOPEN_REDUCTION [] := by
  have hfree : ¬ (thas u.carry.groups a.rid || (match tget u.carry.closed a.rid with
      | some t => decide (u.now < t + ms 8)
      | none => false)) = true := by
    rw [hclosed, Bool.false_or]
    split
    case h_1 t ht => simpa using hrested t ht
    case h_2 => exact Bool.false_ne_true
  simp only [openReduction, hargs, hinputs, HOrElse.hOrElse, OrElse.orElse, Option.orElse, if_neg hroom.not_ge, hstaging]
  exact if_neg hfree

/-- A command on an open group of the caller's jobs acts on it. -/
theorem onGroup_own {u : State} {c : Caller} (op : Nat) {rid : Nat} {g : Group} (f : Group → State) (hrid : rid < 2 ^ 20) (hg : groupOf u rid = some g)
    (hown : ownJob u c g.a.job = true) : onGroup u c op rid f = f g := by
  simp only [onGroup, if_neg hrid.not_ge, hg, hown, if_true]

/-! ### Sieve programs (R293 to R295) -/

@[simp] theorem progSlot_setSlot_same (s : State) (i : Nat) (x : ProgSlot) : progSlot (setSlot s i x) i = x := tgetD_tset_same _ _ _ _

@[simp] theorem progSlot_setEvt (s : State) (a b i : Nat) : progSlot (setEvt s a b) i = progSlot s i := by simp only [progSlot, setEvt_sieve]

@[simp] theorem progSlot_answerOk (s : State) (c : Caller) (op : Nat) (b : List Byte) (i : Nat) : progSlot (answerOk s c op b) i = progSlot s i := by
  simp only [progSlot, answerOk_sieve]

/-- A part with arguments in range is matched with its slot. -/
theorem loadProgram_wellFormed {u : State} (c : Caller) {slot last owner part : Nat} {ins : List Nat} (hslot : slot < 64) (hlast : last ≤ 1)
    (hsome : ins ≠ []) (hmany : ins.length ≤ 24) (howner : owner < 65536) :
    loadProgram u c slot last owner part ins = loadPart u c slot (decide (last = 1)) owner part ins := by
  have hlength : ¬ (ins = [] ∨ 24 < ins.length) := by simp [hsome, hmany]
  simp only [loadProgram, if_neg hslot.not_ge, if_neg hlast.not_gt, if_neg hlength, if_neg howner.not_ge]

/-- The part of a program that a slot is ready for: the first of a free one, the next of one that is loading, by its owner (R294). -/
def FitsSlot (x : ProgSlot) (owner part : Nat) : Prop :=
  if part = 0 then x.state = .free else x.state = .loading ∧ part = x.nextPart ∧ owner = x.owner

section Load

variable {u : State} (c : Caller) {slot owner part : Nat} {ins code : List Nat} (hfits : FitsSlot (progSlot u slot) owner part)
  (hcode : code = (if part = 0 then [] else (progSlot u slot).code) ++ ins)
include hfits hcode

/-- A part that fits its slot is stored (R293, R294). -/
theorem loadPart_more : loadPart u c slot false owner part ins = answerOk (setSlot u slot
    { state := .loading, owner := owner, nextPart := part + 1, lastPart := u.now, code := code }) c mbLOAD_SIEVE_PROGRAM [] := by
  unfold FitsSlot at hfits
  subst hcode
  by_cases hpart : part = 0
  case pos =>
    rw [if_pos hpart] at hfits
    simp only [loadPart, if_pos hpart, hfits, decide_true, Bool.not_true, Bool.false_eq_true, if_false, Bool.not_false, if_true]
  case neg =>
    rw [if_neg hpart] at hfits
    simp only [loadPart, if_neg hpart, decide_eq_true hfits, Bool.not_true, Bool.false_eq_true, if_false, Bool.not_false, if_true]

/-- The last part of a valid program loads the slot and answers the program's digest (R293, R294). -/
theorem loadPart_last (hgood : firstBad code = none) : loadPart u c slot true owner part ins = answerOk (setEvt (setSlot u slot
    { state := .loaded, owner := owner, nextPart := part + 1, lastPart := u.now, code := code, digest := shake256 (codeBytes code) 64 }) aSIEVE_CFG 9)
    c mbLOAD_SIEVE_PROGRAM (shake256 (codeBytes code) 64) := by
  unfold FitsSlot at hfits
  subst hcode
  by_cases hpart : part = 0
  case pos =>
    rw [if_pos hpart] at hfits hgood
    simp only [loadPart, if_pos hpart, hfits, hgood, decide_true, Bool.not_true, Bool.false_eq_true, if_false]
  case neg =>
    rw [if_neg hpart] at hfits hgood
    simp only [loadPart, if_neg hpart, decide_eq_true hfits, hgood, Bool.not_true, Bool.false_eq_true, if_false]

end Load

/-- A loaded slot is freed, or waits for the requests that use it (R295). -/
theorem unloadProgram_loaded {u : State} {c : Caller} {slot : Nat} (hslot : slot < 64) (hstate : (progSlot u slot).state = .loaded)
    (hown : ownJob u c (progSlot u slot).owner = true) :
    unloadProgram u c slot = answerOk (setEvt (if 0 < slotUsers u slot then setSlot u slot { progSlot u slot with state := .unloading }
      else freeProg u slot) aSIEVE_CFG 9) c mbUNLOAD_SIEVE_PROGRAM [] := by
  simp only [unloadProgram, if_neg hslot.not_ge, hown, Bool.not_true, Bool.and_false, Bool.false_eq_true, if_false, unloadSlot, hstate, decide_true,
    Bool.true_and, decide_eq_true_eq]

/-- A slot of job 0 or of the caller's jobs is answered (R295). -/
theorem queryProgram_own {u : State} {c : Caller} {slot : Nat} (hslot : slot < 64)
    (hown : (progSlot u slot).owner = 0 ∨ ownJob u c (progSlot u slot).owner = true) :
    queryProgram u c slot = answerOk u c mbQUERY_SIEVE_PROGRAM (slotBytes (progSlot u slot)) := by
  have hallowed : ¬ (decide ((progSlot u slot).owner ≠ 0) && !ownJob u c (progSlot u slot).owner) = true := by
    rcases hown with h | h <;> simp [h]
  simp only [queryProgram, if_neg hslot.not_ge, if_neg hallowed]

end Sys2Proof.Machine

section
open Sys2Proof Sys2Proof.Machine

/-- Settles O18: each command that the gate lets go runs in `startCmd s c`, where its checks pass and its own lemma gives the effect. -/
theorem reductionAndProgramCommandsComplete : Obligations.ReductionAndProgramCommandsComplete := by
  unfold Obligations.ReductionAndProgramCommandsComplete
  rintro s _ c rfl
  refine ⟨?open_, ?group, ?load, ?unload, ?query⟩
  case open_ =>
    intro a hg hargs hinputs hclosed hrested hroom hstaging
    refine ⟨_, next_mboxRun_go hg (openReduction_accepted c hargs hinputs hclosed hrested hroom hstaging), ?_, ?_, ?_, ?_⟩
    all_goals rw [warnStaging_only]
    · exact answerOk_of_gate hg (startCmd_supply s c) rfl rfl
    · simp only [answerOk_carry, setGroup, startCmd_carry]
    · simp only [answerOk_pool, setGroup, startCmd_pool]
    · simp only [answerOk_net, setGroup, startCmd_net]
  case group =>
    intro rid g hrid hgroup hown
    refine ⟨?close, ?abortRoot, ?abortUp, ?groupState⟩
    case close => exact fun hg => next_mboxRun_go hg (onGroup_own _ _ hrid hgroup hown)
    case abortRoot => exact fun hg hroot => next_mboxRun_go hg ((onGroup_own _ _ hrid hgroup hown).trans (if_pos hroot))
    case abortUp => exact fun hg hroot => next_mboxRun_go hg ((onGroup_own _ _ hrid hgroup hown).trans (if_neg (Bool.eq_false_iff.mp hroot)))
    case groupState => exact fun hg => next_mboxRun_go hg (onGroup_own _ _ hrid hgroup hown)
  case load =>
    intro slot last owner part ins hg hslot hlast hsome hmany howner hfits code hcode
    have run {t : State} (ht : loadPart (startCmd s c) c slot (decide (last = 1)) owner part ins = t) :
        exec (.loadSieveProgram c slot last owner part ins) s = .next t :=
      next_mboxRun_go hg ((loadProgram_wellFormed c hslot hlast hsome hmany howner).trans ht)
    refine ⟨?more, ?last⟩
    case more =>
      rintro rfl
      refine ⟨_, run (loadPart_more c hfits hcode), answerOk_of_gate hg (startCmd_supply s c) rfl rfl, ?_⟩
      simp only [progSlot_answerOk, progSlot_setSlot_same, startCmd_now]
    case last =>
      rintro rfl hgood
      refine ⟨_, run (loadPart_last c hfits hcode hgood), answerOk_of_gate hg (startCmd_supply s c) rfl rfl, ?_⟩
      simp only [progSlot_answerOk, progSlot_setEvt, progSlot_setSlot_same, startCmd_now]
  case unload => exact fun slot hg hslot hstate hown => next_mboxRun_go hg (unloadProgram_loaded hslot hstate hown)
  case query => exact fun slot hg hslot hown => next_mboxRun_go hg (queryProgram_own hslot hown)

end

/-! ### Mover and bead channels

What each command on a mover or bead channel does when nothing turns it away, and its row (O19). -/

namespace Sys2Proof.Machine

/-! ### Mover channels (R307) -/

@[simp] theorem chan_setChan_same (s : State) (ch : Nat) (x : Channel) : chan (setChan s ch x) ch = x := tgetD_tset_same _ _ _ _

theorem chan_setChan_other (s : State) {ch o : Nat} (x : Channel) (h : o ≠ ch) : chan (setChan s ch x) o = chan s o := tgetD_tset_other _ _ _ h.symm

@[simp] theorem chan_startCmd (s : State) (c : Caller) (ch : Nat) : chan (startCmd s c) ch = chan s ch := by simp only [chan, startCmd_mover]

@[simp] theorem chan_answerOk (s : State) (c : Caller) (op : Nat) (b : List Byte) (ch : Nat) : chan (answerOk s c op b) ch = chan s ch := by
  simp only [chan, answerOk_mover]

/-- A CLOSED channel, with arguments in range and an installed job, is opened IDLE with its ring. -/
theorem openChannel_accepted {u : State} (c : Caller) {ch lg prio job base : Nat} (hch : ch < 128) (hlow : 4 ≤ lg) (hhigh : lg ≤ 16) (hprio : prio ≤ 3)
    (haligned : base % (64 * 2 ^ lg) = 0) (hinside : base + 64 * 2 ^ lg ≤ 2 ^ 48) (hjob : thas u.pool.jobs job = true)
    (hclosed : (chan u ch).state = .closed) :
    openChannel u c ch lg prio job base = answerOk
      (setChan u ch { state := .idle, prio := prio, job := job, ringBase := base, ringLog2 := lg, record := (chan u ch).record })
      c mbOPEN_MOVER_CHANNEL [] := by
  have hsize : ¬ (lg < 4 ∨ 16 < lg) := by omega
  have hring : ¬ (base % (64 * 2 ^ lg) ≠ 0 ∨ 2 ^ 48 < base + 64 * 2 ^ lg) := not_or_intro (not_not_intro haligned) hinside.not_gt
  simp only [openChannel, if_neg hch.not_ge, if_neg hsize, if_neg hprio.not_gt, if_neg hring, hjob, if_neg (not_not_intro hclosed), Bool.not_true,
    Bool.false_eq_true, if_false]

/-- A command on a channel that is CLOSED or of the caller's jobs acts on it. -/
theorem onChannel_own {u : State} {c : Caller} (op : Nat) {ch : Nat} (f : Channel → State) (hch : ch < 128)
    (hown : (chan u ch).state = .closed ∨ ownJob u c (chan u ch).job = true) : onChannel u c op ch f = f (chan u ch) := by
  have hallowed : ¬ (decide ((chan u ch).state ≠ .closed) && !ownJob u c (chan u ch).job) = true := by
    rcases hown with h | h <;> simp [h]
  exact (if_neg hch.not_ge).trans (if_neg hallowed)

/-- An open channel that is not closing yet begins its close. -/
theorem closeCommand_open (u : State) (c : Caller) (ch : Nat) {x : Channel} (hopen : x.state ≠ .closed) (hclosing : x.closing = false) :
    closeCommand u c ch x = settle (askClose u ch kSUCCESS (some c)) :=
  if_neg (by simp [hopen, hclosing])

/-- An open channel takes its new priority at the next step boundary where its engine runs a channel, else at once. -/
theorem setPriority_open (u : State) (c : Caller) (ch : Nat) {prio : Nat} {x : Channel} (hprio : prio ≤ 3) (hopen : x.state ≠ .closed) :
    setPriority u c ch prio x = answerOk
      (setChan u ch (if (runningOn u (ch / 4)).isSome then { x with newPrio := some prio } else { x with prio := prio, newPrio := none }))
      c mbSET_MOVER_PRIORITY [] := by
  simp only [setPriority, if_neg hprio.not_gt, if_neg hopen]
  split <;> rfl

/-! ### Bead channels (R340) -/

@[simp] theorem beadCh_setBead_same (s : State) (ch : Nat) (x : BeadCh) : beadCh (setBead s ch x) ch = x := tgetD_tset_same _ _ _ _

@[simp] theorem beadCh_startCmd (s : State) (c : Caller) (ch : Nat) : beadCh (startCmd s c) ch = beadCh s ch := by simp only [beadCh, startCmd_bead]

@[simp] theorem beadCh_answerOk (s : State) (c : Caller) (op : Nat) (b : List Byte) (ch : Nat) : beadCh (answerOk s c op b) ch = beadCh s ch := by
  simp only [beadCh, answerOk_bead]

/-- Being started does not change the shed level. -/
@[simp] theorem level_startCmd (s : State) (c : Caller) : level (startCmd s c) = level s := by
  rw [level, forcedShed, startCmd_supply]
  rfl

/-- A resident channel in mode MEMORY without an owner, on a stack in service, is given to an installed job. -/
theorem assignChannel_free {u : State} (c : Caller) {ch job : Nat} (hch : ch < 128) (hjob : thas u.pool.jobs job = true)
    (hresident : (residentChannels u).contains ch = true) (hmode : (beadCh u ch).mode = .memory) (howner : (beadCh u ch).owner = none)
    (hstack : u.pool.stacksLost.contains (ch / 16) = false) :
    assignChannel u c ch job = answerOk
      (setBead u ch { beadCh u ch with owner := some job, saved := .memory, shedHeld := decide (1 ≤ level u) }) c mbASSIGN_BEAD_CHANNEL [] := by
  have hfree : ¬ (!((residentChannels u).contains ch) || decide ((beadCh u ch).mode ≠ .memory) || (beadCh u ch).owner.isSome ||
      u.pool.stacksLost.contains (ch / 16)) = true := by
    rw [hresident, hmode, howner, hstack]
    decide
  simp only [assignChannel, if_neg hch.not_ge, hjob, if_neg hfree, Bool.not_true, Bool.false_eq_true, if_false]

/-- An assigned channel of the caller's jobs stops its beads and is answered. -/
theorem releaseChannel_assigned {u : State} {c : Caller} {ch : Nat} (hch : ch < 128) (hassigned : (beadCh u ch).owner.isSome = true)
    (hown : ownChannel u c ch = true) :
    releaseChannel u c ch = answerOk (settle (stopBead u ch kACCESS_DENIED true)) c mbRELEASE_BEAD_CHANNEL [] := by
  have howner : ¬ (beadCh u ch).owner.isNone = true := by simp [Option.isSome_iff_ne_none.mp hassigned]
  simp only [releaseChannel, if_neg hch.not_ge, hown, if_neg howner, Bool.not_true, Bool.false_eq_true, if_false]

/-- A channel of the caller's jobs is answered. -/
theorem queryChannel_own {u : State} {c : Caller} {ch : Nat} (hch : ch < 128) (hown : ownChannel u c ch = true) :
    queryChannel u c ch = answerOk u c mbQUERY_BEAD_CHANNEL (beadChannelBytes u ch) := by
  simp only [queryChannel, if_neg hch.not_ge, hown, Bool.not_true, Bool.false_eq_true, if_false]

end Sys2Proof.Machine

section
open Sys2Proof Sys2Proof.Machine

/-- Settles O19: each command that the gate lets go runs in `startCmd s c`, where its checks pass and its own lemma gives the effect. -/
theorem channelCommandsComplete : Obligations.ChannelCommandsComplete := by
  unfold Obligations.ChannelCommandsComplete
  rintro s _ c ch rfl hch
  refine ⟨?openMover, ?ofOpen, ?queryMover, ?assign, ?release, ?queryBead⟩
  case openMover =>
    intro lg prio job base hg hlow hhigh hprio haligned hinside hjob hclosed
    refine ⟨_, next_mboxRun_go hg (openChannel_accepted c hch hlow hhigh hprio haligned hinside hjob hclosed),
      answerOk_of_gate hg (startCmd_supply s c) rfl rfl, ?ring, fun o ho => ?others, ?pool⟩
    case ring => simp only [chan_answerOk, chan_setChan_same, chan_startCmd]
    case others => simp only [chan_answerOk, chan_setChan_other _ _ ho, chan_startCmd]
    case pool => simp only [answerOk_pool, setChan, startCmd_pool]
  case ofOpen =>
    intro hopen hown
    refine ⟨fun hg hclosing => ?close, fun prio hg hprio => ?priority⟩
    case close => exact next_mboxRun_go hg ((onChannel_own _ _ hch (.inr hown)).trans (closeCommand_open _ c ch hopen hclosing))
    case priority =>
      refine ⟨_, next_mboxRun_go hg ((onChannel_own _ _ hch (.inr hown)).trans (setPriority_open _ c ch hprio hopen)),
        answerOk_of_gate hg (startCmd_supply s c) rfl rfl, ?_⟩
      simp only [chan_answerOk, chan_setChan_same, chan_startCmd]
  case queryMover => exact fun hown hg => next_mboxRun_go hg (onChannel_own _ _ hch hown)
  case assign =>
    intro job hg hjob hresident hmode howner hstack
    refine ⟨_, next_mboxRun_go hg (assignChannel_free c hch hjob hresident hmode howner hstack),
      answerOk_of_gate hg (startCmd_supply s c) rfl rfl, ?_, ?_⟩
    · simp only [beadCh_answerOk, beadCh_setBead_same, beadCh_startCmd, level_startCmd]
    · simp only [answerOk_pool, setBead, startCmd_pool]
  case release => exact fun hg hassigned hown => next_mboxRun_go hg (releaseChannel_assigned hch hassigned hown)
  case queryBead => exact fun hg hown => next_mboxRun_go hg (queryChannel_own hch hown)

end

/-! ### Steps, time and reset

What a step does with the queue of commands, what one idle nanosecond moves, and what the machine is after reset (O37, O38, O39). -/

namespace Sys2Proof.Machine

theorem step_front {s : State} {c : Instr} {r : List Instr} (h : s.pending = c :: r) : step s = exec c (withPending s r) := by
  simp only [step, h]

theorem step_idle {s : State} (h : s.pending = []) : step s = .next (tick s) := by
  simp only [step, h]

/-! ### One nanosecond of the time counter (R389) -/

theorem tickClock_unslewed {c : Clock} (h : c.slew = 0) : tickClock c = { c with counter := c.counter + 1 } := if_pos h

/-- The counter moves by 0, 1 or 2, lock and offset stay, and a slew that moves comes one nanosecond nearer to 0. -/
theorem tickClock_bounds (c : Clock) :
    c.counter ≤ (tickClock c).counter ∧ (tickClock c).counter ≤ c.counter + 2 ∧ (tickClock c).locked = c.locked ∧ (tickClock c).offset = c.offset ∧
      ((tickClock c).slew ≠ c.slew → (tickClock c).slew.natAbs + 1 = c.slew.natAbs) := by
  unfold tickClock
  split
  · simp
  · split
    · simp
    · split
      · refine ⟨by simp, by simp, rfl, rfl, fun _ => ?_⟩
        dsimp only
        omega
      · refine ⟨by simp, by simp, rfl, rfl, fun _ => ?_⟩
        dsimp only
        omega

/-- The clock of a module without supply stands, and that of a powered one counts. -/
theorem tick_clock_bounds (s : State) :
    s.clock.counter ≤ (tick s).clock.counter ∧ (tick s).clock.counter ≤ s.clock.counter + 2 ∧ (tick s).clock.locked = s.clock.locked ∧
      (tick s).clock.offset = s.clock.offset ∧ ((tick s).clock.slew ≠ s.clock.slew → (tick s).clock.slew.natAbs + 1 = s.clock.slew.natAbs) := by
  rw [tick_clock]
  split
  · simp
  · exact tickClock_bounds s.clock

end Sys2Proof.Machine

section
open Sys2Proof Sys2Proof.Machine

/-- Settles O37, by the first branch of `step`. -/
theorem stepRunsTheFrontCommand : Obligations.StepRunsTheFrontCommand := by
  unfold Obligations.StepRunsTheFrontCommand
  exact fun _ _ _ h => step_front h

/-- Settles O38: the second branch of `step` is `tick`, whose clock either stands or is `tickClock`. -/
theorem emptyQueueLetsTimePass : Obligations.EmptyQueueLetsTimePass := by
  unfold Obligations.EmptyQueueLetsTimePass
  intro s h
  refine ⟨step_idle h, fun hoff => ?_, fun hon hslew => ?_, tick_clock_bounds s⟩
  · rw [tick_clock, if_pos hoff]
  · rw [tick_clock, if_neg hon, tickClock_unslewed hslew]

/-- Settles O39: every table of the state after reset is empty, so that each accessor answers its default. -/
theorem resetLeaves : Obligations.ResetLeaves := by
  unfold Obligations.ResetLeaves
  exact ⟨rfl, rfl, rfl, rfl, rfl, fun _ => rfl, fun _ => rfl, fun _ => rfl, fun _ => rfl, fun _ => nofun, fun _ => rfl, rfl, rfl, fun _ => rfl, rfl,
    fun _ => rfl, rfl⟩

end

/-! ### What a port sends at a packet boundary

Gate schedules (O51) and the choice among the queues of a port (O52). -/

namespace Sys2Proof.Machine

/-! ### Gate schedules (R384, R385) -/

/-- The place of a time in a cycle, and the cycle that it lies in. -/
theorem gatePlace_spec {g : Gate} {t : Nat} (hbase : g.base ≤ t) (hcycle : 0 < gateCycle g) :
    gatePlace g t < gateCycle g ∧ ∃ k, t = g.base + k * gateCycle g + gatePlace g t := by
  have hone : max 1 (gateCycle g) = gateCycle g := by omega
  have hplace : gatePlace g t = (t - g.base) % gateCycle g := by
    have hb := Nat.mod_lt g.base hcycle
    have hd := Nat.div_add_mod g.base (gateCycle g)
    rw [gatePlace, hone, Nat.mod_add_mod, ← Nat.add_mul_mod_self_left (t - g.base) (gateCycle g) (g.base / gateCycle g + 1), Nat.mul_add, Nat.mul_one]
    congr 1
    omega
  refine ⟨hplace ▸ Nat.mod_lt _ hcycle, (t - g.base) / gateCycle g, ?_⟩
  have hd := Nat.div_add_mod' (t - g.base) (gateCycle g)
  omega

/-- The entry of a cycle that is in force at a place, with those before and after it. -/
theorem gateFrom_spec {l : List (Nat × Nat)} {off : Nat} (h : off < (l.map (·.1)).sum) :
    ∃ left pre e later, l = pre ++ e :: later ∧ gateFrom off l = (left, e.2) :: later ∧ 0 < left ∧ left ≤ e.1 ∧ off + left = (pre.map (·.1)).sum + e.1 := by
  induction l generalizing off with
  | nil => simp at h
  | cons e r ih =>
    by_cases hin : off < e.1
    · exact ⟨e.1 - off, [], e, r, rfl, if_pos hin, by omega, by omega, by simp; omega⟩
    · have hrest : off - e.1 < (r.map (·.1)).sum := by
        simp only [List.map_cons, List.sum_cons] at h
        omega
      obtain ⟨left, pre, x, later, hsplit, hfrom, hpos, hle, hsum⟩ := ih hrest
      refine ⟨left, e :: pre, x, later, by rw [hsplit, List.cons_append], (if_neg hin).trans hfrom, hpos, hle, ?_⟩
      simp only [List.map_cons, List.sum_cons]
      omega

section OpenLeft

variable {g : Gate} {t left k : Nat} {later : List (Nat × Nat)} (hfrom : gateFrom (gatePlace g t) g.entries = (left, k) :: later)
include hfrom

/-- A queue that the entry in force closes has no time left. -/
theorem openLeft_closed {q : Nat} (hentry : ∃ e ∈ g.entries, e.2 = k) (h : bit k q = false) : openLeft g t q = some 0 := by
  obtain ⟨e, he, hk⟩ := hentry
  have hnot : ¬ (g.entries.all fun e => bit e.2 q) = true := fun hall => by
    have hopen := List.all_eq_true.mp hall e he
    rw [hk, h] at hopen
    cases hopen
  simp only [openLeft, if_neg hnot, hfrom, List.cons_append, List.takeWhile_cons, h, Bool.false_eq_true, if_false, List.map_nil, List.sum_nil]

/-- A queue that the entry in force opens has at least what is left of the entry. -/
theorem le_openLeft {q n : Nat} (h : bit k q = true) (hn : openLeft g t q = some n) : left ≤ n := by
  obtain ⟨-, hn⟩ := Option.ite_none_left_eq_some.mp hn
  rw [← Option.some.inj hn, hfrom]
  simp only [List.cons_append, List.takeWhile_cons, h, if_true, List.map_cons, List.sum_cons]
  exact Nat.le_add_right _ _

end OpenLeft

theorem openLeft_noEntries {g : Gate} (t q : Nat) (h : g.entries = []) : openLeft g t q = none := if_pos (by simp [h])

/-! ### The queue that sends (R379) -/

/-- The queues of a port whose head packet is eligible, in ascending order. -/
def eligibleQueues (s : State) (q : Nat) : List (Nat × QPkt × Bool) :=
  (List.range 16).filterMap fun i => (eligible s q (16 * q + i)).map fun x => (16 * q + i, x)

/-- A queue whose entries leave in strict priority. -/
def strictQueue (s : State) (k : Nat) : Bool := regField s (aQUEUE_PARAM k) 8 1 = 1

/-- Of two queues the one that goes first by finish tag. -/
def lesserTag (s : State) (best : Option (Nat × QPkt × Bool)) (e : Nat × QPkt × Bool) : Option (Nat × QPkt × Bool) :=
  match best with
  | none => some e
  | some b => if (outQ s e.1).fin < (outQ s b.1).fin then some e else some b

theorem strictQueue_eq_true {s : State} {k : Nat} : strictQueue s k = true ↔ regField s (aQUEUE_PARAM k) 8 1 = 1 := decide_eq_true_iff

theorem strictQueue_eq_false {s : State} {k : Nat} : strictQueue s k = false ↔ regField s (aQUEUE_PARAM k) 8 1 ≠ 1 := decide_eq_false_iff_not

theorem chooseQueue_eq (s : State) (q : Nat) :
    chooseQueue s q = match ((eligibleQueues s q).filter fun e => strictQueue s e.1).getLast? with
      | some e => some e
      | none => (eligibleQueues s q).foldl (lesserTag s) none := rfl

theorem mem_eligibleQueues {s : State} {q : Nat} {e : Nat × QPkt × Bool} :
    e ∈ eligibleQueues s q ↔ ∃ i < 16, e.1 = 16 * q + i ∧ eligible s q e.1 = some e.2 := by
  obtain ⟨k, x⟩ := e
  simp only [eligibleQueues, List.mem_filterMap, List.mem_range, Option.map_eq_some_iff, Prod.mk.injEq]
  constructor
  · rintro ⟨i, hi, y, hy, rfl, rfl⟩
    exact ⟨i, hi, rfl, hy⟩
  · rintro ⟨i, hi, rfl, hy⟩
    exact ⟨i, hi, x, hy, rfl, rfl⟩

theorem eligibleQueues_sorted (s : State) (q : Nat) : (eligibleQueues s q).Pairwise fun a b => a.1 < b.1 := by
  refine List.pairwise_filterMap.mpr (List.pairwise_lt_range.imp ?_)
  intro i j hij a ha b hb
  obtain ⟨_, _, rfl⟩ := Option.map_eq_some_iff.mp ha
  obtain ⟨_, _, rfl⟩ := Option.map_eq_some_iff.mp hb
  exact Nat.add_lt_add_left hij _

/-- The last entry of a list in ascending order has the highest index. -/
theorem le_getLast_of_sorted {α : Type} {f : α → Nat} {l : List α} {e : α} (hsorted : l.Pairwise fun a b => f a < f b) (hlast : l.getLast? = some e)
    {x : α} (hx : x ∈ l) : f x ≤ f e := by
  obtain ⟨r, rfl⟩ := List.getLast?_eq_some_iff.mp hlast
  rcases List.mem_append.mp hx with hx | hx
  · exact (List.pairwise_append.mp hsorted).2.2 x hx e (List.mem_singleton_self e) |>.le
  · rw [List.mem_singleton.mp hx]

/-- A queue that no other of a list goes before: none has a smaller finish tag, nor one of lower index the same. -/
def FirstByTag (s : State) (l : List (Nat × QPkt × Bool)) (b : Nat × QPkt × Bool) : Prop :=
  b ∈ l ∧ ∀ e ∈ l, (outQ s b.1).fin ≤ (outQ s e.1).fin ∧ ((outQ s e.1).fin = (outQ s b.1).fin → b.1 ≤ e.1)

theorem FirstByTag.snoc {s : State} {l : List (Nat × QPkt × Bool)} {b e : Nat × QPkt × Bool} (h : FirstByTag s l b) (hlast : ∀ x ∈ l, x.1 < e.1) :
    ∃ c, lesserTag s (some b) e = some c ∧ FirstByTag s (l ++ [e]) c := by
  obtain ⟨hmem, hfirst⟩ := h
  by_cases hless : (outQ s e.1).fin < (outQ s b.1).fin
  · refine ⟨e, if_pos hless, by simp, fun x hx => ?_⟩
    rcases List.mem_append.mp hx with hx | hx
    · have := (hfirst x hx).1
      exact ⟨by omega, by omega⟩
    · rw [List.mem_singleton.mp hx]
      exact ⟨le_rfl, fun _ => le_rfl⟩
  · refine ⟨b, if_neg hless, by simp [hmem], fun x hx => ?_⟩
    rcases List.mem_append.mp hx with hx | hx
    · exact hfirst x hx
    · rw [List.mem_singleton.mp hx]
      exact ⟨by omega, fun _ => (hlast b hmem).le⟩

/-- The fold over queues in ascending order finds the one that goes first by finish tag; of no queues it finds none. -/
theorem foldl_lesserTag {s : State} {l : List (Nat × QPkt × Bool)} (hsorted : l.Pairwise fun a b => a.1 < b.1) :
    (l = [] ∧ l.foldl (lesserTag s) none = none) ∨ ∃ b, l.foldl (lesserTag s) none = some b ∧ FirstByTag s l b := by
  induction l using List.reverseRecOn with
  | nil => exact .inl ⟨rfl, rfl⟩
  | append_singleton r e ih =>
    obtain ⟨hr, -, hlast⟩ := List.pairwise_append.mp hsorted
    rw [List.foldl_append, List.foldl_cons, List.foldl_nil]
    refine .inr ?_
    rcases ih hr with ⟨rfl, hnone⟩ | ⟨b, hb, hfirst⟩
    · exact ⟨e, by rw [hnone]; rfl, by simp, by simp⟩
    · rw [hb]
      exact hfirst.snoc fun x hx => hlast x hx e (List.mem_singleton_self e)

/-- What the chosen queue is: the highest strict one that is eligible, or, with none strict, the first by finish tag. -/
theorem chooseQueue_some {s : State} {q : Nat} {e : Nat × QPkt × Bool} (h : chooseQueue s q = some e) :
    e ∈ eligibleQueues s q ∧
      ((strictQueue s e.1 = true ∧ ∀ x ∈ eligibleQueues s q, strictQueue s x.1 = true → x.1 ≤ e.1) ∨
        ((∀ x ∈ eligibleQueues s q, strictQueue s x.1 = false) ∧ FirstByTag s (eligibleQueues s q) e)) := by
  rw [chooseQueue_eq] at h
  split at h
  next b hb =>
    cases h
    obtain ⟨hmem, hstrict⟩ := List.mem_filter.mp (List.mem_of_getLast? hb)
    exact ⟨hmem, .inl ⟨hstrict, fun x hx hs =>
      le_getLast_of_sorted (f := Prod.fst) ((eligibleQueues_sorted s q).filter _) hb (List.mem_filter.mpr ⟨hx, hs⟩)⟩⟩
  next hnone =>
    have hplain : ∀ x ∈ eligibleQueues s q, strictQueue s x.1 = false := by
      simpa [List.filter_eq_nil_iff] using hnone
    rcases foldl_lesserTag (s := s) (eligibleQueues_sorted s q) with ⟨-, hfold⟩ | ⟨b, hfold, hfirst⟩
    · rw [hfold] at h
      cases h
    · cases hfold.symm.trans h
      exact ⟨hfirst.1, .inr ⟨hplain, hfirst⟩⟩

theorem chooseQueue_none {s : State} {q : Nat} : chooseQueue s q = none ↔ eligibleQueues s q = [] := by
  constructor
  · intro h
    rw [chooseQueue_eq] at h
    split at h
    · cases h
    · rcases foldl_lesserTag (s := s) (eligibleQueues_sorted s q) with ⟨hnil, -⟩ | ⟨b, hfold, -⟩
      · exact hnil
      · cases hfold.symm.trans h
  · intro h
    rw [chooseQueue_eq, h]
    rfl

theorem eligibleQueues_eq_nil {s : State} {q : Nat} : eligibleQueues s q = [] ↔ ∀ j < 16, eligible s q (16 * q + j) = none := by
  simp [eligibleQueues, List.filterMap_eq_nil_iff]

theorem exists_mem_eligibleQueues {s : State} {q j : Nat} (hj : j < 16) (h : (eligible s q (16 * q + j)).isSome = true) :
    ∃ x, (16 * q + j, x) ∈ eligibleQueues s q := by
  obtain ⟨x, hx⟩ := Option.isSome_iff_exists.mp h
  exact ⟨x, mem_eligibleQueues.mpr ⟨j, hj, rfl, hx⟩⟩

end Sys2Proof.Machine

section
open Sys2Proof Sys2Proof.Machine

/-- Settles O51: the place of the time is one of the cycle, the entry in force is the one whose span holds it, and `openLeft` counts from there. -/
theorem gatesFollowTheSchedule : Obligations.GatesFollowTheSchedule := by
  unfold Obligations.GatesFollowTheSchedule
  refine ⟨fun g t hbase hcycle => ?_, fun g t q h => openLeft_noEntries t q h⟩
  obtain ⟨hplace, k, hk⟩ := gatePlace_spec hbase hcycle
  obtain ⟨left, pre, e, later, hsplit, hfrom, hpos, hle, hsum⟩ := gateFrom_spec hplace
  have he : e ∈ g.entries := by simp [hsplit]
  exact ⟨k, left, pre, e, later, hk, hplace, hsplit, hfrom, hpos, hle, hsum, fun q => openLeft_closed hfrom ⟨e, he, rfl⟩, fun q n => le_openLeft hfrom⟩

/-- Settles O52: the two cases of the choice, a strict queue or the first by finish tag, over the eligible queues in ascending order. -/
theorem portsSendTheChosenQueue : Obligations.PortsSendTheChosenQueue := by
  unfold Obligations.PortsSendTheChosenQueue
  refine fun s q => ⟨fun k x o h => ?_, chooseQueue_none.trans eligibleQueues_eq_nil⟩
  obtain ⟨hmem, hcase⟩ := chooseQueue_some h
  obtain ⟨i, hi, hk, helig⟩ := mem_eligibleQueues.mp hmem
  refine ⟨⟨i, hi, hk⟩, helig, fun hstrict j hj hsome hother => ?strict, fun hplain j hj hsome => ?fair⟩
  case strict =>
    obtain ⟨y, hy⟩ := exists_mem_eligibleQueues hj hsome
    rcases hcase with ⟨-, hhighest⟩ | ⟨hnone, -⟩
    · exact hhighest (16 * q + j, y) hy (strictQueue_eq_true.mpr hother)
    · exact absurd hstrict (strictQueue_eq_false.mp (hnone (k, x, o) hmem))
  case fair =>
    obtain ⟨y, hy⟩ := exists_mem_eligibleQueues hj hsome
    rcases hcase with ⟨hstrict, -⟩ | ⟨hnone, -, hfirst⟩
    · exact absurd (strictQueue_eq_true.mp hstrict) hplain
    · exact ⟨strictQueue_eq_false.mp (hnone (16 * q + j, y) hy), hfirst (16 * q + j, y) hy⟩

end

/-! ### Mailbox commands that are turned away

The common checks of every mailbox command, and what one does that they do not let go (O45). -/

namespace Sys2Proof.Machine

/-- With no gate commit waiting, every mailbox command is a body behind the common checks. -/
theorem exec_mailboxCommand {s : State} {i : Instr} {c : Caller} {op : Nat} {jobs : List Nat} (h : mailboxCommand i = some (c, op, jobs))
    (hgate : s.queues.gateCommit = none) : ∃ body, exec i s = .next (mboxRun s c op jobs body) := by
  unfold mailboxCommand at h
  split at h
  case h_3 c group =>
    cases h
    exact ⟨_, congrArg Host.Outcome.next (if_neg (by simp [hgate]))⟩
  all_goals cases h
  all_goals exact ⟨_, rfl⟩

theorem mboxRun_wait {s : State} {c : Caller} {op : Nat} {jobs : List Nat} (body : State → State) (h : gate s c op jobs = .wait) :
    mboxRun s c op jobs body = s := by
  rw [mboxRun, h]

theorem mboxRun_deny {s : State} {c : Caller} {op k d : Nat} {jobs : List Nat} (body : State → State) (h : gate s c op jobs = .deny k d) :
    mboxRun s c op jobs body = answer (startCmd s c) c op k d [] := by
  rw [mboxRun, h]

theorem gate_absent {s : State} {c : Caller} {op : Nat} (jobs : List Nat) (h : s.supply.phase < 3 ∨ cutOff s c op = true) : gate s c op jobs = .wait :=
  if_pos h

section Gate

variable {s : State} {c : Caller} {op : Nat} {jobs : List Nat} (hphase : 3 ≤ s.supply.phase) (hcut : cutOff s c op = false)
include hphase hcut

/-- A READY module whose Reckoner is whole and cool asks a command of another mailbox for its class, its jobs and a place among the started ones. -/
theorem gate_ready (hready : isReady s = true) (hclear : isClear c.mbox = false) (hcores : 6 ≤ coresLeft s) (hcool : reckonerHot s = false) :
    gate s c op jobs =
      if !(callerClass c ∈ classesOf op) then .deny mPRIVILEGE_DENIED 0
      else match jobs.find? (fun j => !ownJob s c j) with
        | some j => .deny mJOB_NOT_PERMITTED j
        | none => if 16 ≤ (mboxOf s c.mbox).started.length then .wait else .go := by
  have hmany : ¬ coresLeft s ≤ 5 := by omega
  refine (if_neg (by simp [hcut, hphase])).trans ((if_neg (by simp [hready])).trans ((if_neg (by simp [hclear])).trans ((if_neg (by simp [hmany, hcool])).trans ?_)))
  rfl

variable (hfetch : s.rkn.dvorro ≠ .fetch)
include hfetch

theorem gate_notReady (hready : isReady s = false) (hid : op ≠ mbGET_IDENTITY) (hstatus : op ≠ mbGET_STATUS) :
    gate s c op jobs = .deny mNOT_READY s.supply.phase :=
  (if_neg (by simp [hcut, hphase])).trans (if_pos (by simp [hready, hid, hstatus, hfetch]))

theorem gate_clear (hready : isReady s = true) (hclear : isClear c.mbox = true) (hid : op ≠ mbGET_IDENTITY) (hstatus : op ≠ mbGET_STATUS)
    (hopen : op ≠ mbOPEN_SESSION) : gate s c op jobs = .deny mSESSION_INVALID 0 :=
  (if_neg (by simp [hcut, hphase])).trans ((if_neg (by simp [hready])).trans (if_pos (by simp [hclear, hid, hstatus, hopen, hfetch])))

end Gate

end Sys2Proof.Machine

section
open Sys2Proof Sys2Proof.Machine

/-- Settles O45: every mailbox command is `mboxRun` of its body, which the verdict of `gate` decides; the verdicts are those of its branches in turn. -/
theorem turnedAwayCommandsOnlyAnswer : Obligations.TurnedAwayCommandsOnlyAnswer := by
  unfold Obligations.TurnedAwayCommandsOnlyAnswer
  intro s i c op jobs hcmd hgate
  obtain ⟨body, hbody⟩ := exec_mailboxCommand hcmd hgate
  have waits (h : gate s c op jobs = .wait) : exec i s = .next s := hbody.trans (congrArg Host.Outcome.next (mboxRun_wait body h))
  refine ⟨fun h => waits (gate_absent jobs h), waits, fun k d h => ?denied, fun hphase hcut hfetch => ⟨?_, ?_, ?ready⟩⟩
  case denied =>
    exact ⟨_, hbody.trans (congrArg Host.Outcome.next (mboxRun_deny body h)), rfl, (answerOnly_startCmd s c).trans (answerOnly_answer _ c op k d [])⟩
  · exact gate_notReady hphase hcut hfetch
  · exact gate_clear hphase hcut hfetch
  case ready =>
    intro hready hclear hcores hcool
    rw [gate_ready hphase hcut hready hclear hcores hcool]
    refine ⟨fun hclass => if_pos (by simp [hclass]), fun hclass => ?_⟩
    rw [if_neg (by simp [hclass])]
    refine ⟨fun j hj => by rw [hj], fun hown hroom => ?_⟩
    have hnone : jobs.find? (fun j => !ownJob s c j) = none := List.find?_eq_none.mpr fun j hj => by simp [hown j hj]
    rw [hnone]
    exact if_neg (by omega)

end

/-! ### The sequence of command slots

How a mailbox meets a slot by its CSEQ, and when its sequence starts at 1 (O48). -/

namespace Sys2Proof.Machine

/-! ### A slot by its distance from NEXT_CSEQ (R488) -/

theorem gap_thirtyTwo {a b : Nat} (ha : a < 2 ^ 32) (hb : b < 2 ^ 32) : gap 32 a b = (a + 2 ^ 32 - b) % 2 ^ 32 := by
  rw [gap, Nat.mod_eq_of_lt ha, Nat.mod_eq_of_lt hb]

/-- What a slot from before NEXT_CSEQ gets for what is stored under its CSEQ: the response again, nothing while there is none, or `SEQUENCE_STALE`. -/
def answerPast (s : State) (m : MboxId) (sl : MboxSlot) : Option (Nat × Option Response) → State
  | some (_, some r) => sendResponse s (slotCaller s m sl) r
  | some (_, none) => s
  | none => slotAnswer s m sl mSEQUENCE_STALE 0

section Sequence

variable {s : State} {m : MboxId} {sl : MboxSlot}

theorem sequenceSlot_next (h : gap 32 sl.cseq (mboxOf s m).nextCseq = 0) :
    sequenceSlot s m sl = takeHeld m ((mboxOf s m).held.length + 1) (takeTurn s m sl) := if_pos h

theorem sequenceSlot_ahead (h : 1 ≤ gap 32 sl.cseq (mboxOf s m).nextCseq) (h' : gap 32 sl.cseq (mboxOf s m).nextCseq ≤ 63) :
    sequenceSlot s m sl = setMbox s m { mboxOf s m with held := (mboxOf s m).held.filter (fun h => h.cseq ≠ sl.cseq) ++ [sl] } :=
  (if_neg (by omega)).trans (if_pos h')

theorem sequenceSlot_far (h : 64 ≤ gap 32 sl.cseq (mboxOf s m).nextCseq) (h' : gap 32 sl.cseq (mboxOf s m).nextCseq < 2 ^ 31) :
    sequenceSlot s m sl = slotAnswer s m sl mSEQUENCE_STALE 0 := by
  simp only [sequenceSlot, if_neg (show ¬ gap 32 sl.cseq (mboxOf s m).nextCseq = 0 by omega),
    if_neg (show ¬ gap 32 sl.cseq (mboxOf s m).nextCseq ≤ 63 by omega), if_pos h']

/-- A slot from before NEXT_CSEQ meets the responses stored of those taken last. -/
theorem sequenceSlot_past (h : 2 ^ 31 ≤ gap 32 sl.cseq (mboxOf s m).nextCseq) :
    sequenceSlot s m sl = answerPast s m sl ((mboxOf s m).stored.find? fun e => e.1 = sl.cseq) := by
  simp only [sequenceSlot, if_neg (show ¬ gap 32 sl.cseq (mboxOf s m).nextCseq = 0 by omega),
    if_neg (show ¬ gap 32 sl.cseq (mboxOf s m).nextCseq ≤ 63 by omega), if_neg (show ¬ gap 32 sl.cseq (mboxOf s m).nextCseq < 2 ^ 31 by omega)]
  rfl

end Sequence

theorem takeHeld_none {m : MboxId} {s : State} (fuel : Nat) (h : ∀ x ∈ (mboxOf s m).held, x.cseq ≠ (mboxOf s m).nextCseq) : takeHeld m fuel s = s := by
  cases fuel with
  | zero => rfl
  | succ n =>
    have hnone : (mboxOf s m).held.find? (fun x => x.cseq = (mboxOf s m).nextCseq) = none :=
      List.find?_eq_none.mpr fun x hx => by simpa using h x hx
    rw [takeHeld, hnone]

theorem takeHeld_some {m : MboxId} {s : State} {sl : MboxSlot} (fuel : Nat)
    (h : (mboxOf s m).held.find? (fun x => x.cseq = (mboxOf s m).nextCseq) = some sl) : takeHeld m (fuel + 1) s = takeHeld m fuel (takeTurn s m sl) := by
  rw [takeHeld, h]

/-! ### What an answer leaves of the other mailboxes -/

theorem mboxOf_setMbox_other (s : State) {m n : MboxId} (b : Mbox) (h : m ≠ n) : mboxOf (setMbox s m b) n = mboxOf s n := tgetD_tset_other _ _ _ h

theorem mboxes_sendSealed_fold (i first : Nat) (e' : Session) (l : List (List (List Byte))) (st : State × Nat) :
    (l.foldl (fun (st : State × Nat) g => (sendSealed st.1 i (tgetD st.1.rkn.sessions i e') (first + st.2) g, st.2 + g.length)) st).1.rkn.mboxes
      = st.1.rkn.mboxes := by
  induction l generalizing st with
  | nil => rfl
  | cons g r ih => exact ih _

/-- Sending to a session changes no mailbox. -/
theorem mboxes_pushSession (s : State) (i : Nat) (l : List (List Byte)) : (pushSession s i l).rkn.mboxes = s.rkn.mboxes := by
  unfold pushSession
  split
  · rfl
  · exact mboxes_sendSealed_fold _ _ _ _ _

theorem mboxOf_sendResponse_other (s : State) {c : Caller} (r : Response) {n : MboxId} (h : c.mbox ≠ n) :
    mboxOf (sendResponse s c r) n = mboxOf s n := by
  unfold sendResponse
  split
  next i hm => rw [mboxOf, mboxes_pushSession, mboxOf]
  next i hm => exact mboxOf_setMbox_other s _ (hm ▸ h)
  next hm => rfl
  next i hm => exact mboxOf_setMbox_other s _ (hm ▸ h)

theorem mboxOf_deliver_other (s : State) {c : Caller} (r : Response) {n : MboxId} (h : c.mbox ≠ n) : mboxOf (deliver s c r) n = mboxOf s n := by
  unfold deliver
  extract_lets _ _ _ _ given counted aborted
  have hgiven : mboxOf given n = mboxOf s n := mboxOf_setMbox_other s _ h
  have hcounted : mboxOf counted n = mboxOf given n := by
    unfold counted
    split <;> rfl
  have haborted : mboxOf aborted n = mboxOf counted n := by
    unfold aborted
    split <;> rfl
  have hbefore : mboxOf aborted n = mboxOf s n := haborted.trans (hcounted.trans hgiven)
  split
  · exact (mboxOf_sendResponse_other _ r h).trans hbefore
  · exact hbefore

/-- An answer is given in the mailbox of its command, and leaves every other as it is. -/
theorem mboxOf_answer_other (s : State) {c : Caller} (op k d : Nat) (b : List Byte) {n : MboxId} (h : c.mbox ≠ n) :
    mboxOf (answer s c op k d b) n = mboxOf s n := by
  unfold answer
  dsimp only
  split
  · rfl
  · exact mboxOf_deliver_other s _ h

/-! ### Where a sequence starts at 1 -/

/-- BIND_HOST_MAILBOX takes 0xFFFF, which unbinds, or a port in use. -/
theorem not_badBindPort {s : State} {q : Nat} (hq : q = 0xFFFF ∨ isLport s q = true) : ¬ (q ≠ 0xFFFF ∧ (!isLport s q) = true) := by
  rintro ⟨hne, hnot⟩
  rcases hq with heq | hyes
  · exact hne heq
  · simp [hyes] at hnot

/-- A host mailbox that is bound, or unbound, expects CSEQ 1. -/
theorem nextCseq_bindMailbox (s : State) {c : Caller} {h q : Nat} (hh : h < 16) (hq : q = 0xFFFF ∨ isLport s q = true) (hother : c.mbox ≠ .host h) :
    (mboxOf (bindMailbox s c h q) (.host h)).nextCseq = 1 := by
  rw [bindMailbox, if_neg (by omega), if_neg (not_badBindPort hq)]
  dsimp only
  rw [answerOk, mboxOf_answer_other _ _ _ _ _ hother, mboxOf_setMbox_same]

/-- So does the mailbox of a session that begins. -/
theorem nextCseq_beginSession (s : State) {c : Caller} (a : OpenSessionArgs) (i : Nat) (hclear : isClear c.mbox = true) :
    (mboxOf (beginSession s c a i) (.fm i)).nextCseq = 1 := by
  have hother : c.mbox ≠ .fm i := fun h => by rw [h] at hclear; cases hclear
  unfold beginSession
  dsimp only
  rw [answerOk, mboxOf_answer_other _ _ _ _ _ hother]
  exact congrArg Mbox.nextCseq (mboxOf_setMbox_same _ _ _)

end Sys2Proof.Machine

section
open Sys2Proof Sys2Proof.Machine

/-- Settles O48: a slot reaches `sequenceSlot`, whose branches are those of its distance from NEXT_CSEQ; `takeHeld` goes on with the held ones. -/
theorem commandSlotsComeInSequence : Obligations.CommandSlotsComeInSequence := by
  unfold Obligations.CommandSlotsComeInSequence
  refine ⟨fun s sl => ⟨?baseboard, ?session, ?host⟩, fun s m sl d hc hn hd => ?distance, fun m fuel s => ⟨takeHeld_none fuel, fun sl => takeHeld_some fuel⟩,
    rfl, fun s c h q hh hq hother => nextCseq_bindMailbox s hh hq hother, fun s c a i hclear => nextCseq_beginSession s a i hclear⟩
  case baseboard => exact fun h => congrArg Host.Outcome.next (arriveSlot_baseboard sl h)
  case session => exact fun i h hopen => congrArg Host.Outcome.next (arriveSlot_session sl h hopen)
  case host =>
    rintro i b h rfl hbound hring hslot
    exact congrArg Host.Outcome.next (arriveSlot_host h hbound hring hslot)
  case distance =>
    rw [← gap_thirtyTwo hc hn] at hd
    subst hd
    refine ⟨sequenceSlot_next, fun hlow hhigh => ?held, sequenceSlot_far, fun hpast => ?past⟩
    case held =>
      have hheld : (mboxOf (sequenceSlot s m sl) m).held = (mboxOf s m).held.filter (fun h => h.cseq ≠ sl.cseq) ++ [sl] := by
        rw [sequenceSlot_ahead hlow hhigh, mboxOf_setMbox_same]
      rw [hheld]
      refine ⟨by simp, sequenceSlot_ahead hlow hhigh, fun h hmem hne => ?_⟩
      exact List.mem_append_left _ (List.mem_filter.mpr ⟨hmem, by simpa using hne⟩)
    case past =>
      rw [sequenceSlot_past hpast]
      refine ⟨fun r hr => congrArg (answerPast s m sl) hr, fun hr => congrArg (answerPast s m sl) hr, fun hnone => ?_⟩
      have hfind : (mboxOf s m).stored.find? (fun e => e.1 = sl.cseq) = none := List.find?_eq_none.mpr fun e he => by simpa using hnone e he
      exact congrArg (answerPast s m sl) hfind

end

/-! ### Event records and their gap

When a record is written and when it is only counted, and what the save at L4 keeps of the log (O47). -/

namespace Sys2Proof.Machine

theorem alwaysWritten_iff {t : Nat} : alwaysWritten t = true ↔ t ∈ [eSTACK_LOST, ePOOL_FATAL, eRANKED_TIMEOUT, eDRILL_START, eDRILL_END] :=
  decide_eq_true_iff

/-- Within the gap of the last record of its type and unit, one of no named type is counted. -/
theorem raise_counted {s : State} {r : EventRec} {t n : Nat} (hlast : tget s.events.last (r.etype, r.uclass, r.unit) = some (t, n))
    (htype : alwaysWritten r.etype = false) (hgap : s.now < t + gapNs s) :
    raise s r = { s with events := { s.events with last := tset s.events.last (r.etype, r.uclass, r.unit) (t, n + 1) } } := by
  simp only [raise, hlast, htype, hgap, Bool.not_false, decide_true, Bool.and_self, if_true]

/-- The state in which a record's interval has just started. -/
def gapStarted (s : State) (r : EventRec) : State :=
  { s with events := { s.events with last := tset s.events.last (r.etype, r.uclass, r.unit) (s.now, 0) } }

theorem raise_first {s : State} {r : EventRec} (hlast : tget s.events.last (r.etype, r.uclass, r.unit) = none) : raise s r = logEvent (gapStarted s r) r := by
  simp only [raise, hlast, gapStarted]

theorem raise_again {s : State} {r : EventRec} {t m : Nat} (hlast : tget s.events.last (r.etype, r.uclass, r.unit) = some (t, m))
    (h : alwaysWritten r.etype = true ∨ t + gapNs s ≤ s.now) : raise s r = logEvent (gapStarted s r) { r with rep := min 255 m } := by
  have hnot : ¬ (!alwaysWritten r.etype && decide (s.now < t + gapNs s)) = true := by
    rcases h with h | h <;> simp [h]
  simp only [raise, hlast, if_neg hnot, gapStarted]

/-- A record that is written under a repeat count `n`. -/
theorem raise_logged {s : State} {r : EventRec} {n : Nat}
    (h : tget s.events.last (r.etype, r.uclass, r.unit) = none ∧ n = r.rep ∨
      ∃ t m, tget s.events.last (r.etype, r.uclass, r.unit) = some (t, m) ∧ n = min 255 m ∧ (alwaysWritten r.etype = true ∨ t + gapNs s ≤ s.now)) :
    raise s r = logEvent (gapStarted s r) { r with rep := n } := by
  rcases h with ⟨hnone, rfl⟩ | ⟨t, m, hlast, rfl, hagain⟩
  · exact raise_first hnone
  · exact raise_again hlast hagain

/-! ### The log (R467) -/

/-- Reporting a record to the sessions leaves the log. -/
@[simp] theorem pushEvent_events (s : State) (r : EventRec) : (pushEvent s r).events = s.events := by
  rw [show pushEvent s r = { s with rkn := (pushEvent s r).rkn } from rknOnly_pushEvent s r]

theorem logEvent_keeps (s : State) (r : EventRec) :
    (logEvent s r).events.seq = (s.events.seq + 1) % 2 ^ 32 ∧ (logEvent s r).events.last = s.events.last := by
  unfold logEvent writeRing
  dsimp only
  split
  · simp only [pushEvent_events, bump_events, and_self]
  · split
    · exact ⟨rfl, rfl⟩
    · simp only [setEvt_events, bump_events, and_self]

/-- While Dvorro runs and a UCIe module works, the record stands at the end of the log at once. -/
theorem logEvent_ring {s : State} (r : EventRec) (hruns : s.rkn.dvorro = .running) (hucie : anyUcie s = true) :
    (logEvent s r).events.ring.getLast? = some { r with seq := (s.events.seq + 1) % 2 ^ 32, time := timeNow s, node := s.map.node } := by
  have hnow : anyUcie { s with events := { s.events with seq := (s.events.seq + 1) % 2 ^ 32 } } = true := hucie
  simp only [logEvent, hruns, hnow, decide_true, Bool.and_self, if_true, writeRing, pushEvent_events, bump_events]
  rw [List.getLast?_drop, if_neg (by rw [List.length_append, List.length_singleton]; omega), List.getLast?_concat]

/-! ### The save at L4 (R524) -/

/-- DEPARTING changes what the lanes sent last alone. -/
theorem departNow_only (s : State) : departNow s = { s with links := (departNow s).links } := by
  unfold departNow
  generalize (lports s).filter (isUp s) = l
  induction l generalizing s with
  | nil => rfl
  | cons q r ih =>
    rw [List.foldl_cons]
    split
    · exact ih _
    · exact ih _

/-- At L4 the newest 8,192 records of the log and the drill log are what is saved. -/
theorem enterL4_saves (s : State) :
    (enterL4 s).supply.saved = some (logsToSave s) ∧ (enterL4 s).events = s.events ∧ (enterL4 s).spares = s.spares := by
  have hsaved : (enterL4 s).supply.saved = some (logsToSave s) := by simp only [enterL4, modSupply]
  have hevents : (enterL4 s).events = (departNow s).events := by simp only [enterL4, modSupply, deckOff]
  have hspares : (enterL4 s).spares = (departNow s).spares := by simp only [enterL4, modSupply, deckOff]
  refine ⟨hsaved, hevents.trans ?_, hspares.trans ?_⟩
  · rw [departNow_only]
  · rw [departNow_only]

/-- The hold-up timer's end at L3 leads to L4 (R523). -/
theorem timerExpires_due {s : State} {t : Ns} (htimer : s.supply.holdupTimer = some t) (hdue : due s t (us 1600) = true) (hlevel : s.supply.level = 3) :
    timerExpires s = enterLevel s 4 := by
  simp only [timerExpires, htimer, hdue, hlevel, and_self, if_true]

theorem enterLevel_saves (s : State) :
    ∃ w, (enterLevel s 4).supply.saved = some w ∧ w.events = (enterLevel s 4).events.ring.drop ((enterLevel s 4).events.ring.length - 8192) ∧
      w.drills = (enterLevel s 4).spares.log := by
  obtain ⟨v, hv⟩ : ∃ v, enterLevel s 4 = enterL4 v := ⟨_, by rw [enterLevel, if_pos rfl]⟩
  obtain ⟨hsaved, hevents, hspares⟩ := enterL4_saves v
  rw [hv, hevents, hspares]
  exact ⟨_, hsaved, by simp only [logsToSave], by simp only [logsToSave]⟩

end Sys2Proof.Machine

section
open Sys2Proof Sys2Proof.Machine

/-- Settles O47: `raise` counts or logs, `logEvent` takes the next EV_SEQ and leaves the intervals, and `enterL4` saves the log as it then stands. -/
theorem eventRecordsKeepTheirGap : Obligations.EventRecordsKeepTheirGap := by
  unfold Obligations.EventRecordsKeepTheirGap
  refine ⟨?counted, ?logged, ?saved⟩
  case counted =>
    intro s r t n hlast htype hgap
    exact raise_counted hlast (Bool.eq_false_iff.mpr fun h => htype (alwaysWritten_iff.mp h)) hgap
  case logged =>
    intro s r n h
    simp only [← alwaysWritten_iff] at h
    rw [raise_logged h]
    obtain ⟨hseq, hlast⟩ := logEvent_keeps (gapStarted s r) { r with rep := n }
    exact ⟨hseq, by rw [hlast, gapStarted, tget_tset_same], logEvent_ring (s := gapStarted s r) _⟩
  case saved =>
    intro s t htimer hdue hlevel
    obtain ⟨w, hsaved⟩ := enterLevel_saves s
    exact ⟨_, w, congrArg Host.Outcome.next (timerExpires_due htimer hdue hlevel), hsaved⟩

end

/-! ### Bead commands, queries and map messages

The packets of beads (O4), of identity and status and the mirrored ones (O10), of the map (O11) and of hand-offs (O12). -/

namespace Sys2Proof.Machine

/-! ### Bead commands (R345 to R348) -/

/-- Under the row of its operation a bead command that passes the checks of its channel is queued. -/
theorem arrive_bead {s u x : State} {t : Ns} {q c k : Nat} {p : Packet} {l : List (BeadOp × List Piece)} (hs : served s q p = some (t, u))
    (he : commandEntered u q p = true) (hc : beadQueueOf p.addr = some c) (hchecked : beadChecked u q c p = some (l, x))
    (hk : field p.payload 0 1 % 16 = k) : arrive (beadOf p k) s q p = finish s q p (queueBead x (entrant t q p) c l) :=
  arrive_served (by simp [beadOf, commandStore_of_entered he, hc, hk]) hs
    ((serveCommandStore_entered he).1.trans (attemptCommand_bead he hc hchecked))

/-- A command that passes the checks of its channel finds room in its queue. -/
theorem beadChecked_room {s x : State} {q c : Nat} {p : Packet} {l : List (BeadOp × List Piece)} (h : beadChecked s q c p = some (l, x)) :
    (beadCh x c).queue.length < 256 := by
  unfold beadChecked at h
  obtain ⟨-, h⟩ := Option.ite_none_left_eq_some.mp h
  split at h
  · obtain ⟨hpass, h⟩ := Option.ite_none_left_eq_some.mp h
    cases h
    simp only [Bool.or_eq_true, decide_eq_true_eq, not_or, Nat.not_le] at hpass
    exact hpass.2
  · cases h

/-- A command that finds room is accepted, joins its channel's queue, is counted and answered, and beads with work start. -/
theorem queueBead_room {s : State} {t : Ns} {q c : Nat} {p : Packet} (l : List (BeadOp × List Piece)) (hroom : (beadCh s c).queue.length < 256) :
    queueBead s (entrant t q p) c l =
      startBeads (respondOk (bump (modBead (expandChannel (accept s (entrant t q p)).2 c) c fun b =>
          { b with queue := b.queue ++ [{ req := { arrived t q p with order := s.pool.accepted + 1 }, ops := l.filterMap opPlace }], cmds := b.cmds + 1 })
        (cBEAD_CMDS (c / 32))) q p []) c := by
  have hreq : (accept s (entrant t q p)).1.req = { arrived t q p with order := s.pool.accepted + 1 } := accept_req s _ rfl
  rw [queueBead, if_neg hroom.not_ge]
  dsimp only
  rw [hreq]
  rfl

/-! ### Queries (R428, R533) -/

/-- A query for this module is served on any port, once its header holds, from phase ROM on. -/
theorem admitPacket_query {u : State} {q : Nat} {c : Colour} {t : Ns} {p : Packet} (hkind : isQuery p = true)
    (hphase : isReady u = true ∨ 3 ≤ u.supply.phase) (hheader : headerCheck p = none) (hme : forMe u p = true) :
    admitPacket u q c t p = serveQuery u q p := by
  have hserved : ¬ (!isReady u && !(isQuery p && 3 ≤ u.supply.phase) && !(isMap p && 6 ≤ u.supply.phase && roleOf u q = roleSWITCH)) = true := by
    rcases hphase with h | h <;> simp [h, hkind]
  rw [admitPacket, if_neg hserved, hheader]
  exact if_pos (by simp [hkind, hme])

/-- A query that a port takes in, under the row of its operation. -/
theorem arrive_query {kind : Bool} {s u : State} {q : Nat} {c : Colour} {p : Packet} (hrow : kind = true) (hq : q ≠ selfPort)
    (htaken : takenIn s q p = some (c, u)) (hkind : isQuery p = true) (hphase : isReady u = true ∨ 3 ≤ u.supply.phase) (hheader : headerCheck p = none)
    (hme : forMe u p = true) : arrive kind s q p = finish s q p (serveQuery u q p) :=
  (if_pos hrow).trans ((receive_taken hq htaken).trans (congrArg (finish s q p) (admitPacket_query hkind hphase hheader hme)))

/-- The data that answers a query. -/
def queryData (s : State) (p : Packet) : List Byte := if p.op = opIDENTITY then identityBytes s else statusBytes s

/-- A query with no other field set, on a port without an answer in the last 10 µs, is answered. -/
theorem serveQuery_answers {s : State} {q : Nat} {p : Packet} (hq : q ≠ selfPort) (hidle : ∀ t, tget s.supply.tc6At q = some t → due s t (us 10) = true)
    (hlen : lenOf p = 0) (hoparg : p.oparg = 0) (haddr : p.addr = 0) (hcap : p.cap = 0) :
    serveQuery s q p =
      let a := sealPacket { responsePacket p opRSP_DATA kSUCCESS 0 0 (queryData s p) with tc := 6, src := myNode s }
      let v := { s with supply := { s.supply with tc6At := tset s.supply.tc6At q s.now } }
      if p.src = 0xFFFF ∨ p.dst = 0xFFFF then sendOn v q a else send v a := by
  have hfields : ¬ (lenOf p ≠ 0 ∨ p.oparg ≠ 0 ∨ p.addr ≠ 0 ∨ p.cap ≠ 0) := by simp [hlen, hoparg, haddr, hcap]
  have hport : (q ≠ selfPort ∧ p.dst = 0xFFFF) = (p.dst = 0xFFFF) := by simp [hq]
  cases hlast : tget s.supply.tc6At q with
  | none =>
    simp only [serveQuery, hlast, Bool.false_eq_true, if_false, if_neg hfields, hport]
    rfl
  | some t =>
    simp only [serveQuery, hlast, hidle t hlast, Bool.not_true, Bool.false_eq_true, if_false, if_neg hfields, hport]
    rfl

/-! ### Map messages (R428 to R446) -/

section Hop

variable {s : State} {q : Nat} {p : Packet} (hrole : roleOf s q = roleSWITCH ∨ q = selfPort)
include hrole

/-- No message is turned away for its port. -/
theorem mapHop_passes (k : Nat) : (roleOf s q ≠ roleSWITCH ∧ q ≠ selfPort ∧ k ≠ opMAP_ACK) = False :=
  eq_false fun h => hrole.elim h.1 h.2.1

theorem serveMap_lsr (hop : p.op = opMAP_LSR) (hgood : lsrMalformed p = false) : serveMap s q p = takeLsr s q p := by
  simp only [serveMap, hop, mapHop_passes hrole, hgood, Bool.false_eq_true, if_false, if_true]

theorem serveMap_ack (hop : p.op = opMAP_ACK) (hlen : lenOf p = 8) (hheader : mapHeaderOk p true = true ∨ mapHeaderOk p false = true) :
    serveMap s q p = takeAck s q p := by
  have hgood : (decide (lenOf p ≠ 8) || !(mapHeaderOk p true || mapHeaderOk p false)) = false := by
    rcases hheader with h | h <;> simp [hlen, h]
  simp only [serveMap, hop, mapHop_passes hrole, hgood, Bool.false_eq_true, if_false]
  rfl

theorem serveMap_prepare (hop : p.op = opMAP_PREPARE) (hgood : prepareMalformed p = false) :
    serveMap s q p = if p.oparg % 256 = 1 then takeSnapshot s q p else takePrepare s q p := by
  simp only [serveMap, hop, mapHop_passes hrole, hgood, Bool.false_eq_true, if_false]
  rfl

theorem serveMap_vote {c : Coordination} (hop : p.op = opMAP_VOTE) (hgood : voteMalformed p false = false)
    (hcoord : (ackRouted s p.src opMAP_VOTE 0 0 (field p.payload 0 4)).map.coord = some c) (hid : c.propId = field p.payload 0 4)
    (hepoch : c.epoch = field p.payload 4 1) :
    serveMap s q p = takeVote (ackRouted s p.src opMAP_VOTE 0 0 (field p.payload 0 4)) p.src (field p.payload 5 1) (field p.payload 6 2) := by
  simp only [serveMap, hop, mapHop_passes hrole, hgood, hcoord, hid, hepoch, and_self, Bool.false_eq_true, if_false, if_true]
  rfl

theorem serveMap_commit (hop : p.op = opMAP_COMMIT) (hgood : voteMalformed p true = false) : serveMap s q p = takeCommit s q p := by
  simp only [serveMap, hop, mapHop_passes hrole, hgood, Bool.false_eq_true, if_false]
  rfl

theorem serveMap_pull (hop : p.op = opMAP_PULL) (hheader : mapHeaderOk p true = true) (hlen : lenOf p = 8) (hkind : field p.payload 0 1 ≤ 1)
    (hrsv : field p.payload 2 6 = 0) :
    serveMap s q p = if field p.payload 0 1 = 1 then floodLsr s else sendSnapshot s q (field p.payload 1 1) := by
  have hgood : (!mapHeaderOk p true || decide (lenOf p ≠ 8 ∨ 1 < field p.payload 0 1 ∨ field p.payload 2 6 ≠ 0)) = false := by
    simpa [hheader, hlen, hrsv] using hkind
  simp only [serveMap, hop, mapHop_passes hrole, hgood, Bool.false_eq_true, if_false]
  rfl

theorem serveMap_handoff (hop : p.op = opMAP_HANDOFF) (hgood : handoffMalformed p = false) :
    serveMap s q p =
      if field p.payload 0 4 % 16 = 0 then (if hoLast p then rerunHandoff (takeOffer s p) (hoTray p) else takeOffer s p)
      else if field p.payload 0 4 % 16 = 1 then takeAccept s p
      else if field p.payload 0 4 % 16 = 2 then takeProbe s q p
      else rerunHandoff (takeClaim s p) (hoTray p) := by
  simp only [serveMap, hop, mapHop_passes hrole, hgood, Bool.false_eq_true, if_false]
  rfl

end Hop

end Sys2Proof.Machine

section
open Sys2Proof Sys2Proof.Machine

/-- Settles O4: the five rows differ in the operation of the command alone; one that passes its checks finds room in its channel's queue. -/
theorem beadCommandsQueue : Obligations.BeadCommandsQueue := by
  unfold Obligations.BeadCommandsQueue
  intro s u x t q c p l hs he hc hchecked
  have row {k : Nat} (hk : field p.payload 0 1 % 16 = k) : arrive (beadOf p k) s q p = finish s q p (queueBead x (entrant t q p) c l) :=
    arrive_bead hs he hc hchecked hk
  refine ⟨?mode, ?attn, ?dot, ?axpy, ?scan, ?queued⟩
  case mode => exact fun hk => congrArg Host.Outcome.next (row hk)
  case attn => exact fun hk => congrArg Host.Outcome.next (row hk)
  case dot => exact fun hk => congrArg Host.Outcome.next (row hk)
  case axpy => exact fun hk => congrArg Host.Outcome.next (row hk)
  case scan => exact fun hk => congrArg Host.Outcome.next (row hk)
  case queued => exact queueBead_room l (beadChecked_room hchecked)

/-- Settles O10: a query that a port takes in is served before the port's role is asked for; a MIRROR packet is counted where it is served. -/
theorem queriesAndMirrorsComplete : Obligations.QueriesAndMirrorsComplete := by
  unfold Obligations.QueriesAndMirrorsComplete
  intro s u t q p
  refine ⟨fun c hq htaken hphase hheader hme hidle hlen hoparg haddr hcap => ⟨fun hop => ?identity, fun hop => ?status⟩, fun hs hop => ?mirror⟩
  case identity =>
    refine congrArg Host.Outcome.next ((arrive_query (decide_eq_true hop) hq htaken (by simp [isQuery, hop]) hphase hheader hme).trans ?_)
    rw [serveQuery_answers hq hidle hlen hoparg haddr hcap, queryData, if_pos hop]
  case status =>
    refine congrArg Host.Outcome.next ((arrive_query (decide_eq_true hop) hq htaken (by simp [isQuery, hop]) hphase hheader hme).trans ?_)
    rw [serveQuery_answers hq hidle hlen hoparg haddr hcap, queryData, if_neg (show p.op ≠ opIDENTITY by rw [hop]; decide)]
  case mirror => exact congrArg Host.Outcome.next (arrive_served (decide_eq_true hop) hs (serveOp_mirror hop))

/-- Settles O11: each row serves its message by `serveMap`, whose branch for its operation gives the effect. -/
theorem mapMessagesAct : Obligations.MapMessagesAct := by
  unfold Obligations.MapMessagesAct
  intro s u t q p hs hrole
  refine ⟨?lsr, ?ack, ?prepare, ?snapshot, ?vote, ?commit, ?pull⟩
  case lsr =>
    intro hop hgood
    exact congrArg Host.Outcome.next (arrive_served (decide_eq_true hop) hs ((serveOp_mapLsr hop).trans (serveMap_lsr hrole hop hgood)))
  case ack =>
    intro hop hlen hheader
    exact congrArg Host.Outcome.next (arrive_served (decide_eq_true hop) hs ((serveOp_mapAck hop).trans (serveMap_ack hrole hop hlen hheader)))
  case prepare =>
    intro hop hgood hkind
    refine congrArg Host.Outcome.next (arrive_served (by simp [hop, hkind]) hs ((serveOp_mapPrepare hop).trans ?_))
    rw [serveMap_prepare hrole hop hgood, if_neg hkind]
  case snapshot =>
    intro hop hgood hkind
    refine congrArg Host.Outcome.next (arrive_served (by simp [hop, hkind]) hs ((serveOp_mapPrepare hop).trans ?_))
    rw [serveMap_prepare hrole hop hgood, if_pos hkind]
  case vote =>
    intro c hop hgood hcoord hid hepoch
    exact congrArg Host.Outcome.next (arrive_served (decide_eq_true hop) hs ((serveOp_mapVote hop).trans (serveMap_vote hrole hop hgood hcoord hid hepoch)))
  case commit =>
    intro hop hgood
    exact congrArg Host.Outcome.next (arrive_served (decide_eq_true hop) hs ((serveOp_mapCommit hop).trans (serveMap_commit hrole hop hgood)))
  case pull =>
    intro hop hheader hlen hrsv
    constructor
    · intro hkind
      refine congrArg Host.Outcome.next (arrive_served (decide_eq_true hop) hs ((serveOp_mapPull hop).trans ?_))
      rw [serveMap_pull hrole hop hheader hlen (by omega) hrsv, if_neg (by omega)]
    · intro hkind
      refine congrArg Host.Outcome.next (arrive_served (decide_eq_true hop) hs ((serveOp_mapPull hop).trans ?_))
      rw [serveMap_pull hrole hop hheader hlen (by omega) hrsv, if_pos hkind]

/-- Settles O12: the four rows differ in the kind of the message alone, by which `serveMap` decides. -/
theorem handoffMessagesAct : Obligations.HandoffMessagesAct := by
  unfold Obligations.HandoffMessagesAct
  intro s u t q p hs hrole hop hgood
  have row {k : Nat} {v : State} (hk : field p.payload 0 4 % 16 = k) (hv : serveMap u q p = v) : arrive (handoffOf p k) s q p = finish s q p v :=
    arrive_served (by simp [handoffOf, hop, hk]) hs ((serveOp_mapHandoff hop).trans hv)
  have hserve := serveMap_handoff hrole hop hgood
  refine ⟨?offer, ?accept, ?probe, ?claim⟩
  case offer => exact fun hk => congrArg Host.Outcome.next (row hk (hserve.trans (if_pos hk)))
  case accept => exact fun hk => congrArg Host.Outcome.next (row hk (hserve.trans ((if_neg (by omega)).trans (if_pos hk))))
  case probe => exact fun hk => congrArg Host.Outcome.next (row hk (hserve.trans ((if_neg (by omega)).trans ((if_neg (by omega)).trans (if_pos hk)))))
  case claim =>
    exact fun hk => congrArg Host.Outcome.next (row hk (hserve.trans ((if_neg (by omega)).trans ((if_neg (by omega)).trans (if_neg (by omega))))))

end

/-! ### Tenants and attestation

What each attestation and tenant command does when nothing turns it away (O21), and what the timers of slots, reports and scrubs do (O31). -/

namespace Sys2Proof.Machine

/-! ### Key slots -/

@[simp] theorem keySlot_setKeySlot_same (s : State) (i : Nat) (k : KeySlot) : keySlot (setKeySlot s i k) i = k := tgetD_tset_same _ _ _ _

theorem keySlot_setKeySlot_other (s : State) {i j : Nat} (k : KeySlot) (h : j ≠ i) : keySlot (setKeySlot s i k) j = keySlot s j :=
  tgetD_tset_other _ _ _ h.symm

@[simp] theorem keySlot_startCmd (s : State) (c : Caller) (i : Nat) : keySlot (startCmd s c) i = keySlot s i := by simp only [keySlot, startCmd_ten]

@[simp] theorem keySlot_answerOk (s : State) (c : Caller) (op : Nat) (b : List Byte) (i : Nat) : keySlot (answerOk s c op b) i = keySlot s i := by
  simp only [keySlot, answerOk_ten]

/-! ### Commands (R404, R413 to R426) -/

/-- A report is asked for with a 64-byte nonce, the attestation key certified and room in the queue: its command joins the queue, journalled as not begun. -/
theorem getAttestation_joins {u : State} {c : Caller} {nonce : List Byte} (hnonce : nonce.length = 64) (hready : u.ten.akReady = true)
    (hroom : u.ten.reports.length < 17) :
    getAttestation u c nonce =
      { u with
        rkn := { u.rkn with journal := u.rkn.journal.map fun (j : Caller × Bool) => if j.1 = c then (c, false) else j }
        ten := { u.ten with reports := u.ten.reports ++ [(c, nonce)], reportAt := if u.ten.reports = [] then u.now else u.ten.reportAt } } := by
  simp only [getAttestation, if_neg (not_not_intro hnonce), hready, if_neg hroom.not_ge, Bool.not_true, Bool.false_eq_true, if_false]

theorem allocateSlot_free {u : State} (c : Caller) {i tenant : Nat} (hi : i < 1024) (hlow : 1 ≤ tenant) (hhigh : tenant < 4096)
    (hstate : (keySlot u i).state = .free) (hleaves : (keySlot u i).leafRefs = 0) :
    allocateSlot u c i tenant = answerOk (setKeySlot u i { state := .allocated, tenant := tenant }) c mbALLOCATE_KEY_SLOT [] := by
  have htenant : ¬ (tenant = 0 ∨ 4096 ≤ tenant) := by omega
  simp only [allocateSlot, if_neg hi.not_ge, if_neg htenant, hstate, if_neg (not_not_intro hleaves)]

/-- A slot that is ACTIVE with the keys `p` that INSTALL_TENANT_KEY carried. -/
def activeSlot (u : State) (k : KeySlot) (b p : List Byte) : KeySlot :=
  { k with
    state := .active, keys := p.take 96, gkey := p.drop 96, gkeyDigest := shake256 (p.drop 96) 64
    pin := if bit (field b 2 2) 15 then some u.rkn.running.digest else none
    tsk := kmacStr (Config.kemOpen u.ten.kemKey ((b.drop 0x48).take 1568)) ((b.drop 8).take 64) 32 "KYD-1280 TSESS", gseq := 0, jobs := [], grantBody := [] }

/-- Keys that open, bound to a report of this module, make the tenant's ALLOCATED slot ACTIVE. -/
theorem installKey_opens {u : State} (c : Caller) {b p : List Byte} {i : Nat} (hlen : b.length = 0x724) (hdebug : Config.debugEnabled = false)
    (hi : i = field b 2 2 % 1024) (hstate : (keySlot u i).state = .allocated) (htenant : (keySlot u i).tenant = field b 0 2 % 4096)
    (hreport : (b.drop 8).take 64 ∈ u.ten.digests) (hopens : unwrapKeys b (Config.kemOpen u.ten.kemKey ((b.drop 0x48).take 1568)) = some p) :
    installKey u c b = answerOk (setKeySlot u i (activeSlot u (keySlot u i) b p)) c mbINSTALL_TENANT_KEY [] := by
  subst hi
  simp only [installKey, if_neg (not_not_intro hlen), hdebug, hstate, if_neg (not_not_intro htenant), hreport, hopens, activeSlot, decide_true, Bool.not_true,
    Bool.false_eq_true, if_false]

theorem removeTenant_slots {u : State} (c : Caller) {tenant : Nat} (hlow : 1 ≤ tenant) (hhigh : tenant < 4096) (hslots : slotsOfTenant u tenant ≠ []) :
    removeTenant u c tenant = answerOk ((slotsOfTenant u tenant).foldl leaveSlot u) c mbREMOVE_TENANT [] :=
  (if_neg (by omega)).trans (if_neg hslots)

/-- A valid grant is of an ACTIVE slot, so that the slot is not DRAINING. -/
theorem setGrant_valid {u : State} (c : Caller) {b sig : List Byte} (h : grantValid u b sig = true) : setGrant u c b sig = takeGrant u c (field b 6 2) b := by
  have hactive : (keySlot u (field b 6 2)).state = .active := by
    simp only [grantValid, Bool.and_eq_true, decide_eq_true_eq] at h
    obtain ⟨⟨⟨⟨⟨-, hactive⟩, -⟩, -⟩, -⟩, -⟩ := h
    exact hactive
  exact (if_neg (by simp [hactive])).trans (if_pos h)

theorem querySlot_allowed {u : State} {c : Caller} {i : Nat} {ttag : List Byte} (hi : i < 1024) (htag : c.tenant = true → tagHolds u c i ttag = true) :
    querySlot u c i ttag = answerOk u c mbQUERY_KEY_SLOT (slotEntry u i ++ le 4 (slotInflight u i)) := by
  have hallowed : ¬ (c.tenant && !tagHolds u c i ttag) = true := by
    cases ht : c.tenant with
    | false => simp
    | true => simp [htag ht]
  exact (if_neg hi.not_ge).trans (if_neg hallowed)

/-! ### Timers (R405, R414 to R416, R420 to R424) -/

/-- The state in which the first report of the queue, over `body` with the signature `sig`, has been signed. -/
def reportSigned (s : State) (rest : List (Caller × List Byte)) (body sig : List Byte) : State :=
  bump { s with ten := { s.ten with
    reports := rest, reportAt := s.now, reportSeq := s.ten.reportSeq + 1, digests := (shake256 (body ++ sig) 64 :: s.ten.digests).take 64 } } cREPORTS_SIGNED

theorem signReport_first {s : State} {c : Caller} {nonce body sig : List Byte} {r : List (Caller × List Byte)} (hfirst : s.ten.reports = (c, nonce) :: r)
    (hthere : s.rkn.dvorro ≠ .restarting) (hbody : body = reportBody s nonce) (hsig : sig = padTo 49856 (Config.slhSign true s.ten.akSeeds body)) :
    signReport s = deliver (reportSigned s r body sig) c
      { opcode := mbGET_ATTESTATION, cseq := c.cseq, completion := mSUCCESS, result := body ++ sig ++ reportChain (reportSigned s r body sig) } := by
  rw [signReport, hfirst]
  dsimp only
  rw [if_neg hthere, ← hbody, ← hsig, reportSigned]

theorem grantTaken_new {s : State} {i : Nat} {b : List Byte} {l : List Caller} (h : (keySlot s i).newGrant = some (b, l)) :
    grantTaken s i = l.foldl (fun st c => answerOk st c mbSET_KEY_GRANT [])
      (settle (setKeySlot s i { keySlot s i with newGrant := none, jobs := grantJobs b, grantBody := b })) := by
  simp only [grantTaken, h]

theorem holdsKey_draining {s : State} {i : Nat} (hstate : (keySlot s i).state = .draining) (hkey : (keySlot s i).zeroisedAt = none) : holdsKey s i = true := by
  simp [holdsKey, hstate, hkey]

/-- Zeroisation leaves its slot without keys, and every other slot as it was. -/
theorem keySlot_zeroise_same (s : State) (i : Nat) :
    keySlot (zeroise s i) i = { keySlot s i with keys := [], tsk := [], gkey := [], zeroisedAt := some s.now } := keySlot_setKeySlot_same s i _

theorem keySlot_zeroise_other (s : State) {i j : Nat} (h : j ≠ i) : keySlot (zeroise s i) j = keySlot s j := keySlot_setKeySlot_other s _ h

theorem scrubDue_zeroised {s : State} {i : Nat} {t : Ns} (hstate : (keySlot s i).state = .draining) (hnew : (keySlot s i).scrubbing = false)
    (hzeroised : (keySlot s i).zeroisedAt = some t) (hdue : due s t (ms 4) = true) : scrubDue s i = true := by
  simp [scrubDue, hstate, hnew, hzeroised, hdue]

theorem scrubOver_landed {s : State} {i : Nat} (hruns : (keySlot s i).scrubbing = true) (hall : (keySlot s i).scrub = [])
    (hlanded : ∀ e ∈ s.net.own, e.2.purpose ≠ .scrub i) : scrubOver s i = true := by
  have hnone : (s.net.own.any fun e => e.2.purpose = .scrub i) = false := by simpa using hlanded
  simp [scrubOver, hruns, hall, hnone]

end Sys2Proof.Machine

section
open Sys2Proof Sys2Proof.Machine

/-- Settles O21: each command that the gate lets go runs in `startCmd s c`, where its checks pass and its own lemma gives the effect. -/
theorem tenantCommandsComplete : Obligations.TenantCommandsComplete := by
  unfold Obligations.TenantCommandsComplete
  rintro s _ c rfl
  refine ⟨?report, ?chain, ?allocate, ?install, ?remove, ?grant, ?query⟩
  case report =>
    intro nonce hg hnonce hready hroom
    rw [← startCmd_ten s c] at hready hroom
    refine ⟨_, next_mboxRun_go hg (getAttestation_joins hnonce hready hroom), ?_, ?_, startCmd_pool s c, startCmd_net s c⟩
    · simp only [startCmd_ten]
    · simp only [startCmd_ten]
  case chain => exact fun hg => next_mboxRun_go hg rfl
  case allocate =>
    intro i tenant hg hi hlow hhigh hstate hleaves
    rw [← keySlot_startCmd s c] at hstate hleaves
    refine ⟨_, next_mboxRun_go hg (allocateSlot_free c hi hlow hhigh hstate hleaves), answerOk_of_gate hg (startCmd_supply s c) rfl rfl, ?_, fun j hj => ?_, ?_⟩
    · rw [keySlot_answerOk, keySlot_setKeySlot_same]
    · rw [keySlot_answerOk, keySlot_setKeySlot_other _ _ hj, keySlot_startCmd]
    · rw [answerOk_pool, setKeySlot, startCmd_pool]
  case install =>
    intro a i p hg hlen hdebug hi hstate htenant hreport hopens
    rw [← keySlot_startCmd s c] at hstate htenant
    rw [← startCmd_ten s c] at hreport hopens
    refine ⟨_, next_mboxRun_go hg (installKey_opens c hlen hdebug hi hstate htenant hreport hopens), answerOk_of_gate hg (startCmd_supply s c) rfl rfl, ?_⟩
    rw [keySlot_answerOk, keySlot_setKeySlot_same, keySlot_startCmd, answerOk_pool]
    refine ⟨rfl, rfl, rfl, rfl, rfl, rfl, rfl, fun j hj => ?_, startCmd_pool s c⟩
    rw [keySlot_answerOk, keySlot_setKeySlot_other _ _ hj, keySlot_startCmd]
  case remove => exact fun tenant hg hlow hhigh hslots => next_mboxRun_go hg (removeTenant_slots c hlow hhigh hslots)
  case grant => exact fun body sig hg hvalid => next_mboxRun_go hg (setGrant_valid c hvalid)
  case query => exact fun i ttag hg hi htag => next_mboxRun_go hg (querySlot_allowed hi htag)

/-- Settles O31: each timer's row is a test that its conditions pass, and then the act that the statement names. -/
theorem tenantTimersAct : Obligations.TenantTimersAct := by
  unfold Obligations.TenantTimersAct
  intro s i
  refine ⟨?signed, ?certified, ?grant, ?drain, ?zeroised, ?scrub, ?retry, ?landed⟩
  case signed =>
    rintro c nonce r body sig _ hfirst hthere hbody hsig rfl
    exact congrArg Host.Outcome.next (signReport_first hfirst hthere hbody hsig)
  case certified => exact fun h => congrArg Host.Outcome.next (if_pos h)
  case grant => exact fun b l h => congrArg Host.Outcome.next (grantTaken_new h)
  case drain =>
    intro hstate hkey
    have hholds := holdsKey_draining hstate hkey
    refine ⟨fun hnone => congrArg Host.Outcome.next (if_pos ?_), fun hdue => congrArg Host.Outcome.next (if_pos ?_)⟩
    · simp [hholds, hnone]
    · simp [hholds, hdue]
  case zeroised =>
    refine ⟨_, rfl, ?_⟩
    rw [keySlot_zeroise_same]
    exact ⟨rfl, rfl, rfl, rfl, fun j hj => keySlot_zeroise_other s hj, rfl⟩
  case scrub => exact fun t hstate hnew hzeroised hdue => congrArg Host.Outcome.next (if_pos (scrubDue_zeroised hstate hnew hzeroised hdue))
  case retry =>
    intro hruns hleft hdue
    exact congrArg Host.Outcome.next (if_pos (by simp [hruns, hleft, hdue]))
  case landed => exact fun hruns hall hlanded => congrArg Host.Outcome.next (if_pos (scrubOver_landed hruns hall hlanded))

end

/-! ### Timers of the fabric map

What each timer of records, messages, votes, grace, hand-offs and the drain does when its time has come (O32). -/

namespace Sys2Proof.Machine

/-! ### Records and messages (R430, R434) -/

theorem ageOut_due {s : State} {i : Nat} {r : Lsr} (hr : tget s.map.lsrs i = some r) (hdue : due s r.keptAt (ms 3000) = true) :
    ageOut s i = settleTrays { s with map := { s.map with lsrs := tdel s.map.lsrs i } } := by
  simp only [ageOut, hr, hdue, if_true]

section Resend

variable {s : State} {q key : Nat} {m : MapSend}
  (hm : s.map.sends.find? (fun m => m.lport = q && m.key = key && due s m.lastAt (resendGap m.op)) = some m)
include hm

/-- After ten sends a message is given up, and its partner reported. -/
theorem resendMap_givenUp (hmany : 10 ≤ m.sends) :
    resendMap s q key =
      let u := { s with map := { s.map with sends := s.map.sends.erase m } }
      coordFinish (event u eMAP_UNREACHABLE sevDEGRADED (if q = selfPort then 15 else 2) (if q = selfPort then 0 else q)
        (if q = selfPort then m.pkt.dst else (lport u q).partnerNode) m.op) := by
  simp only [resendMap, hm, if_pos hmany]

/-- Before that it is sent again on its port. -/
theorem resendMap_again (hfew : m.sends < 10) (hport : q ≠ selfPort) (hup : isUp s q = true) :
    resendMap s q key =
      sendOn { s with map := { s.map with sends := s.map.sends.map fun x => if x = m then { x with sends := x.sends + 1, lastAt := s.now } else x } } q m.pkt := by
  simp only [resendMap, hm, if_neg hfew.not_ge, if_neg hport]
  exact if_pos hup

end Resend

/-! ### Votes, verdicts and the drain (R438, R439, R448) -/

theorem voteTimeout_due {s : State} {c : Coordination} (hc : s.map.coord = some c) (hopen : c.verdict = none) (hdue : due s c.startedAt (ms 1) = true) :
    voteTimeout s = decide_ (drawFree s).2 (256 + (drawFree s).1 % 256) 0 := by
  simp only [voteTimeout, hc, hopen, hdue, Option.isNone_none, Bool.and_self, if_true]

/-- Five ms after its vote a switch that has seen no verdict asks its neighbours, or discards the proposal. -/
theorem verdictTimeout_due {s : State} {p : Proposal} {t : Ns} (hp : s.map.proposal = some p) (hother : p.coord ≠ myNode s) (hvoted : p.votedAt = some t)
    (hdue : due s t (ms 5) = true) :
    verdictTimeout s =
      if p.pulled then (if pullsOpen s then s else dropProposal s) else if switchPorts s = [] then dropProposal s else pullStatus s p := by
  simp only [verdictTimeout, hp, hvoted, hdue, decide_eq_false hother, Bool.not_true, Bool.or_self, Bool.false_eq_true, if_false]

theorem departModule_due {s : State} {c : Caller} {t : Ns} (hc : s.map.drainCaller = some c) (ht : s.map.drainReady = some t) (hstep : s.map.drainStep = 3)
    (hdue : due s t (ms 4) = true) :
    departModule s =
      answerOk { sendDeparting s with map := { (sendDeparting s).map with departed := true, drainCaller := none, drainStep := 4 } } c mbDRAIN_MODULE [] := by
  simp only [departModule, hc, ht, hstep, hdue, decide_true, Bool.and_self, if_true]

/-! ### Hand-offs (R444, R445) -/

/-- One PROBE of a taker to its giver, for some of the keys of the requests that it holds. -/
def probePart (tray : Nat) (st : State) (part : List (Nat × Nat)) : State :=
  match tget st.map.handoffs tray with
  | some h =>
    let st := { st with map := { st.map with handoffs := tset st.map.handoffs tray { h with hseq := h.hseq + 1 } } }
    sendRouted (bump st cHANDOFF_PROBES) h.peer opMAP_HANDOFF (handoffKey tray (2 ^ 31 + h.hseq % 2 ^ 31))
      (handoffHead 2 tray h.epoch part.length h.hseq false ++ part.flatMap fun k => keyRec k false)
  | none => st

/-- A taker that holds requests probes its giver for them, a hundred keys at a time. -/
theorem probeGiver_due {s : State} {tray : Nat} {h : Handoff} {ks : List (Nat × Nat)} (hh : tget s.map.handoffs tray = some h) (htaker : h.giver = false)
    (hks : ks = (heldFor s tray).map (fun w => (w.req.pkt.src, w.req.pkt.msg))) (hsome : ks ≠ []) (hdue : due s h.lastProbe (ms 1) = true) :
    probeGiver s tray = (chunks 100 ks.length ks).foldl (probePart tray) { s with map := { s.map with handoffs := tset s.map.handoffs tray { h with lastProbe := s.now } } } := by
  subst hks
  simp only [probeGiver, hh, htaker, decide_eq_false hsome, hdue, Bool.not_true, Bool.or_self, Bool.false_eq_true, if_false]
  rfl

theorem settleTimeout_due {s : State} {tray : Nat} {h : Handoff} (hh : tget s.map.handoffs tray = some h) (htaker : h.giver = false)
    (hdue : due s h.commitAt (ms 26) = true) :
    settleTimeout s tray =
      let u := (heldFor s tray).foldl (fun st w => stateLost st tray w) s
      { u with map := { u.map with handoffs := tdel u.map.handoffs tray } } := by
  simp only [settleTimeout, hh, htaker, hdue, Bool.not_true, Bool.or_self, Bool.false_eq_true, if_false]

end Sys2Proof.Machine

section
open Sys2Proof Sys2Proof.Machine

/-- Settles O32: each timer's row tests that its time has come, and then acts as its own lemma says. -/
theorem mapTimersAct : Obligations.MapTimersAct := by
  unfold Obligations.MapTimersAct
  intro s i q key
  refine ⟨?originate, ?refresh, ?age, ?resend, ?vote, ?verdict, ?grace, ?probe, ?lost, ?drain⟩
  case originate => exact fun h => congrArg Host.Outcome.next (if_pos h)
  case refresh => exact fun h => congrArg Host.Outcome.next (if_pos h)
  case age => exact fun r hr hdue => congrArg (fun u => Host.Outcome.next (settle u)) (ageOut_due hr hdue)
  case resend =>
    intro m hm
    constructor
    · exact fun hmany => congrArg (fun u => Host.Outcome.next (settle u)) (resendMap_givenUp hm hmany)
    · rintro _ hfew hport hup rfl
      exact congrArg (fun u => Host.Outcome.next (settle u)) (resendMap_again hm hfew hport hup)
  case vote => exact fun c hc hopen hdue => congrArg (fun u => Host.Outcome.next (settle u)) (voteTimeout_due hc hopen hdue)
  case verdict =>
    intro p t hp hother hvoted hdue
    have hverdict := verdictTimeout_due hp hother hvoted hdue
    refine ⟨fun hpulled hnone => ?_, fun hpulled hports => ?_, fun hpulled hports => ?_⟩
    all_goals refine congrArg (fun u => Host.Outcome.next (settle u)) (hverdict.trans ?_)
    · rw [if_pos hpulled, if_neg (by simp [hnone])]
    · rw [if_neg (by simp [hpulled]), if_pos hports]
    · rw [if_neg (by simp [hpulled]), if_neg hports]
  case grace =>
    intro hprev hend
    exact congrArg Host.Outcome.next (if_pos (by simp [hprev, hend]))
  case probe => exact fun h ks hh htaker hks hsome hdue => congrArg Host.Outcome.next (probeGiver_due hh htaker hks hsome hdue)
  case lost =>
    rintro h _ hh htaker hdue rfl
    exact congrArg (fun u => Host.Outcome.next (settle u)) (settleTimeout_due hh htaker hdue)
  case drain => exact fun c t hc ht hstep hdue => congrArg Host.Outcome.next (departModule_due hc ht hstep hdue)

end

/-! ### Commands of the fault manager

What RETIRE_UNIT, the drills and the reads of the logs do when nothing turns them away (O23). -/

namespace Sys2Proof.Machine

/-! ### RETIRE_UNIT (R462) -/

/-- The kinds of units that a class of RETIRE_UNIT names. -/
theorem retireCommand_kind {u : State} (c : Caller) {k : UnitKind} {n i : Nat}
    (hclass : (n, k) ∈ [(3, UnitKind.rod), (4, .carry), (5, .sieve), (6, .mover)]) :
    retireCommand u c n i = if unitTotalOf k ≤ i then answer u c mbRETIRE_UNIT mOBJECT_NOT_FOUND 0 []
      else if u.spares.retired.contains (k, i) then answer u c mbRETIRE_UNIT mOBJECT_STATE_CONFLICT 0 []
      else answerOk (settle (failUnit u k i 5)) c mbRETIRE_UNIT [] := by
  simp only [List.mem_cons, Prod.mk.injEq, List.not_mem_nil, or_false] at hclass
  obtain ⟨rfl, rfl⟩ | ⟨rfl, rfl⟩ | ⟨rfl, rfl⟩ | ⟨rfl, rfl⟩ := hclass <;> rfl

theorem retireCommand_unit {u : State} (c : Caller) {k : UnitKind} {n i : Nat}
    (hclass : (n, k) ∈ [(3, UnitKind.rod), (4, .carry), (5, .sieve), (6, .mover)]) (hi : i < unitTotalOf k) (hused : u.spares.retired.contains (k, i) = false) :
    retireCommand u c n i = answerOk (settle (failUnit u k i 5)) c mbRETIRE_UNIT [] := by
  rw [retireCommand_kind c hclass, if_neg hi.not_ge, if_neg (Bool.eq_false_iff.mp hused)]

theorem retireCommand_bankPair {u : State} (c : Caller) {i : Nat} (hi : i < 2048) (hused : u.spares.bankRetired.contains i = false) :
    retireCommand u c 9 i = answerOk (settle (sparePair u i)) c mbRETIRE_UNIT [] :=
  (if_neg hi.not_ge).trans (if_neg (Bool.eq_false_iff.mp hused))

theorem retireCommand_buffer {u : State} (c : Caller) {i : Nat} (hi : i < 4096) :
    retireCommand u c 10 i = answerOk (settle (spareMacro u (i / 1024) (i % 1024))) c mbRETIRE_UNIT [] := if_neg hi.not_ge

/-! ### Drills (R471, R474) -/

theorem runDrill_accepted {u : State} (c : Caller) {a : DrillArgs} (hargs : drillBad a = none) (hallowed : drillRefusal u a = none) :
    runDrill u c a = drillAct (answerOk (raise
      (bump { u with spares := { u.spares with drill := some { args := a, startedAt := u.now } } } cDRILLS_RUN)
      (drillRecord a eDRILL_START a.dkind a.target)) c mbRUN_DRILL []) a := by
  simp only [runDrill, hargs, hallowed, modSpares]

theorem abortRunning_drill {u : State} (c : Caller) (h : u.spares.drill.isSome = true) :
    abortRunning u c = answerOk (cutDrill (modDrill u fun d => { d with aborted := true })) c mbABORT_DRILL [] :=
  if_neg (by simp [← Option.not_isSome, h])

end Sys2Proof.Machine

section
open Sys2Proof Sys2Proof.Machine

/-- Settles O23: each command that the gate lets go runs in `startCmd s c`, where no branch of its body that refuses it is open. -/
theorem faultCommandsComplete : Obligations.FaultCommandsComplete := by
  unfold Obligations.FaultCommandsComplete
  rintro s _ c rfl
  refine ⟨fun hg => ⟨?unit, ?pair, ?buffer⟩, ?run, ?abort, ?events, ?drills⟩
  case unit => exact fun k n i hclass hi hused => next_mboxRun_go hg (retireCommand_unit c hclass hi hused)
  case pair => exact fun i hi hused => next_mboxRun_go hg (retireCommand_bankPair c hi hused)
  case buffer => exact fun i hi => next_mboxRun_go hg (retireCommand_buffer c hi)
  case run => exact fun a hg hargs hallowed => next_mboxRun_go hg (congrArg settle (runDrill_accepted c hargs hallowed))
  case abort => exact fun hg hruns => next_mboxRun_go hg (abortRunning_drill c hruns)
  case events =>
    rintro first m _ hg rfl
    exact next_mboxRun_go hg rfl
  case drills => exact fun first m hg => next_mboxRun_go hg rfl

end

/-! ### Supply, shedding, regulators and the thermal monitor

What the rows of the governor, of shed levels, of reset and insertion, of regulators and of the thermal monitor do when their conditions hold (O35). -/

namespace Sys2Proof.Machine

/-! ### The governor (R42 to R46) -/

theorem evaluateDie_due {s : State} {i : Nat} (haway : governorAway s = false) (hdue : due s (dieState s i).lastEval (ms 1) = true) {u : State} {w : Nat}
    (hu : u = { s with admitted := (diePorts i).foldl (fun t n => tset t n (admittedRate s n)) s.admitted })
    (hw : w = max (max (wantedFloor u i) (regField u (aSUPPLY_CORE i) 10 10)) (dieState s i).canaryRaise) :
    evaluateDie s i = setDie u i { dieState s i with
      lastEval := s.now, target := ceilDiv (if (dieState s i).canaryHold then max w (dieState s i).target else w) 10 * 10 } := by
  rw [evaluateDie]
  dsimp only
  rw [if_neg (by simp [haway, hdue]), ← hu, ← hw, hu]

theorem stepDie_due {s : State} {i v : Nat} (haway : governorAway s = false) (hdue : due s (dieState s i).lastStep (us 20) = true)
    (hoff : (dieState s i).voltSet ≠ (dieState s i).target)
    (hv : v = if (dieState s i).voltSet < (dieState s i).target then min (dieState s i).target ((dieState s i).voltSet + 10)
      else max (dieState s i).target ((dieState s i).voltSet - 10))
    (hfloor : floorFor (dieRate s i) ≤ v) : stepDie s i = setDie s i { dieState s i with voltSet := v, lastStep := s.now } := by
  rw [stepDie]
  dsimp only
  rw [if_neg (by simp [haway, hdue, hoff]), ← hv, if_neg hfloor.not_gt]

/-! ### The supply monitor (R519 to R526, R544) -/

/-- A sample of the monitor shows the measured values, and leaves the level, the phase, memory and the packets under way. -/
theorem sampleSupply_shows (s : State) (m : SupplySample) :
    (sampleSupply s m).supply.vin = m.vin ∧ (sampleSupply s m).supply.iin = m.iin ∧ (sampleSupply s m).supply.vstore = m.vstore ∧
      (sampleSupply s m).supply.level = s.supply.level ∧ (sampleSupply s m).supply.phase = s.supply.phase ∧ (sampleSupply s m).pool = s.pool ∧
      (sampleSupply s m).net = s.net := by
  unfold sampleSupply
  extract_lets
  split <;> exact ⟨rfl, rfl, rfl, rfl, rfl, rfl, rfl⟩

theorem qualifyEnter_next {s : State} {k : Nat} (hphase : 1 ≤ s.supply.phase) (hheld : hasHeld s s.supply.belowSince k (us 200) = true) (hlow : 1 ≤ k)
    (hhigh : k ≤ 4) (hnext : s.supply.level + 1 = k) : qualifyEnter s k = enterLevel s k := by
  have hopen : ¬ (s.supply.phase = 0 ∨ ¬ hasHeld s s.supply.belowSince k (us 200) = true) := by
    simp only [hheld, not_true, or_false]
    omega
  rw [qualifyEnter, if_neg hopen, if_neg (by omega), if_pos ⟨hlow, hhigh, hnext⟩]

theorem saveEnds_plain {s : State} (hsaving : s.supply.saving = true) (hreset : s.supply.resetPulse = false) (htrip : s.supply.tripped = false) :
    saveEnds s = { s with supply := { s.supply with saving := false, saved := s.supply.saved.map fun l => { l with complete := true } } } := by
  simp only [saveEnds, modSupply, hsaving, hreset, htrip, Bool.not_true, Bool.not_false, Bool.and_self, Bool.false_eq_true, if_false, if_true]

theorem recoverL4_due {s : State} {t : Ns} (hhigh : s.supply.highSince = some t) (hlevel : s.supply.level = 4) (hdue : due s t (ms 10) = true)
    (hcut : cutActing s = false) : recoverL4 s = startBringup (powerOff s) := by
  simp only [recoverL4, hhigh, hlevel, hdue, hcut, and_self, if_true]

/-! ### Reset and insertion (R534 to R536) -/

theorem assertReset_powered {s : State} (hphase : 1 ≤ s.supply.phase) :
    assertReset s = enterToL3 { s with supply := { s.supply with resetLow := true, resetPulse := true } } := by
  simp only [assertReset, modSupply, hphase, decide_true, Bool.true_or, if_neg (show ¬ s.supply.phase = 0 by omega)]

theorem loseSense_powered {s : State} (hphase : 1 ≤ s.supply.phase) :
    loseSense s = enterToL3 (setEvt { s with supply := { s.supply with senseBroken := true } } aSUPPLY_SHED 16) :=
  if_neg (show ¬ s.supply.phase = 0 by omega)

/-- RESET_N that rises in phase OFF, with nothing else against it, starts bring-up. -/
theorem releaseReset_off {s : State} (hlow : s.supply.resetLow = true) (hphase : s.supply.phase = 0) (hclosed : s.supply.switchClosed = true)
    (hsense : s.supply.senseBroken = false) (hvin : 46000 ≤ s.supply.vin) :
    releaseReset s = startBringup { s with supply := { s.supply with resetLow := false, tripped := false, resetPulse := true } } := by
  have hstart : mayStart { s with supply := { s.supply with resetLow := false, tripped := false, resetPulse := true } } = true := by
    simp [mayStart, hphase, hclosed, hsense]
  rw [releaseReset, if_neg (by simp [hlow]), if_neg (not_not_intro hphase)]
  exact if_pos (by simp only [modSupply, hstart, hvin, decide_true, Bool.and_self])

/-! ### Regulators (R458) -/

/-- A phase of a rail in service that is lost is taken off its rail and recorded; at the forced level it acts as L3. -/
theorem losePhase_new {s u : State} {i p : Nat} (hi : i < 9) (hp : p < Config.railPhases i) (hnew : (railState s i).lost.contains p = false)
    (hon : (railState s i).on = true)
    (hu : u = event (setEvt { s with supply := { s.supply with rails := tset s.supply.rails i { railState s i with lost := (railState s i).lost ++ [p] } } }
        (aSUPPLY_RAIL i) 25)
      eREGULATOR_PHASE_LOST (if (railState s i).lost.length + 1 < 2 then sevCORRECTED else sevFAILED) 12 i i
        (Config.railPhases i - ((railState s i).lost.length + 1))) :
    losePhase s i p = if forcedShed u then enterActions (level s) 3 u else u := by
  have hopen : ¬ (9 ≤ i ∨ Config.railPhases i ≤ p ∨ p ∈ (railState s i).lost ∨ (!(railState s i).on) = true) := by
    have hmem : p ∉ (railState s i).lost := by simpa using hnew
    simp only [hmem, hon, Bool.not_true, Bool.false_eq_true, or_false]
    omega
  rw [losePhase]
  dsimp only
  rw [if_neg hopen, modSupply, ← hu]

/-! ### The thermal monitor (R544, R545, R560, R561) -/

/-- A sample that begins neither a warning nor an action is kept without a record. -/
theorem sampleSensor_quiet {s : State} {i : Nat} {t : Int} (hready : sensorReady s i = true)
    (hwarn : (sensorAfter s i t).overWarn = (tgetD s.supply.sensors i {}).overWarn)
    (haction : (sensorAfter s i t).action = (tgetD s.supply.sensors i {}).action) :
    sampleSensor s i t = { s with supply := { s.supply with sensors := tset s.supply.sensors i (sensorAfter s i t) } } := by
  simp only [sampleSensor, modSupply, hready, hwarn, haction, Bool.and_not_self, Bool.true_eq_false, Bool.false_eq_true, if_false]

theorem releaseThermal_cool {s : State} {i : Nat} {t : Ns} (hcool : (tgetD s.supply.sensors i {}).coolSince = some t)
    (haction : (tgetD s.supply.sensors i {}).action = true) (hdue : due s t (ms 100) = true) (hi : 8 ≤ i) :
    releaseThermal s i = { s with supply := { s.supply with sensors := tset s.supply.sensors i { tgetD s.supply.sensors i {} with action := false } } } := by
  simp only [releaseThermal, modSupply, hcool, haction, hdue, and_self, if_true, if_neg hi.not_gt]

theorem tripThermal_hot {s : State} {i : Nat} (hi : i ≤ 12) (hvalid : (tgetD s.supply.sensors i {}).valid = true) (hfirst : s.supply.tripped = false)
    (hhot : 1200 ≤ (tgetD s.supply.sensors i {}).temp) :
    tripThermal s i = enterToL3 (thermalRecord { s with supply := { s.supply with tripped := true } } i sevFAILED (tgetD s.supply.sensors i {}).temp) := by
  have hnot : ¬ 12 < i := by omega
  exact if_neg (by simp [hnot, hvalid, hfirst, hhot])

theorem markStale_silent {s : State} {i : Nat} (hvalid : (tgetD s.supply.sensors i {}).valid = true)
    (hdue : due s (tgetD s.supply.sensors i {}).at_ (ms 10) = true) :
    markStale s i = { s with supply := { s.supply with sensors := tset s.supply.sensors i { tgetD s.supply.sensors i {} with stale := true } } } :=
  if_pos (by simp only [hvalid, hdue, Bool.and_self])

end Sys2Proof.Machine

section
open Sys2Proof Sys2Proof.Machine

/-- Settles O35: each row is a function of the state whose conditions the statement gives, so that its own lemma names the branch it takes. -/
theorem powerAndThermalEventsAct : Obligations.PowerAndThermalEventsAct := by
  unfold Obligations.PowerAndThermalEventsAct
  intro s i
  refine ⟨fun haway => ⟨?evaluate, ?setpoint⟩, rfl, fun m => ?sample, ?enter, ?leave, ?timer, ?saved, ?recovery, ?overvoltage, ?reset, ?release, ?sense, ?insert,
    ?regulator, ?sensor, ?cooled, ?trip, ?stale⟩
  case evaluate => exact fun u w hdue hu hw => congrArg Host.Outcome.next (evaluateDie_due haway hdue hu hw)
  case setpoint => exact fun v hdue hoff hv hfloor => congrArg Host.Outcome.next (stepDie_due haway hdue hoff hv hfloor)
  case sample =>
    have h := sampleSupply_shows (monitorBoundary s) m
    rw [show (monitorBoundary s).supply = s.supply by rw [monitorBoundary_only s], show (monitorBoundary s).pool = s.pool by rw [monitorBoundary_only s],
      show (monitorBoundary s).net = s.net by rw [monitorBoundary_only s]] at h
    exact ⟨_, rfl, h⟩
  case enter =>
    exact fun hphase hheld hlow hhigh hnext => congrArg (fun u => Host.Outcome.next (settle u)) (qualifyEnter_next hphase hheld hlow hhigh hnext)
  case leave =>
    exact fun hlow hhigh hlevel hheld hcut => congrArg (fun u => Host.Outcome.next (settle u)) (if_pos ⟨hlow, hhigh, hlevel, hheld, hcut⟩)
  case timer => exact fun t htimer hdue hlevel => congrArg Host.Outcome.next (timerExpires_due htimer hdue hlevel)
  case saved => exact fun hsaving hreset htrip => congrArg Host.Outcome.next (saveEnds_plain hsaving hreset htrip)
  case recovery => exact fun t hhigh hlevel hdue hcut => congrArg Host.Outcome.next (recoverL4_due hhigh hlevel hdue hcut)
  case overvoltage => exact fun hi => congrArg Host.Outcome.next (if_neg hi.not_ge)
  case reset => exact fun hphase => congrArg (fun u => Host.Outcome.next (settle u)) (assertReset_powered hphase)
  case release => exact fun hlow hphase hclosed hsense hvin => congrArg Host.Outcome.next (releaseReset_off hlow hphase hclosed hsense hvin)
  case sense => exact fun hphase => congrArg (fun u => Host.Outcome.next (settle u)) (loseSense_powered hphase)
  case insert => exact fun k hphase hmain hvin hrtn => congrArg Host.Outcome.next (if_pos (by simp [hphase, hmain, hvin, hrtn]))
  case regulator => exact fun p u hi hp hnew hon hu => congrArg (fun u => Host.Outcome.next (settle u)) (losePhase_new hi hp hnew hon hu)
  case sensor => exact fun t hready hwarn haction => congrArg (fun u => Host.Outcome.next (settle u)) (sampleSensor_quiet hready hwarn haction)
  case cooled => exact fun t hcool haction hdue hi => congrArg (fun u => Host.Outcome.next (settle u)) (releaseThermal_cool hcool haction hdue hi)
  case trip => exact fun hi hvalid hfirst hhot => congrArg (fun u => Host.Outcome.next (settle u)) (tripThermal_hot hi hvalid hfirst hhot)
  case stale => exact fun hvalid hdue => congrArg Host.Outcome.next (markStale_silent hvalid hdue)

end

/-! ### Commands of the Reckoner's own

What the identity, status, session, key, binding and firmware commands do when nothing turns them away (O22). -/

namespace Sys2Proof.Machine

/-! ### Identity and status (R483, R542) -/

/-- The check of TTAG lets a command pass whose caller is no tenant, or a tenant whose TTAG holds. -/
theorem not_badTtag {u : State} {c : Caller} {op : Nat} {ttag : List Byte} (htag : callerClass c = .tenant → ttagHolds u c op [] ttag = true) :
    ¬ (decide (callerClass c = .tenant) && !ttagHolds u c op [] ttag) = true := by
  simpa using htag

theorem getIdentity_allowed {u : State} {c : Caller} {ttag : List Byte} (htag : callerClass c = .tenant → ttagHolds u c mbGET_IDENTITY [] ttag = true) :
    getIdentity u c ttag = answerOk (readRange u c.mbox false 9 0).2 c mbGET_IDENTITY (readRange u c.mbox false 9 0).1 :=
  if_neg (not_badTtag htag)

theorem getStatus_allowed {u : State} {c : Caller} {ttag : List Byte} {x1 x2 x3 : List Byte × State}
    (htag : callerClass c = .tenant → ttagHolds u c mbGET_STATUS [] ttag = true) (hstatus : x1 = readRange u c.mbox false 3 aSTATUS)
    (hsupply : x2 = readRange x1.2 c.mbox false 25 aSUPPLY) (hthermal : x3 = readRange x2.2 c.mbox false 29 aTHERMAL) :
    getStatus u c ttag = answerOk x3.2 c mbGET_STATUS
      (x1.1 ++ x2.1 ++ x3.1 ++ zeros 4 ++ (List.range 4).flatMap fun i => padTo 16 (Config.mgmtAddress i)) := by
  rw [getStatus]
  dsimp only
  rw [if_neg (not_badTtag htag), ← hstatus, ← hsupply, ← hthermal]

/-! ### Sessions, keys and mailboxes (R484, R498 to R500) -/

theorem openSession_begins {u : State} {c : Caller} {a : OpenSessionArgs} {i : Nat} (hclear : isClear c.mbox = true) (hnonce : a.nonce.length = 32)
    (hkem : a.kemCt.length = 1568) (hsig : a.mgrSig.length = 49856) (hready : u.ten.akReady = true) (hsigned : managerSigned u a = true)
    (hfree : sessionFor u = some i) : openSession u c a = beginSession u c a i := by
  rw [openSession, if_neg (by simp [hclear]), if_neg (not_not_intro hnonce), if_neg (not_not_intro hkem), if_neg (not_not_intro hsig), if_neg (by simp [hready]),
    if_neg (by simp [hsigned]), hfree]

theorem closeSession_open {u : State} {c : Caller} {i : Nat} (hm : c.mbox = .fm i) (hopen : stillOpen u c = true) :
    closeSession u c = closeOne (answerOk u c mbCLOSE_SESSION []) i := by
  simp only [closeSession, hm, hopen, if_true]

theorem setManagerKeys_valid {u : State} {c : Caller} {keys : List (List Byte)} (hfirst : callerClass c = .baseboard → u.rkn.managerKeys = [])
    (hlow : 1 ≤ keys.length) (hhigh : keys.length ≤ 4) (hkeys : ∀ k ∈ keys, k.length = 64) :
    setManagerKeys u c keys = answerOk { u with rkn := { u.rkn with managerKeys := keys } } c mbSET_MANAGER_KEYS [] := by
  have hcaller : ¬ (callerClass c = .baseboard ∧ u.rkn.managerKeys ≠ []) := fun h => h.2 (hfirst h.1)
  have hsome : keys ≠ [] := List.ne_nil_of_length_pos hlow
  have hcount : ¬ (keys = [] ∨ 4 < keys.length) := by
    simp only [hsome, false_or]
    omega
  rw [setManagerKeys, if_neg hcaller, if_neg hcount, if_neg (by simpa using hkeys), modRkn]

theorem bindMailbox_valid {u v : State} {c : Caller} {m q : Nat} {l : List Caller} (hm : m < 16) (hq : q = 0xFFFF ∨ isLport u q = true)
    (hl : l = (u.rkn.journal.filter fun j => !j.2 && j.1.mbox = .host m).map (·.1))
    (hv : v = l.foldl (fun st h => answer st h mbGET_ATTESTATION mABORTED_BY_UPDATE 0 [])
      { u with ten := { u.ten with reports := u.ten.reports.filter fun r => !(r.1 ∈ l) } }) :
    bindMailbox u c m q = answerOk (setMbox v (.host m) { bound := if q = 0xFFFF then none else some q, started := (mboxOf v (.host m)).started }) c
      mbBIND_HOST_MAILBOX [] := by
  rw [bindMailbox, if_neg hm.not_ge, if_neg (not_badBindPort hq)]
  dsimp only
  rw [← hl, ← hv]

/-! ### Firmware (R509, R510, R513) -/

/-- Bytes that fit in the staging partition are kept there, and what was verified is valid no more. -/
theorem stageImage_fits {u : State} (c : Caller) {offset : Nat} {data : List Byte} (hfits : offset + data.length ≤ 5242880) :
    ∃ b, stageImage u c offset data = answerOk { u with rkn := { u.rkn with staging := b, stagedValid := false } } c mbSTAGE_FIRMWARE [] :=
  ⟨_, if_neg hfits.not_gt⟩

theorem verifyImage_good {u : State} (c : Caller) {n : Nat} {im : Image} (hgood : verifyError u n = 0) (him : im = imageOf (stagedBytes u n)) :
    verifyImage u c n = answerOk { u with rkn := { u.rkn with staged := im, stagedValid := true } } c mbVERIFY_FIRMWARE (padTo 64 im.digest ++ le 8 im.version) := by
  rw [verifyImage]
  dsimp only
  rw [if_neg (not_not_intro hgood), ← him, modRkn]

theorem activateImage_staged {u : State} (c : Caller) {d : List Byte} (hvalid : u.rkn.stagedValid = true) (hdigest : d = u.rkn.staged.digest)
    (hidle : u.rkn.activation = none) :
    activateImage u c d = if u.rkn.dvorro = .fetch then { u with rkn := { u.rkn with flashWrite := true, activation := some (c, u.now) } }
      else { u with rkn := { u.rkn with dvorro := .activating, activation := some (c, u.now) } } := by
  rw [activateImage]
  dsimp only
  rw [if_neg (by simp [hvalid]), if_neg (not_not_intro hdigest), if_neg (by simp [hidle]), modRkn, modRkn]

end Sys2Proof.Machine

section
open Sys2Proof Sys2Proof.Machine

/-- Settles O22: each command that the gate lets go runs in `startCmd s c`, where its checks pass and its own lemma gives the effect. -/
theorem reckonerCommandsComplete : Obligations.ReckonerCommandsComplete := by
  unfold Obligations.ReckonerCommandsComplete
  rintro s _ c rfl
  refine ⟨?identity, ?status, ?opening, ?closing, ?keys, ?bind, ?stage, ?verify, ?activate, fun hg => next_mboxRun_go hg rfl⟩
  case identity => exact fun ttag hg htag => next_mboxRun_go hg (getIdentity_allowed htag)
  case status => exact fun ttag x1 x2 x3 hg htag hstatus hsupply hthermal => next_mboxRun_go hg (getStatus_allowed htag hstatus hsupply hthermal)
  case opening =>
    intro a i hg hclear hnonce hkem hsig hready hsigned hfree
    rw [← startCmd_ten s c] at hready
    exact next_mboxRun_go hg (openSession_begins hclear hnonce hkem hsig hready hsigned hfree)
  case closing => exact fun i hm hg hopen => next_mboxRun_go hg (closeSession_open hm hopen)
  case keys => exact fun keys hg hfirst hlow hhigh hkeys => next_mboxRun_go hg (setManagerKeys_valid hfirst hlow hhigh hkeys)
  case bind => exact fun m q l v hg hm hq hl hv => next_mboxRun_go hg (bindMailbox_valid hm hq hl hv)
  case stage =>
    intro offset data hg hfits
    obtain ⟨b, hb⟩ := stageImage_fits (u := startCmd s c) c hfits
    refine ⟨_, next_mboxRun_go hg hb, answerOk_of_gate hg (startCmd_supply s c) rfl rfl, ?_, ?_⟩
    · exact (answerOk_pool _ _ _ _).trans (startCmd_pool s c)
    · exact (answerOk_net _ _ _ _).trans (startCmd_net s c)
  case verify => exact fun n im hg hgood him => next_mboxRun_go hg (verifyImage_good c hgood him)
  case activate =>
    intro d hg hvalid hdigest hidle
    have hact := activateImage_staged (u := startCmd s c) c hvalid hdigest hidle
    rw [startCmd_dvorro, startCmd_now] at hact
    exact next_mboxRun_go hg hact

end
